-- ==== Sys2Proof/Word.lean ====
section
/-!
DEFINITION. The word types of the XA-880 and the one container every sparse piece of state uses:
`SMap α`, a list of (key, value) pairs in canonical form (keys strictly rising, no value equal to what an
unlisted key reads as).
-/

namespace Sys2Proof

/-- One byte of memory or of a message, descriptor or image. -/
abbrev Byte := BitVec 8

/-- A 64-bit scalar register, program counter or counter (R34, R13). -/
abbrev Word := BitVec 64

/-- A 32-bit control register (R12). -/
abbrev Reg := BitVec 32

/-- A W40 or INT40 value (R218, R221). -/
abbrev W40 := BitVec 40

/-- A sparse map: (key, value) pairs, keys strictly rising, no value equal to the default. -/
abbrev SMap (α : Type) := List (Nat × α)

/-- The value at key `i`; an unlisted key reads as `d`. -/
def SMap.get {α : Type} (d : α) : SMap α → Nat → α
  | [], _ => d
  | (k, v) :: m, i => if k = i then v else SMap.get d m i

/-- Lists `v` at key `i`, before every greater key. -/
def SMap.insert {α : Type} : SMap α → Nat → α → SMap α
  | [], i, v => [(i, v)]
  | (k, w) :: m, i, v =>
    if i < k then (i, v) :: (k, w) :: m
    else if i = k then (i, v) :: m
    else (k, w) :: SMap.insert m i v

/-- Writes `v` at key `i` and keeps the canonical form: a value equal to `d` is not listed. -/
def SMap.put {α : Type} [DecidableEq α] (d : α) (m : SMap α) (i : Nat) (v : α) : SMap α :=
  if v = d then m.filter (fun e => e.1 != i) else SMap.insert m i v

/-- Applies `f` to the value at key `i`. -/
def SMap.upd {α : Type} [DecidableEq α] (d : α) (m : SMap α) (i : Nat) (f : α → α) : SMap α :=
  SMap.put d m i (f (SMap.get d m i))

/-- Removes every listed key that `p` holds of: those keys read as the default again. -/
def SMap.clear {α : Type} (p : Nat → Bool) (m : SMap α) : SMap α :=
  m.filter fun e => !p e.1

/-- The canonical form: keys strictly rising from above `lo`, no default value listed. -/
def SMap.wfFrom {α : Type} [DecidableEq α] (d : α) : Option Nat → SMap α → Bool
  | _, [] => true
  | lo, (k, v) :: m =>
    (match lo with | none => true | some l => decide (l < k)) && decide (v ≠ d) && SMap.wfFrom d (some k) m

/-- The canonical form of a whole map. -/
def SMap.wf {α : Type} [DecidableEq α] (d : α) (m : SMap α) : Bool := SMap.wfFrom d none m

end Sys2Proof
end

