-- ==== Sys2Proof/Syntax.lean ====
section
/-!
DEFINITION. The commands of the block: one constructor per row of spec/opcode_table.json, in its order.

An operand is either what the row's own sender supplies (an address, a value, a record) or what the rules leave to the
environment or to timing and a deterministic step cannot decide: which thread issues, which of the flits in flight
arrives, whether a parity check failed. A row that is about one of several things in flight names it by its position.
-/

namespace Sys2Proof

/-- What a read of one memory word finds wrong: bits 0 to 71 of a SECDED word of jet-local memory or the cistern, symbols 0 to 71 of an
HBM line (R343, R345, R349, R351). -/
structure MemFault where
  /-- Physical address. -/
  addr : Nat
  wrong : List Nat
  deriving DecidableEq, Repr

/-- The issue of one instruction by a thread (R36, R77 to R85). -/
structure Issue where
  /-- Logical jet and thread. -/
  jet : Nat
  thread : Nat
  /-- The word that the fetch at the thread's program counter returns (R80). -/
  word : Word
  /-- Consecutive parity errors that the jet detects on an operand or result (R74). -/
  parity : Nat := 0
  /-- What its fetch and its jet-local reads find wrong (R343, R345, R353). -/
  faults : List MemFault := []
  /-- Issue slots that the instruction gets before another event, at least 1 (R85). -/
  parts : Nat := 8192
  /-- Send-table entry that the jet picks for a CONN, when it is free; else the lowest free one (R49). -/
  entry : Nat := 0
  deriving DecidableEq, Repr

/-- Which datapath check a row fails (R156), if any. -/
inductive RowCheck where
  /-- None; the spout computes the row's output again this many times (R449). -/
  | good (recomputes : Nat)
  /-- A parity failure at a row port, an operand bus or the journal path: no cell or tree. -/
  | bus
  /-- A lane check of a physical cell, the parity of an entry of its accumulator or stack, or a physical row tree or column tree. -/
  | lane (row col : Nat)
  | entry (row col : Nat)
  | tree (isRow : Bool) (line : Nat)
  /-- A bank word's parity at a physical cell: of the bank that the row's select names, or of the other one (R161). -/
  | bank (other : Bool) (row col : Nat)
  deriving DecidableEq, Repr

/-- A link block as it reaches a port: the bytes of its 10,280 message bits, or one that the code cannot correct (R410 to R412). -/
inductive BlockIn where
  | good (data : List Byte)
  /-- Corrected symbols with the block, by lane. -/
  | corrected (data : List Byte) (symbols : List Nat)
  | bad
  deriving DecidableEq, Repr

/-- One controller's estimate for 100 ns (R474, R478): the quantity it limits and the part its actuator does not reduce,
in mA for a rail and mW for the cap. -/
structure Estimate where
  q : Nat
  fixed : Nat
  deriving DecidableEq, Repr

/-- Energy of a unit over a millisecond, in µJ (R499). -/
inductive EnergyOf where
  | basin (b e : Nat)
  | terrace (t e : Nat)
  | slice (n e : Nat)
  /-- HBM, weirs and sluices, or link ports: lines or flits per context, as (context, count). -/
  | shared (e : Nat) (weights : List (Nat × Nat))
  | other (e : Nat)
  deriving DecidableEq, Repr

/-- How a ledger flush ends (R577, R584). -/
inductive FlushResult where
  | written | powerLost | unreachable
  deriving DecidableEq, Repr

/-- A command. -/
inductive Instr where
  /-- ADD (R88): Integer add modulo 2^64, register or immediate form. -/
  | add (i : Issue)
  /-- SUB (R88): Integer subtract modulo 2^64. -/
  | sub (i : Issue)
  /-- AND (R88): Bitwise AND. -/
  | andI (i : Issue)
  /-- OR (R88): Bitwise OR. -/
  | orI (i : Issue)
  /-- XOR (R88): Bitwise XOR. -/
  | xorI (i : Issue)
  /-- SHL (R88): Shift left by B[5:0]. -/
  | shl (i : Issue)
  /-- SHR (R88): Logical shift right by B[5:0]. -/
  | shr (i : Issue)
  /-- SRA (R88): Arithmetic shift right by B[5:0]. -/
  | sra (i : Issue)
  /-- MUL (R88): Low 64 bits of the product, in two issues. -/
  | mul (i : Issue)
  /-- MULHU (R88): High 64 bits of the unsigned product. -/
  | mulhu (i : Issue)
  /-- DIV (R89): Signed quotient with the divide-by-zero and overflow results of R89. -/
  | div (i : Issue)
  /-- DIVU (R89): Unsigned quotient. -/
  | divu (i : Issue)
  /-- REM (R89): Signed remainder with the sign of A. -/
  | rem (i : Issue)
  /-- REMU (R89): Unsigned remainder. -/
  | remu (i : Issue)
  /-- MIN (R88): Signed minimum. -/
  | min (i : Issue)
  /-- MAX (R88): Signed maximum. -/
  | max (i : Issue)
  /-- MINU (R88): Unsigned minimum. -/
  | minu (i : Issue)
  /-- MAXU (R88): Unsigned maximum. -/
  | maxu (i : Issue)
  /-- CLZ (R88): Leading zero count of A. -/
  | clz (i : Issue)
  /-- POPC (R88): Number of set bits in A. -/
  | popc (i : Issue)
  /-- LIZ (R90): Loads IMM zero-extended into D. -/
  | liz (i : Issue)
  /-- LIH (R90): Loads IMM into D[63:32] and keeps D[31:0]. -/
  | lih (i : Issue)
  /-- EQ (R91): Integer equality compare into a predicate. -/
  | eqI (i : Issue)
  /-- NE (R91): Integer inequality compare into a predicate. -/
  | neI (i : Issue)
  /-- LT (R91): Signed less-than compare into a predicate. -/
  | ltI (i : Issue)
  /-- LTU (R91): Unsigned less-than compare into a predicate. -/
  | ltu (i : Issue)
  /-- GE (R91): Signed greater-or-equal compare into a predicate. -/
  | geI (i : Issue)
  /-- GEU (R91): Unsigned greater-or-equal compare into a predicate. -/
  | geu (i : Issue)
  /-- FEQ (R91): FP32 equality compare, 0 on NaN. -/
  | feq (i : Issue)
  /-- FLT (R91): FP32 less-than compare, 0 on NaN. -/
  | flt (i : Issue)
  /-- FLE (R91): FP32 less-or-equal compare, 0 on NaN. -/
  | fle (i : Issue)
  /-- FUN (R91): FP32 unordered compare, 1 when either operand is NaN. -/
  | funCmp (i : Issue)
  /-- PAND (R92): Predicate AND. -/
  | pand (i : Issue)
  /-- POR (R92): Predicate OR. -/
  | por (i : Issue)
  /-- PXOR (R92): Predicate XOR. -/
  | pxor (i : Issue)
  /-- PNOT (R92): Predicate NOT. -/
  | pnot (i : Issue)
  /-- PSET (R92): Sets a predicate from bit 0 of a scalar register. -/
  | pset (i : Issue)
  /-- PGET (R92): Copies predicates p7 to p0 into a scalar register. -/
  | pget (i : Issue)
  /-- FADD (R93): Binary32 add, RNE, with sticky flags. -/
  | fadd (i : Issue)
  /-- FSUB (R93): Binary32 subtract. -/
  | fsub (i : Issue)
  /-- FMUL (R93): Binary32 multiply. -/
  | fmul (i : Issue)
  /-- FFMA (R93): Binary32 fused multiply-add with one rounding. -/
  | ffma (i : Issue)
  /-- FDIV (R93): Correctly rounded binary32 divide in 12 issues. -/
  | fdiv (i : Issue)
  /-- FSQRT (R93): Correctly rounded binary32 square root. -/
  | fsqrt (i : Issue)
  /-- FMIN (R94): Binary32 minimum with the NaN rules of R94. -/
  | fmin (i : Issue)
  /-- FMAX (R94): Binary32 maximum with the NaN rules of R94. -/
  | fmax (i : Issue)
  /-- FCVTI (R93): Binary32 to saturated 64-bit integer. -/
  | fcvti (i : Issue)
  /-- FCVTF (R93): 64-bit integer to binary32. -/
  | fcvtf (i : Issue)
  /-- FABS (R93): Clears bit 31 of A. -/
  | fabs (i : Issue)
  /-- FNEG (R93): Inverts bit 31 of A. -/
  | fneg (i : Issue)
  /-- BR (R95): PC-relative branch, optionally linking. -/
  | br (i : Issue)
  /-- JAL (R95): Jump to A + IMM and link. -/
  | jal (i : Issue)
  /-- LD (R96): Load of 1 to 8 bytes, waiting in WAIT_MEM for cistern or HBM. -/
  | ld (i : Issue)
  /-- ST (R96): Store of 1 to 8 bytes. -/
  | st (i : Issue)
  /-- AADD (R97): Atomic add on own jet-local memory. -/
  | aadd (i : Issue)
  /-- ASWAP (R97): Atomic swap. -/
  | aswap (i : Issue)
  /-- ACAS (R97): Atomic compare-and-swap. -/
  | acas (i : Issue)
  /-- AMIN (R97): Atomic signed minimum. -/
  | amin (i : Issue)
  /-- AMAX (R97): Atomic signed maximum. -/
  | amax (i : Issue)
  /-- AMINU (R97): Atomic unsigned minimum. -/
  | aminu (i : Issue)
  /-- AMAXU (R97): Atomic unsigned maximum. -/
  | amaxu (i : Issue)
  /-- AAND (R97): Atomic AND. -/
  | aand (i : Issue)
  /-- AOR (R97): Atomic OR. -/
  | aor (i : Issue)
  /-- FENCE (R98): Waits until every earlier access, BULK and WOP of the thread is performed. -/
  | fence (i : Issue)
  /-- IFLUSH (R98): Invalidates the jet's instruction cache. -/
  | iflush (i : Issue)
  /-- BULK (R99): Moves 128-byte chunks between cistern or HBM and own jet-local memory. -/
  | bulk (i : Issue)
  /-- WOP (R100): Sends one 64-byte line as a weir request after local address checks. -/
  | wop (i : Issue)
  /-- VADD (R104): Elementwise vector add in jet-local memory. -/
  | vadd (i : Issue)
  /-- VSUB (R104): Elementwise vector subtract. -/
  | vsub (i : Issue)
  /-- VMUL (R104): Elementwise vector multiply. -/
  | vmul (i : Issue)
  /-- VFMA (R104): Elementwise d + a × b. -/
  | vfma (i : Issue)
  /-- VAXPY (R104): Elementwise a × sC + b. -/
  | vaxpy (i : Issue)
  /-- VMAX (R104): Elementwise maximum. -/
  | vmax (i : Issue)
  /-- VMIN (R104): Elementwise minimum. -/
  | vmin (i : Issue)
  /-- VCOPY (R104): Vector copy. -/
  | vcopy (i : Issue)
  /-- VFILL (R104): Fills a vector with sC converted to the type. -/
  | vfill (i : Issue)
  /-- VSUM (R106): Balanced-tree sum of a vector into a register. -/
  | vsum (i : Issue)
  /-- VAMAX (R105): Largest magnitude of a vector. -/
  | vamax (i : Issue)
  /-- VCHK (R105): Counts NaN and infinite elements. -/
  | vchk (i : Issue)
  /-- VZTEST (R105): Tests whether every element is zero. -/
  | vztest (i : Issue)
  /-- VCVT (R107): Converts elements between vector types. -/
  | vcvt (i : Issue)
  /-- CHOPEN (R48): Opens a receive channel and grants any held connection requests. -/
  | chopen (i : Issue)
  /-- CHCLOSE (R58): Marks a channel closing and waits for its sources to disconnect. -/
  | chclose (i : Issue)
  /-- CONN (R49): Sends a connection request and waits for the grant. -/
  | conn (i : Issue)
  /-- DISC (R57): Disconnects once every sent message is in its buffer. -/
  | disc (i : Issue)
  /-- SEND (R51): Sends a message on a connection, waiting for a credit. -/
  | send (i : Issue)
  /-- SEND_NB (R51): Non-blocking send returning NO_CREDIT without a credit. -/
  | sendNb (i : Issue)
  /-- FEED (R110): Sends one 64-byte row segment to a basin row port, waiting for a credit. -/
  | feed (i : Issue)
  /-- FEED_NB (R110): Non-blocking FEED. -/
  | feedNb (i : Issue)
  /-- RECV (R56): Returns the first-arrived unreturned message of an ANY channel, waiting if none. -/
  | recv (i : Issue)
  /-- RECV_NB (R56): Non-blocking RECV returning NO_MSG. -/
  | recvNb (i : Issue)
  /-- RECVS (R55): Returns the oldest unreturned message from a named source. -/
  | recvs (i : Issue)
  /-- RECVS_NB (R55): Non-blocking RECVS. -/
  | recvsNb (i : Issue)
  /-- MSGFREE (R52): Frees a slot and returns one credit. -/
  | msgfree (i : Issue)
  /-- BARINIT (R61): Sets a barrier's member count and clears its arrivals. -/
  | barinit (i : Issue)
  /-- BARARR (R62): Arrives at a barrier after prior stores and messages complete, returning a token. -/
  | bararr (i : Issue)
  /-- BARWAIT (R113): Waits until the barrier generation passes the token. -/
  | barwait (i : Issue)
  /-- SPAWN_NORMAL (R39): Starts the lowest free thread of the jet as a NORMAL thread. -/
  | spawnNormal (i : Issue)
  /-- SPAWN_FEED (R39): Starts the lowest free thread of the jet as a FEED thread. -/
  | spawnFeed (i : Issue)
  /-- EXIT (R40): Frees the thread and removes it from its barriers. -/
  | exitThread (i : Issue)
  /-- GETST (R117): Returns the thread's state word. -/
  | getst (i : Issue)
  /-- CLRFLG (R116): Clears the five sticky flags. -/
  | clrflg (i : Issue)
  /-- RDTIME (R118): Returns the timebase tick count. -/
  | rdtime (i : Issue)
  /-- POISON (R118): Sets the poison flag of the current training step. -/
  | poison (i : Issue)
  /-- MEM_ACCESS_COMPLETE (R42): A cistern or HBM access or BULK completes and the thread leaves WAIT_MEM. -/
  | memAccessComplete (jet thread chunks : Nat) (fs : List MemFault := [])
  /-- FENCE_COMPLETE (R98): All earlier accesses of a fenced thread are performed and it becomes READY. -/
  | fenceComplete (jet thread : Nat)
  /-- HOP_RETRANSMIT (R46): A router re-requests a flit that failed parity, escalating to S3 on the third failure. -/
  | hopRetransmit (hop failures : Nat)
  /-- MESSAGE_ARRIVAL (R54): A message reaches its channel buffer and may wake a waiting receiver. -/
  | messageArrival (k slot : Nat)
  /-- CONNECTION_REQUEST (R49): A CONN request reaches its destination and is granted, refused or held. -/
  | connectionRequest (k : Nat) (fs : List MemFault := [])
  /-- CONNECTION_GRANT (R50): A grant with its initial credits reaches the sender. -/
  | connectionGrant (k : Nat)
  /-- CREDIT_RETURN (R52): A credit reaches the sending connection and may wake a waiting SEND. -/
  | creditReturn (k : Nat)
  /-- WAIT_STALL (R66): A thread's wait exceeds JET_WAIT_LIMIT and is reported. -/
  | waitStall (jet thread : Nat)
  /-- JET_SUBSTITUTION (R71): A failed jet's state is checked and moved to a spare. -/
  | jetSubstitution (jet : Nat) (good : Bool)
  /-- LAUNCH_START (R38): A waiting launch starts its threads once they are all FREE. -/
  | launchStart (ctx : Nat)
  /-- TERRACE_PREEMPT (R68): Terrace threads stop and their state is saved to HBM. -/
  | terracePreempt (ctx : Nat)
  /-- CONTEXT_RESUME (R70): A saved context is restored and its threads continue. -/
  | contextResume (ctx : Nat)
  /-- BASIN_ITEM_CHECK (R171): An item reaching the head of the basin queue is checked whole. -/
  | basinItemCheck (b : Nat)
  /-- PASS (R199): A PASS item starts under the sequencing conditions. -/
  | passItem (b : Nat) (fs : List MemFault := [])
  /-- LOAD (R141): A LOAD item starts filling the back bank. -/
  | loadItem (b : Nat)
  /-- LOAD_COMPLETE (R142): A weight load finishes and the back bank becomes READY, or fails its CRC or metadata. -/
  | loadComplete (b : Nat) (parity : Bool := false) (fs : List MemFault := [])
  /-- SIGNAL (R180): MARK SIGNAL completes after every earlier item and signals. -/
  | signalMark (b : Nat)
  /-- WAIT_MARK (R180): MARK WAIT holds later items until a completion counter reaches its target. -/
  | waitMark (b : Nat)
  /-- EXCHANGE (R307): MARK EXCHANGE swaps every cell's banks and the bank select. -/
  | exchange (b : Nat)
  /-- ROOT_WINDOW (R391): MARK ROOT_WINDOW lends a basin to run root-computation passes within a row budget. -/
  | rootWindow (b : Nat) (fs : List MemFault := [])
  /-- ROW_SEGMENT_ARRIVAL (R188): A FEED segment reaches a row port and is held for its scheduled pass. -/
  | rowSegmentArrival (k : Nat)
  /-- ROW_ACCEPT (R187): A part is accepted when every port holds its segment from the scheduled jet, and journalled. -/
  | rowAccept (b : Nat) (fs : List MemFault := [])
  /-- ZERO_ROW_MARKER (R314): A zero-row marker is accepted and stands for COUNT feed units. -/
  | zeroRowMarker (b : Nat) (fs : List MemFault := [])
  /-- OUTPUT_ROW_AT_SPOUT (R150): A row's output reaches the spout after its transit. -/
  | outputRowAtSpout (b : Nat) (fs : List MemFault := [])
  /-- ROW_CHECKED (R259): A row passes its checks and enters the spout stages. -/
  | rowChecked (b : Nat) (res : RowCheck) (fs : List MemFault := [])
  /-- ROW_REPLAY (R159): A reduction pass re-reads the failed and discarded rows from the journal. -/
  | rowReplay (b : Nat) (fs : List MemFault := [])
  /-- SEGMENT_REPLAY (R160): An accumulating pass restores the shadow and replays its segment. -/
  | segmentReplay (b : Nat) (fs : List MemFault := []) (shadow : Bool := true)
  /-- TOKEN_EXIT (R148): The wavefront token leaves the array, permitting a turn. -/
  | tokenExit (b : Nat)
  /-- DRAIN (R134): The accumulations are folded and sent to the spout row by row. -/
  | drain (b : Nat)
  /-- DRAIN_COMPLETE (R134): The last drain row passes its checks and the accumulators clear. -/
  | drainComplete (b : Nat)
  /-- BANK_RELOAD (R143): A bank is reloaded and its CRC checked, stopping with SOURCE_CHANGED on mismatch. -/
  | bankReload (b : Nat) (fs : List MemFault := [])
  /-- BASIN_SUBSTITUTION (R166): A failed basin line is retired to a spare and the pass replayed. -/
  | basinSubstitution (b : Nat) (shadow : Bool := true)
  /-- BASIN_PREEMPT (R152): The basin stops at a row boundary and writes its save record. -/
  | basinPreempt (b : Nat)
  /-- BASIN_RESUME (R154): A resumed basin reloads its banks and accumulations and continues. -/
  | basinResume (b : Nat)
  /-- FEED_STALL (R191): No part accepted for longer than the stall limit. -/
  | feedStall (b : Nat)
  /-- PASS_COMPLETE (R203): A pass completes, incrementing its counter and sending its message. -/
  | passComplete (b : Nat) (fs : List MemFault := [])
  /-- SIDE_ROW_READ (R292): A side-stream row read returns to the spout. -/
  | sideRowRead (b row : Nat) (fs : List MemFault := [])
  /-- ROW_STORE_ACQUIRE (R295): A column group takes a free row store and statistics file. -/
  | rowStoreAcquire (b : Nat)
  /-- ROW_KERNEL_PHASE2 (R296): Phase 2 of a row kernel row begins after its last segment. -/
  | rowKernelPhase2 (b g : Nat) (fs : List MemFault := [])
  /-- SPOUT_DELIVERY (R195): A unit is delivered as messages, memory writes or weir requests once credit is available. -/
  | spoutDelivery (b k : Nat)
  /-- PROFILE_APPLIED (R262): A held profile write takes effect once no item names the profile. -/
  | profileApplied (b k : Nat)
  /-- ROUTE_APPLIED (R326): A held route write takes effect. -/
  | routeApplied (b k : Nat)
  /-- WEIR_PLAIN_REQUEST (R364): A plain-mode weir request is applied to its line. -/
  | weirPlainRequest (k failures : Nat) (fs : List MemFault := [])
  /-- WEIR_ORDERED_REQUEST (R365): An ordered request is applied or staged by tag. -/
  | weirOrderedRequest (k failures : Nat) (fs : List MemFault := [])
  /-- WEIR_EXACT_PARTIAL (R366): An exact-partial part climbs the pairwise tree of its line. -/
  | weirExactPartial (k failures : Nat) (fs : List MemFault := [])
  /-- NOTIFY_DELIVERY (R609): A weir or sluice notification is sent once connected and credited, or refused. -/
  | notifyDelivery (k : Nat)
  /-- JLM_SCRUB (R343): Patrol scrub of jet-local memory, correcting or raising S3. -/
  | jlmScrub (addr : Nat) (wrong : List Nat)
  /-- CISTERN_SCRUB (R345): Patrol scrub of cistern slices. -/
  | cisternScrub (addr : Nat) (wrong : List Nat)
  /-- HBM_SCRUB (R353): Patrol scrub of each HBM line within the scrub interval; its wrong symbols of data and of check bits. -/
  | hbmScrub (addr : Nat) (data check : List Nat)
  /-- PC_RETIREMENT_COMPLETE (R355): The last line of a retiring pseudo-channel is copied to the spare area. -/
  | pcRetirementComplete (stack : Nat) (wrong : List Nat := [])
  /-- HBM_PARITY_RETRY (R352): A burst with a parity error is repeated. -/
  | hbmParityRetry (stack pc : Nat) (write again : Bool)
  /-- ECS_READ (R350): The device reads the stacks' ECS counts once per second. -/
  | ecsRead (counts : List Nat)
  /-- HBM_TEMP_READ (R350): Each stack's temperature is read once per millisecond. -/
  | hbmTempRead (stack temp : Nat) (high : Bool)
  /-- RFM_REQUEST (R350): A stack requests refresh management and the device issues RFM. -/
  | rfmRequest (stack : Nat)
  /-- COMMIT_BARRIER_RELEASE (R396): The commit barrier releases and the outcome is applied by sluices and spouts. -/
  | commitBarrierRelease (ctx recomputes : Nat) (fs : List MemFault := [])
  /-- OPERAND_READY (R386): The BF16 gradient operand is written after GRAD_REGION completes. -/
  | operandReady (k : Nat) (fs : List MemFault := [])
  /-- SNAPSHOT (R400): A snapshot of committed masters is copied to its destination. -/
  | snapshot (k : Nat) (fs : List MemFault := [])
  /-- CHECKPOINT_REQUEST (R404): STEPS or SECONDS since the last buddy copy set the checkpoint request. -/
  | checkpointRequest
  /-- BUDDY_COPY (R405): A buddy copy writes the older slot at the buddy and marks it valid. -/
  | buddyCopy (fs : List MemFault := [])
  /-- LINK_TRAINING_COMPLETE (R427): Port training completes or fails. -/
  | linkTrainingComplete (port lanes : Nat)
  /-- DOWN_RETRY (R427): A DOWN port retries training every 1 s. -/
  | downRetry (port : Nat)
  /-- DISCOVERY_SEND (R428): A port in DISCOVERY sends its record every 1 µs. -/
  | discoverySend (port : Nat)
  /-- DISCOVERY (R429): A neighbour's DISCOVERY record decides the port's state. -/
  | discoveryRec (port : Nat)
  /-- DISCOVERY_TIMEOUT (R430): A port without a neighbour past TIMEOUT takes NO_NEIGHBOUR. -/
  | discoveryTimeout (port : Nat)
  /-- SIGNAL_LOSS (R427): A port loses signal and goes DOWN. -/
  | signalLoss (port : Nat)
  /-- LINK_BLOCK_RECEIVE (R412): A link block is accepted or discarded with NAK, and its ACK and credits applied. -/
  | linkBlockReceive (port : Nat) (block : BlockIn)
  /-- REPLAY_TIMEOUT (R412): No ACK advance for 2 µs resends from the oldest block. -/
  | replayTimeout (port : Nat)
  /-- LINK_RETRAIN (R413): Repeated failures retrain the port, possibly to half width. -/
  | linkRetrain (port lanes : Nat)
  /-- CREDIT_STALL (R415): A VC without credit past the stall limit is reported. -/
  | creditStall (port vc us : Nat)
  /-- PACKET_ROUTE (R421): A header flit is routed to an output port or discarded. -/
  | packetRoute (k : Nat)
  /-- MESSAGE (R417): A MESSAGE packet enters its channel at the destination. -/
  | messagePkt (k : Nat)
  /-- CONN_REQ (R417): A remote connection request arrives. -/
  | connReq (k : Nat)
  /-- CONN_GRANT (R417): A remote grant arrives with its credits. -/
  | connGrant (k : Nat)
  /-- MSG_CREDIT (R417): Remote credits are returned to a connection. -/
  | msgCredit (k : Nat)
  /-- WRITE (R418): A WRITE packet is checked and written to its address. -/
  | writePkt (k recomputes : Nat)
  /-- WEIR_STREAM (R417): Each payload flit is applied as a weir request. -/
  | weirStream (k : Nat)
  /-- COLL_READY (R437): A destination is ready, permitting collective data to be sent to it. -/
  | collReady (k : Nat)
  /-- BARRIER (R439): A fabric barrier ARRIVE or RELEASE packet is combined and forwarded. -/
  | barrierPkt (k : Nat)
  /-- FABRIC_BARRIER_TIMEOUT (R441): A fabric barrier not released within JET_WAIT_LIMIT is reported. -/
  | fabricBarrierTimeout (idx : Nat)
  /-- COLLECTIVE_COMPLETE (R438): A collective's output completes at a rank. -/
  | collectiveComplete (ctx : Nat)
  /-- RECOVERY_NOTICE (R456): A recovery notice is merged and forwarded, starting or restarting recovery. -/
  | recoveryNotice (k : Nat)
  /-- S2_RECORD (R453): The handler processes a queued S2 record; `good` says that its queue and state pass their parity (R465). -/
  | s2Record (good : Bool := true)
  /-- QUIESCE_COMPLETE (R458): Covered contexts are quiesced and the handler moves to REPAIR or REJOIN. -/
  | quiesceComplete
  /-- REPAIR_COMPLETE (R459): Repair and self-check succeed or fail. -/
  | repairComplete (good : Bool)
  /-- REJOIN_READY (R452): FABRIC_READY with lost devices replaced moves the handler to AGREE. -/
  | rejoinReady (held : Nat) (back : List Nat := [])
  /-- DRAFT_WAIT_EXPIRY (R464): REJOIN exceeds DRAFT_WAIT and the job is unrecoverable. -/
  | draftWaitExpiry
  /-- RECOVERY_BARRIER_RELEASE (R460): The AGREE barrier releases the target step. -/
  | recoveryBarrierRelease (fs : List MemFault := [])
  /-- RESTORE_COMPLETE (R461): The slot is restored and the second recovery barrier releases. -/
  | restoreComplete (fs : List MemFault := [])
  /-- ROLLBACK_REPORTED (R462): Chanters report the rollback and the handler returns to NORMAL. -/
  | rollbackReported
  /-- MGMT_WATCHDOG (R468): A management watchdog expires and restarts its core. -/
  | mgmtWatchdog (core : Nat)
  /-- TIMEBASE_LOST (R25): No timebase edge within 20 µs of ring time. -/
  | timebaseLost
  /-- TIMEBASE_RESTORED (R25): The timebase has run 1 s without loss and guarded OP0 ends. -/
  | timebaseRestored
  /-- BELLOWS_UPDATE (R478): Every 100 ns the rail and cap controllers update their bubble demands. -/
  | bellowsUpdate (est : List Estimate)
  /-- CURRENT_SAMPLE (R474): Rail and input measurements are sampled every 1 µs. -/
  | currentSample (amps : List Nat) (watts : Nat)
  /-- CALIBRATION (R475): Static current terms are recalibrated in an idle interval. -/
  | calibration (fit : List Int)
  /-- CAL_COMPARE (R476): Every 1 s estimates are compared with measurements for staleness. -/
  | calCompare (est meas : List Nat)
  /-- OP_CHANGE (R483): A new target OP takes effect and the VCORE ramp starts. -/
  | opChange
  /-- RAMP_COMPLETE (R481): VCORE reaches the target operating point. -/
  | rampComplete
  /-- CAP_GOVERNOR_LOWER (R484): Cap demand ≥ 8/64 for 1 ms lowers the governor limit. -/
  | capGovernorLower
  /-- CAP_GOVERNOR_RAISE (R484): Low power for 10 ms raises the governor limit. -/
  | capGovernorRaise
  /-- PWR_CAP (R486): A cap write is clamped and applied. -/
  | pwrCap (port value : Nat)
  /-- DROOP_ENTER (R488): A region enters droop; delays lengthen, demand rises, VCORE freezes. -/
  | droopEnter (region : Nat)
  /-- DROOP_RELEASE (R488): 2 µs out of droop releases the demand and the voltage command. -/
  | droopRelease (region : Nat)
  /-- THERMAL_UPDATE (R490): Every 1 ms each thermal group's demand is updated. -/
  | thermalUpdate (junctions : List Int)
  /-- THERMAL_OP_LIMIT (R491): The thermal OP limit falls or rises after its hold time. -/
  | thermalOpLimit
  /-- THERMAL_TRIP (R492): A junction or stack trip enters S4. -/
  | thermalTrip (stack : Bool) (unit : Nat) (temp : Int)
  /-- CURRENT_TRIP (R473): A rail above 1.15 × its limit for 5 µs enters S4. -/
  | currentTrip (rail : Nat)
  /-- BRAKE_FALL (R493): A BRAKE# falling edge starts qualification. -/
  | brakeFall
  /-- BRAKE_QUALIFIED (R493): A low level lasting 200 ns sets the 56/64 brake demand. -/
  | brakeQualified
  /-- BRAKE_RELEASE (R494): BRAKE# high for 50 µs ends the assertion. -/
  | brakeRelease
  /-- BRAKE_HELD (R495): An assertion lasting ALERT_S sets BRAKE_HELD and ALERT#. -/
  | brakeHeld
  /-- ENERGY_ATTRIBUTION (R499): Every 1 ms unit energy is attributed to contexts. -/
  | energyAttribution (energies : List EnergyOf)
  /-- PLDM_EFFECTER_WRITE (R502): A PLDM cap effecter write acts as a PWR_CAP write. -/
  | pldmEffecterWrite (value : Nat)
  /-- INPUT_UNDERVOLTAGE (R593): Input below the lockout holds internal reset. -/
  | inputUndervoltage
  /-- INPUT_OVERVOLTAGE (R593): Input above the lockout holds internal reset. -/
  | inputOvervoltage
  /-- INPUT_IN_RANGE (R593): Input rising past the lockout starts the rail sequence. -/
  | inputInRange
  /-- MOD_RST (R596): A qualified MOD_RST# low resets the module and starts a ledger flush. -/
  | modRst
  /-- INTERNAL_RESET_RELEASE (R595): Reset conditions clear and boot begins at the ROM step. -/
  | internalResetRelease
  /-- CONFIGURATION_LOCK (R518): Configuration is locked once applied and HBM trained, enabling ports. -/
  | configurationLock
  /-- PERST (R537): PERST# of a port resets it and destroys its contexts. -/
  | perst (port : Nat)
  /-- BEGIN (R528): Opens an update and erases the named slot. -/
  | updBegin (path : Bool) (slot : Nat)
  /-- UPDATE_WRITE (R528): Programs one 4 KiB block of the slot. -/
  | updateWrite (path : Bool) (block : Nat) (data : List Byte)
  /-- FINISH (R528): Verifies the slot and programs MARKER. -/
  | updFinish (path : Bool)
  /-- UPDATE_ABORT (R528): Ends an open update leaving MARKER erased. -/
  | updateAbort (path : Bool)
  /-- SVN_COMMIT (R529): Blows SVN fuses up to the booted image's values. -/
  | svnCommit (path : Bool) (fuses : Nat)
  /-- GET_VERSION (R524): SPDM version request. -/
  | getVersion (req : List Byte)
  /-- GET_CAPABILITIES (R524): SPDM capabilities request. -/
  | getCapabilities (req : List Byte)
  /-- NEGOTIATE_ALGORITHMS (R524): SPDM algorithm negotiation. -/
  | negotiateAlgorithms (req : List Byte)
  /-- GET_DIGESTS (R524): Returns slot 0 chain digests. -/
  | getDigests (req : List Byte)
  /-- GET_CERTIFICATE (R523): Returns the slot 0 certificate chain. -/
  | getCertificate (req : List Byte)
  /-- CHUNK_GET (R524): Returns a chunk of a large SPDM response. -/
  | chunkGet (req : List Byte)
  /-- CHALLENGE (R524): Signs a challenge with the alias or DEVID key. -/
  | challenge (req : List Byte)
  /-- GET_MEASUREMENTS (R525): Returns signed measurements. -/
  | getMeasurements (req : List Byte)
  /-- SPDM_UNSUPPORTED (R524): Any other SPDM request is answered with UnsupportedRequest. -/
  | spdmUnsupported (req : List Byte)
  /-- READ_HEADER (R582): MCTP ledger header readout. -/
  | readHeader
  /-- READ_SLOTS (R582): MCTP readout of up to 8 latched slots. -/
  | readSlots (first count : Nat)
  /-- LEDGER_UNSUPPORTED (R582): An unknown ledger request is answered UNSUPPORTED. -/
  | ledgerUnsupported (req : Nat)
  /-- LEDGER_FLUSH (R577): Every 1 s the shadow is written to the older die image. -/
  | ledgerFlush (res : FlushResult)
  /-- LEDGER_LOAD (R577): At power-on the valid images are merged into the shadow. -/
  | ledgerLoad (bad0 bad1 : Bool) (slots0 slots1 : List Nat)
  /-- LDG_READ_INDEX (R581): A write latches the named slot into the read registers. -/
  | ldgReadIndex (port value : Nat)
  /-- COUNTER_LOW_READ (R13): Reading a counter's low word latches its high word per requester. -/
  | counterLowRead (port addr size : Nat)
  /-- REGISTER_WRITE (R9): A write to a register without behaviour of its own, per its access code. -/
  | registerWrite (port addr size value : Nat)
  /-- BAR4_ACCESS (R553): An aperture access through a context or PHYS window. -/
  | bar4Access (port offset : Nat) (write : Bool) (data : List Byte) (fs : List MemFault := [])
  /-- CTX_TAIL (R554): A doorbell write moves the tail and starts fetching. -/
  | ctxTail (port ctx value : Nat)
  /-- CHANTER_DOORBELL (R555): A jet's doorbell message acts as a CTX_TAIL write. -/
  | chanterDoorbell (k : Nat)
  /-- CTX_EVQ_HEAD (R566): Advancing the event head re-arms the context's MSI-X vector. -/
  | ctxEvqHead (port ctx value : Nat)
  /-- COMMAND_FETCHED (R557): Ring slots arrive from memory for decoding. -/
  | commandFetched (ctx : Nat) (data : List Byte) (ok : Bool) (fs : List MemFault := [])
  /-- CTX_CREATE (R543): Creates a context. -/
  | ctxCreate (port : Nat)
  /-- CTX_DESTROY (R548): Destroys a context and releases its resources. -/
  | ctxDestroy (port : Nat)
  /-- LEASE (R544): Replaces a context's lease. -/
  | lease (port : Nat)
  /-- FRAMES (R542): Zeroes and assigns HBM frames. -/
  | frames (port : Nat)
  /-- HOST_WINDOW (R552): Sets one of a context's host windows. -/
  | hostWindow (port : Nat)
  /-- INVALIDATE (R551): Completes after accesses under old translations finish. -/
  | invalidate (port : Nat)
  /-- SUSPEND (R542): Suspends a context, pre-empting it first if running. -/
  | suspend (port : Nat)
  /-- RESTART (R542): Returns a suspended or halted context to READY. -/
  | restart (port : Nat)
  /-- ABORT (R541): Halts a context with reason ABORTED. -/
  | ctxAbort (port : Nat)
  /-- DRAFT (R442): A standby assumes a device ID and retrains. -/
  | draft (port : Nat)
  /-- CONTEXT_SCHEDULE (R545): A READY context is granted its units and becomes RUNNING. -/
  | contextSchedule (ctx : Nat)
  /-- QUANTUM_EXPIRY (R545): A context's time slice expires, permitting a yield. -/
  | quantumExpiry (ctx : Nat)
  /-- HOST_ACCESS_TIMEOUT (R552): A host read not completed within 50 ms halts the context. -/
  | hostAccessTimeout (ctx : Nat)
  /-- COMMAND_STALL (R564): A waiting command exceeds HIF_WAIT_LIMIT and is reported. -/
  | commandStall (ctx : Nat)
  /-- NOP (R558): Does nothing. -/
  | nopCmd (ctx : Nat)
  /-- BASIN_ITEMS (R558): Writes items into a basin queue. -/
  | basinItems (ctx : Nat)
  /-- LAUNCH (R38): Launches a kernel on named terraces. -/
  | launchCmd (ctx : Nat)
  /-- PROFILE_WRITE (R262): Writes a spout profile, held until unused. -/
  | profileWrite (ctx : Nat)
  /-- ROUTE_WRITE (R326): Writes a route entry, held until unused. -/
  | routeWrite (ctx : Nat)
  /-- SET (R559): Sets seed, table bases and FIXED recipe. -/
  | setCmd (ctx : Nat)
  /-- PHASE (R482): Sets OP hints and the current phase. -/
  | phaseCmd (ctx : Nat)
  /-- REGION_DECLARE (R361): Declares a weir region in all weirs. -/
  | regionDeclare (ctx : Nat)
  /-- REGION_RELEASE (R370): Frees a weir region entry. -/
  | regionRelease (ctx : Nat)
  /-- BLOCK_INIT (R378): Installs a parameter block descriptor. -/
  | blockInit (ctx : Nat)
  /-- BLOCK_RELEASE (R378): Makes a block invalid. -/
  | blockRelease (ctx : Nat)
  /-- SCHEDULE (R393): Delivers a training step's schedule record. -/
  | schedule (ctx : Nat)
  /-- COMMIT (R394): Checks blocks and arrives at the commit barrier. -/
  | commit (ctx : Nat) (fs : List MemFault := [])
  /-- COLLECTIVE (R434): Starts a collective operation. -/
  | collective (ctx : Nat) (fs : List MemFault := [])
  /-- EVAL_OPEN (R402): Opens an evaluation window after the commit before it. -/
  | evalOpen (ctx : Nat)
  /-- EVAL_CLOSE (R402): Closes the evaluation window. -/
  | evalClose (ctx : Nat)
  /-- COPY (R558): Copies bytes between host and device addresses. -/
  | copyCmd (ctx : Nat) (data : List Byte) (ok : Bool) (fs : List MemFault := [])
  /-- WAIT (R558): Waits for a context or basin counter to reach a target. -/
  | waitCmd (ctx : Nat)
  /-- SIGNAL_COMMAND (R558): Writes a 64-bit value to memory. -/
  | signalCommand (ctx : Nat)
  /-- JOB_START (R562): Starts a fabric job or halts with FABRIC_NOT_READY. -/
  | jobStart (ctx : Nat)
  /-- OVL_SEL_CHANGE (R530): The OVL_SEL[3:0] straps change after they were sampled; after the lock the ledger records the new value under code 0x003. -/
  | ovlSelChange (level : Nat)
  /-- BRAKE_RISE (R494): BRAKE# returns high, which ends a low pulse shorter than 200 ns as a filtered pulse, or starts the 50 us high interval that ends a qualified assertion or counts as chatter. -/
  | brakeRise (ns : Nat)
  /-- DROOP_END (R487): A region's VCORE rises 10 mV above its droop threshold, so the region leaves droop and its 2 us hold begins. -/
  | droopEnd (region ns : Nat)
  /-- LINK_UP (R532): The PCIe link of a created host port finishes training with its partner, or stays down with NO_FLIT set when the partner lacks Flit mode. -/
  | linkUp (port width speed : Nat) (flit : Bool)
  /-- HBM_TRAIN (R518): A stack fails HBM interface training on its own retry, and the device enters FAILED with HBM_TRAIN without trying the other slot. -/
  | hbmTrain (stack : Nat)
  /-- PC_LINE_COPY (R355): The stack unit finishes copying one line of a retiring pseudo-channel, the copy pointer advances, and accesses waiting on that line proceed at its spare location. -/
  | pcLineCopy (stack : Nat) (wrong : List Nat := [])
  deriving DecidableEq, Repr

end Sys2Proof
end

