-- ==== Sys2Proof/Machine/Bits.lean ====
section
/-!
DEFINITION. Bit fields, byte order, sign extension, list and map helpers that every unit uses. All multi-byte
values are little-endian (R77, R171, R218).
-/

namespace Sys2Proof.Machine

/-- Bits [hi:lo] of a natural number. -/
def bits (n hi lo : Nat) : Nat := (n >>> lo) % 2 ^ (hi + 1 - lo)

/-- One bit as a Bool. -/
def bitB (n i : Nat) : Bool := n.testBit i

/-- Two's complement value of the low `w` bits. -/
def toSigned (w n : Nat) : Int :=
  if n % 2 ^ w < 2 ^ (w - 1) then ((n % 2 ^ w : Nat) : Int) else ((n % 2 ^ w : Nat) : Int) - (2 ^ w : Nat)

/-- The low `w` bits of an integer in two's complement. -/
def ofSigned (w : Nat) (z : Int) : Nat := (z % ((2 ^ w : Nat) : Int)).toNat

/-- An integer held within two bounds. -/
def clampI (lo hi z : Int) : Int := if z < lo then lo else if hi < z then hi else z

def b2n (b : Bool) : Nat := if b then 1 else 0

/-- Little-endian value of a list of bytes. -/
def leNat : List Byte → Nat
  | [] => 0
  | b :: bs => b.toNat + 256 * leNat bs

/-- The low `n` bytes of a value, little-endian. -/
def toLe : Nat → Nat → List Byte
  | 0, _ => []
  | n + 1, v => BitVec.ofNat 8 v :: toLe n (v / 256)

/-- `n` bytes from offset `o`; absent bytes read as zero. -/
def slice (bs : List Byte) (o n : Nat) : List Byte :=
  (bs.drop o).take n ++ List.replicate (n - (bs.length - o)) 0

/-- The little-endian field of `n` bytes at offset `o`. -/
def leAt (bs : List Byte) (o n : Nat) : Nat := leNat (slice bs o n)

/-- Bits [hi:lo] of 64-bit word `w` of a descriptor. -/
def wfld (bs : List Byte) (w hi lo : Nat) : Nat := bits (leAt bs (8 * w) 8) hi lo

/-- Bits [hi:lo] of 32-bit word `w` of a record. -/
def dfld (bs : List Byte) (w hi lo : Nat) : Nat := bits (leAt bs (4 * w) 4) hi lo

/-- Every bit of a word outside a mask is 0. -/
def onlyBits (n mask : Nat) : Bool := n &&& mask == n

/-- Zeros up to a multiple of `n` bytes. -/
def padTo (n : Nat) (bs : List Byte) : List Byte :=
  bs ++ List.replicate ((n - bs.length % n) % n) 0

/-- Replaces the bytes from offset `o`. -/
def patch (bs : List Byte) (o : Nat) (v : List Byte) : List Byte :=
  slice bs 0 o ++ v ++ bs.drop (o + v.length)

/-- Smallest `k` with `n ≤ 2^k`. -/
def clog2 (n : Nat) : Nat := if n ≤ 1 then 0 else Nat.log2 (n - 1) + 1

def ceilDiv (a b : Nat) : Nat := (a + b - 1) / b

/-- Replaces element `i` by `f` of it. -/
def updAt {α : Type} (l : List α) (i : Nat) (f : α → α) : List α := l.modify i f

/-- Whether all numbers below `n` satisfy `p`. -/
def allBelow (n : Nat) (p : Nat → Bool) : Bool := (List.range n).all p

/-- A map from the values of a function below `n`. -/
def tabulate {α : Type} [DecidableEq α] (d : α) (n : Nat) (f : Nat → α) : SMap α :=
  (List.range n).filterMap fun i => if f i = d then none else some (i, f i)

/-- First of the `n` numbers from `i` on satisfying `p`. -/
def firstFrom (p : Nat → Bool) : Nat → Nat → Option Nat
  | 0, _ => none
  | n + 1, i => if p i then some i else firstFrom p n (i + 1)

/-- Least number below `n` satisfying `p`. -/
def leastBelow (n : Nat) (p : Nat → Bool) : Option Nat := firstFrom p n 0

/-- CRC-32C, one bit of the reflected polynomial 0x82F63B78. -/
def crcBit (c : Nat) : Nat := if c % 2 = 1 then (c / 2) ^^^ 0x82F63B78 else c / 2

def crcByte (c : Nat) (b : Byte) : Nat :=
  crcBit (crcBit (crcBit (crcBit (crcBit (crcBit (crcBit (crcBit (c ^^^ b.toNat))))))))

/-- CRC-32C of a list of bytes (R141, R179; the polynomial and its initial and final values are the standard's, log
entry 7). -/
def crc32c (bs : List Byte) : BitVec 32 := BitVec.ofNat 32 (bs.foldl crcByte 0xFFFFFFFF ^^^ 0xFFFFFFFF)

end Sys2Proof.Machine
end

