-- ==== Sys2Proof/Machine/BasinState.lean ====
section
/-!
DEFINITION. State of the basins (chapters 04 and 05 of spec/): banks, accumulators, queue, passes, rows in the
array, replay and spare lines.
-/

namespace Sys2Proof.Machine

/-- The state of a bank (R142). -/
inductive BankState where
  | empty | loading | ready
  deriving DecidableEq, Repr

/-- What the basin records with a bank (R176). -/
structure BankRec where
  fmt : Nat := 0
  unpacked : Bool := false
  sparse : Nat := 0
  mxAxis : Nat := 0
  deriving DecidableEq, Repr

/-- A physical bank of all 512 × 512 cells (R122, R141, R176, R182, R184). -/
structure Bank where
  st : BankState := .empty
  /-- Bank words by i × 512 + j. -/
  words : SMap (BitVec 16) := []
  /-- Sparsity tags by i × 512 + j. -/
  tags : SMap Byte := []
  /-- MX scale array, by offset. -/
  scales : SMap Byte := []
  rcd : BankRec := {}
  crc : Reg := 0
  /-- Source: tile, stride, metadata, scales (R143, R153). -/
  src : Nat := 0
  stride : Nat := 0
  metaSrc : Nat := 0
  scaleSrc : Nat := 0
  deriving DecidableEq, Repr

/-- The statuses of an item (R204). -/
inductive ItemStatus where
  | ok | badDesc | badRow | sourceChanged | noTile | badMeta | aborted
  deriving DecidableEq, Repr

/-- An item of a basin queue (R169 to R174). -/
structure Item where
  seq : BitVec 32
  raw : List Byte
  checked : Bool := false
  started : Bool := false
  /-- A status that halts the queue, until every earlier item has completed (R205). -/
  failed : Option ItemStatus := none
  /-- The FIXED recipe that a PASS captured as it entered the queue: four exponent bytes (R273). -/
  fix : List Byte := [0, 0, 0, 0]
  /-- Slot count of the BASIN_ITEMS command that queued it (R391). -/
  slot : Nat := 0
  /-- Timebase tick at which a MARK WAIT reached the head, and whether COMMAND_STALL has reported it (R208, R564). -/
  since : Nat := 0
  stalled : Bool := false
  /-- Rows that a ROOT_WINDOW has accepted, toward its BUDGET (R391). -/
  used : Nat := 0
  deriving DecidableEq, Repr

/-- A row, term or marker between acceptance and its checks (R156 to R160, R319). -/
structure ArrRow where
  /-- Pass that it belongs to, by item sequence number. -/
  seq : BitVec 32
  /-- Row or term number within the pass. -/
  row : Nat
  /-- Bytes of its parts, as accepted. -/
  data : List Byte
  /-- Rows it stands for: as a zero-row marker, or as a block with EN zero; 0 for a fed row (R192, R318, R323). -/
  zeros : Nat := 0
  masked : Bool := false
  /-- It belongs to a zero-row marker (R314, R319). -/
  marker : Bool := false
  /-- Its segment for replay (R158). -/
  segNo : Nat := 0
  /-- Physical bank its select names (R144). -/
  bank : Nat
  /-- It carries the wavefront token of the SWAP pass behind it (R144). -/
  token : Bool := false
  /-- Its output has reached the spout. -/
  atSpout : Bool := false
  /-- Its output, one 40-bit value per element, once at the spout. -/
  out : List W40 := []
  deriving DecidableEq, Repr

/-- The running state of a started pass (R153, R158, R163, R206). -/
structure PassRun where
  seq : BitVec 32
  raw : List Byte
  /-- Physical bank of its select. -/
  bank : Nat
  /-- Feed units accepted, parts of the present unit, rows or terms accepted (the row cursor). -/
  units : Nat := 0
  parts : List Byte := []
  partCount : Nat := 0
  cursor : Nat := 0
  /-- Rows or terms that have passed their checks. -/
  checked : Nat := 0
  /-- Number of the present segment, the journal slots that it has taken, and its first row (R158). -/
  segNo : Nat := 0
  segSlots : Nat := 0
  segRow : Nat := 0
  /-- Replays begun: the segment, and the check and place where it localizes to one (R163). -/
  fails : List (Nat × Option Nat) := []
  /-- FUSED_BWD: dx rows below this number were delivered before a replay (R160). -/
  dxDone : Nat := 0
  /-- Drain rows sent to the spout, drain rows that have passed their checks, and the drain's completion (R134). -/
  drain : Nat := 0
  drainOk : Nat := 0
  drained : Bool := false
  /-- Timebase tick of the last acceptance, and whether FEED_STALL has reported the wait (R191). -/
  since : Nat := 0
  stalled : Bool := false
  replayed : Bool := false
  /-- Leaves or terms of a sum beyond the pairwise limit, 0 for none (R232, R233). -/
  longsum : Nat := 0
  substituted : Bool := false
  /-- Jet, channel and index of each connection that the spout has opened for it (R194). -/
  conns : List (Nat × Nat × Nat) := []
  /-- It is a pass of a ROOT_WINDOW: its rows come from the sluices and its output goes back to them (R391). -/
  win : Bool := false
  deriving DecidableEq, Repr

/-- A K-tiling group (R197). -/
structure KGroup where
  opened : Bool := false
  next : Nat := 0
  /-- PASS item of the first member: the shared fields, and CONFORM of its profile (R257). -/
  raw : List Byte := []
  conform : Bool := false
  deriving DecidableEq, Repr

/-- A basin (R120, R142 to R170). -/
structure Basin where
  lease : Option Nat := none
  stopped : Bool := false
  halted : Bool := false
  /-- Physical banks 0 and 1. -/
  bank0 : Bank := {}
  bank1 : Bank := {}
  /-- Physical bank in the front role, and the bank select (R144). -/
  front : Nat := 0
  sel : Nat := 0
  /-- A wavefront token is in the array (R144, R148). -/
  token : Bool := false
  /-- The accumulators, the 16 stack levels (level × 2^18 + cell), and their shadows (R120, R131, R158). -/
  acc : SMap W40 := []
  stack : SMap W40 := []
  terms : Nat := 0
  shAcc : SMap W40 := []
  shStack : SMap W40 := []
  shTerms : Nat := 0
  queue : List Item := []
  nextSeq : BitVec 32 := 0
  lastStatus : Nat := 0
  lastSeq : Reg := 0
  /-- The pass whose rows may be accepted and those before it that are not complete, oldest first. -/
  passes : List PassRun := []
  /-- Rows accepted and not yet checked, oldest first, and rows that a replay must send again. -/
  array : List ArrRow := []
  replay : List ArrRow := []
  /-- Terms of the accumulating pass's segment that have passed their checks (R160). -/
  seg : List ArrRow := []
  /-- Rows and terms of the replay in progress that are still to pass their checks (R162). -/
  replayLeft : Nat := 0
  /-- Drain rows at the spout: pass, row, values (R134). -/
  drains : List (BitVec 32 × Nat × List W40) := []
  /-- Banks to reload before a replay or after a resumption, and a location whose line is to be retired (R161, R163). -/
  reloads : List Nat := []
  retire : Option Nat := none
  /-- A substitution is in progress: the basin is stopped until its replay begins (R166). -/
  subst : Bool := false
  groups : SMap KGroup := []
  /-- The column group that checked items have opened: FUNC, C, ROW_COUNT, next COLSEG (R294). -/
  colOpen : Option (Nat × Nat × Nat × Nat) := none
  /-- The load in progress, by item sequence number. -/
  loading : Option (BitVec 32) := none
  /-- A load was in progress when the basin stopped (R154). -/
  loadPending : Bool := false
  /-- Journal: next slot (R157). -/
  journal : Nat := 0
  /-- Where the even spread of bubbles stands, in 64ths of a bubble (R477). -/
  slotPhase : Nat := 0
  /-- Tick at which it last accepted a row (R475). -/
  rowAt : Nat := 0
  /-- Completion counters 0 to 3 (BSN_COMP). -/
  comp : SMap Reg := []
  /-- log2 of the feed sources L (BSN_FEED_CFG). -/
  feedSources : Nat := 4
  /-- Retired physical rows and columns, fuse repairs included (R164, R165). -/
  rowsRetired : List Nat := []
  colsRetired : List Nat := []
  /-- Row cursor of the current pass (BSN_CURSOR). -/
  cursor : BitVec 40 := 0
  /-- Entry class of the last started pass: 0 ROW, 1 COLUMN, 2 DUAL; 3 when none has started (R148). -/
  entry : Nat := 3
  deriving DecidableEq, Repr

end Sys2Proof.Machine
end

