-- ==== Sys2Proof/Machine/BootState.lean ====
section
/-!
DEFINITION. State of boot, configuration, identity, updates, pins and input power (chapters 14 and 17 of spec/).
-/

namespace Sys2Proof.Machine

/-- STATE of CFG_BOOT_STATUS. -/
inductive BState where
  | rom | fetch | verify | apply | locked | failed
  deriving DecidableEq, Repr

/-- STATE of SEC_UPDATE_STATUS. -/
inductive UState where
  | idle | opened | busy | done | failed
  deriving DecidableEq, Repr

/-- The configuration that APPLY has read and checked (R512 to R515, R521). -/
structure Applied where
  /-- REG pairs of BASE in record order: offset, value. -/
  regs : List (Nat × Nat) := []
  /-- Payload bytes of the settings in force. -/
  hostSplit : List Byte := []
  linkRole : List Byte := []
  chassis : List Byte := []
  conform : Bool := false
  pins : Nat := 0
  /-- Overlay indices of the recipe. -/
  overlays : List Nat := []
  seq : Nat := 0
  fwSvn : Nat := 0
  cfgSvn : Nat := 0
  planCode : Nat := 0
  /-- PLAN section and position index; empty when no plan is loaded. -/
  plan : List Byte := []
  position : Nat := 0
  /-- Assumable IDs of the position, and the position is a standby. -/
  planIds : Nat := 0
  standby : Bool := false
  planOff : Nat := 0
  /-- Digests of measurements 2 and 3, and the (INDEX, digest) pairs of 4 (R525). -/
  firmware : List Byte := []
  base : List Byte := []
  overlay : List Byte := []
  deriving DecidableEq, Repr

structure Boot where
  st : BState := .rom
  slot : Nat := 0
  fallback : Bool := false
  locked : Bool := false
  codeA : Nat := 0x0B
  codeB : Nat := 0x0B
  planCode : Nat := 0
  /-- The straps sampled at step 1 of R518. -/
  recipe : Nat := 0
  overlays : List Nat := []
  imageSeq : Nat := 0
  chassis : Nat := 0
  conform : Bool := false
  planMode : Bool := false
  applied : Applied := {}
  /-- Tick at which boot began. -/
  since : Nat := 0
  /-- Fused counters (R505). -/
  fwFused : Nat := 0
  cfgFused : Nat := 0
  /-- Fused repairs (R505): rows and columns retired by basin, and logical jets carried by spares. -/
  repairRows : SMap (List Nat) := []
  repairCols : SMap (List Nat) := []
  repairJets : SMap (Option Nat) := []
  udsLatched : Bool := false
  aliasValid : Bool := false
  /-- The xSPI NOR: density in Mbit, 0 absent (R507); its bytes, an unlisted one erased, 0xFF (R509). -/
  norMbit : Nat := 1024
  nor : SMap Byte := []
  /-- The baseboard's position EEPROM (R520); none: no response. -/
  eeprom : Option (List Byte) := none
  /-- The signed-update engine (R527, R528). -/
  upd : UState := .idle
  updSlot : Nat := 0
  updCode : Nat := 0
  updWindow : SMap Byte := []
  /-- Which path opened the update: true the SEC_ registers, false MCTP. -/
  updPath : Bool := false
  /-- SPDM: negotiated version, and the large response a CHUNK_GET reads (R524). -/
  spdmVersion : Nat := 0
  spdmLarge : List Byte := []
  spdmHandle : Nat := 0
  /-- The requester's DataTransferSize, and the messages exchanged since GET_VERSION. -/
  spdmPeer : Nat := 0
  spdmLog : List Byte := []
  /-- Requests of APPLY, answered after LOCKED or in FAILED (R530). -/
  spdmHeld : List (List Byte) := []
  /-- PINS byte: ALERT_OE, FAULT_OE, BRAKE_IE (R591). -/
  pins : Nat := 0
  /-- Levels of OVL_SEL[3:0], BRAKE#, PERST#[3:0] and MOD_RST# (R589). -/
  ovlSel : Nat := 0
  brakeLevel : Bool := true
  perst : Nat := 0xF
  modRst : Bool := true
  /-- Input within its lockouts, an overvoltage lockout still holds (R593). -/
  inputOk : Bool := true
  overVolt : Bool := false
  /-- The internal reset is asserted (R595). -/
  inReset : Bool := true
  deriving DecidableEq, Repr

end Sys2Proof.Machine
end

