-- ==== Sys2Proof/Machine/FaultState.lean ====
section
/-!
DEFINITION. State of fault handling and recovery (chapter 12 of spec/).
-/

namespace Sys2Proof.Machine

/-- An error record (R447). -/
structure ErrRec where
  code : Nat
  sev : Nat
  unit : Nat
  inst : Nat
  dev : Nat
  secs : Nat
  epoch : Nat
  deriving DecidableEq, Repr

/-- STATE of the recovery handler (R452). -/
inductive HState where
  | normal | quiesce | repair | rejoin | agree | restore | resume | contained
  deriving DecidableEq, Repr

structure Recovery where
  st : HState := .normal
  /-- Severity being handled (CFG_FAULT_STATUS). -/
  sev : Nat := 0
  /-- S2 records waiting, oldest first (R453, R455). -/
  queue : List ErrRec := []
  restarts : Nat := 0
  failed : Bool := false
  /-- FAULT# is driven (R466). -/
  fault : Bool := false
  /-- Local S3 events of the present recovery (R452, R459). -/
  localFaults : List ErrRec := []
  epoch : Nat := 0
  /-- Lost device IDs of the present recovery, and those already replaced (R456, R452). -/
  lost : List Nat := []
  /-- Contexts the present recovery covers (R457). -/
  covered : List Nat := []
  /-- T and the released values (R460). -/
  target : Nat := 0
  /-- RESTORE: this member's slot has been written back (R461). -/
  restored : Bool := false
  /-- Tick at which REJOIN was entered. -/
  since : Nat := 0
  /-- Watchdog expiries within the present recovery (R465). -/
  wdogs : Nat := 0
  /-- The timebase is lost, or has not yet run 1 s since (R25, R451). -/
  tbLost : Bool := false
  /-- Tick of the last loss. -/
  tbAt : Nat := 0
  /-- This device is a drafted spare that has not left REJOIN (R461). -/
  spare : Bool := false
  /-- Lost device IDs recorded at the present epoch (R456). -/
  seen : List Nat := []
  /-- Tick at which the present recovery was first called for (R462). -/
  detect : Nat := 0
  deriving DecidableEq, Repr

end Sys2Proof.Machine
end

