-- ==== Sys2Proof/Machine/JetState.lean ====
section
/-!
DEFINITION. State of the jets and the runnel (chapters 02 and 03 of spec/): threads, channels, connections,
barriers, row-port segments and everything in flight between endpoints.
-/

namespace Sys2Proof.Machine

/-- The states of a thread (R35). -/
inductive ThreadState where
  | free | ready | waitMem | waitMsg | waitCredit | waitBar | stopped | faulted
  deriving DecidableEq, Repr

/-- Where a context address lies (R339, R340). -/
inductive Loc where
  | hbm (pa : Nat) (cacheable : Bool)
  | cistern (pa : Nat)
  | jlm (pa : Nat)
  deriving DecidableEq, Repr

/-- What a waiting thread waits for: the operands its instruction still needs (R35, R42, R51, R57, R58, R62, R63). -/
inductive Wait where
  | none
  /-- LD of cistern or HBM: the location that its address translated to, size in bytes, sign extension, destination register. -/
  | load (l : Loc) (size : Nat) (signed : Bool) (d : Nat)
  /-- ST to cistern or HBM: the location, bytes to store. -/
  | store (l : Loc) (data : List Byte)
  /-- BULK: to jet-local memory or from it, the locations left with the bytes of each, jet-local address. -/
  | bulk (toJlm : Bool) (ext : List (Loc × Nat)) (loc : Nat)
  | fence
  /-- BARARR before its arrival counts: handle and destination register. -/
  | bararr (handle d : Nat)
  | recv (ch d : Nat)
  | recvs (ch src d : Nat)
  /-- SEND and FEED: entry of the send table, payload as read at issue, tag, destination register. -/
  | send (idx : Nat) (data : List Byte) (tag d : Nat)
  | feed (idx : Nat) (data : List Byte) (d : Nat)
  | conn (idx d : Nat)
  | disc (idx : Nat)
  | chclose (ch : Nat)
  /-- BARWAIT: handle, token, destination register. -/
  | barwait (handle token d : Nat)
  deriving DecidableEq, Repr

/-- One of the 256 hardware threads of a jet (R34, R35, R85, R117). -/
structure Thread where
  st : ThreadState := .free
  /-- The state a STOPPED thread returns to when its terrace resumes (R70). -/
  back : ThreadState := .free
  /-- FEED mark (R36, R117 bit 0). -/
  feed : Bool := false
  /-- s1 to s15; s0 is never listed (R34). -/
  regs : SMap Word := []
  pc : Word := 0
  /-- p7 to p0 (R34). -/
  preds : BitVec 8 := 0
  /-- Sticky flags NX UF OF DZ NV, bit 4 down to bit 0 (R117 bits 5 to 1). -/
  flags : BitVec 5 := 0
  /-- FAULT of the state word (R73, R117). -/
  fault : Nat := 0
  /-- PARTS of the state word: completed parts of a multi-issue instruction (R85, R117). -/
  parts : Nat := 0
  /-- Source chunks a stopped vector instruction has read and not yet used (R85, R102). -/
  latch : List Byte := []
  wait : Wait := .none
  /-- WOP lines this thread has sent that are not yet performed (R98, R100). -/
  wops : Nat := 0
  /-- Timebase tick at which the present wait began, and whether WAIT_STALL has reported it (R66). -/
  since : Nat := 0
  stalled : Bool := false
  /-- Number of the instruction among those that began to wait: what R54 orders waiting SENDs by. -/
  order : Nat := 0
  deriving DecidableEq, Repr

/-- A message held in a slot of a receive channel (R47, R52). -/
structure Slot where
  src : Nat          -- source endpoint ID
  srcIdx : Nat       -- the connection that filled the slot
  len : Nat          -- flits
  tag : Nat
  order : Nat        -- order of reaching the buffer (R56)
  returned : Bool    -- returned by an earlier RECV or RECVS (R52)
  deriving DecidableEq, Repr

/-- A receive channel of a jet (R47 to R58). -/
inductive ChanState where
  | closed | opened | closing
  deriving DecidableEq, Repr

structure Channel where
  st : ChanState := .closed
  /-- Mode ANY (true) or ORDERED. -/
  any : Bool := false
  base : Nat := 0
  slots : Nat := 0
  /-- Largest message, in flits. -/
  largest : Nat := 0
  /-- Source limit L. -/
  sources : Nat := 0
  /-- Connected sources: endpoint and connection index at the source. -/
  conns : List (Nat × Nat) := []
  /-- Held messages by slot number. -/
  msgs : SMap (Option Slot) := []
  /-- Order number of the next arriving message (R56). -/
  next : Nat := 0
  deriving DecidableEq, Repr

/-- An entry of a send table (R48 to R52), of a jet, or of another endpoint that sends messages. -/
structure Conn where
  used : Bool := false
  /-- A CONN request has left and no grant has come back (R49). -/
  pending : Bool := false
  dst : Nat := 0       -- destination endpoint
  ch : Nat := 0
  credits : Nat := 0
  /-- Largest message of the channel in flits; 1 for a row port (R53). -/
  largest : Nat := 0
  /-- A spout's or a stack unit's connection that frees itself once its messages have arrived (R194, R609). -/
  closing : Bool := false
  /-- Device, endpoint and channel of a connection through a link port (R419). -/
  remote : Option (Nat × Nat × Nat) := none
  /-- Messages sent through a link port and not yet known to be in their buffer, oldest first: the thread that sent each (R57,
  R62, R419). -/
  out : List Nat := []
  deriving DecidableEq, Repr

/-- A message on plane 0, from its send to its buffer (R47, R54). A FEED flit is one to a row port. -/
structure Msg where
  src : Nat
  srcIdx : Nat
  dst : Nat
  ch : Nat
  tag : Nat
  /-- Thread that sent it, for R62. -/
  thread : Nat
  data : List Byte
  deriving DecidableEq, Repr

/-- A connection request in flight or held at an unopened channel (R49). -/
structure ConnReq where
  src : Nat
  srcIdx : Nat
  dst : Nat
  ch : Nat
  deriving DecidableEq, Repr

/-- A grant (with its credits) or a refusal on its way back on plane 1 (R49, R50). -/
structure Grant where
  ep : Nat
  idx : Nat
  granted : Bool
  credits : Nat
  largest : Nat
  deriving DecidableEq, Repr

/-- A barrier object of any scope (R60 to R65, R115). -/
structure Barrier where
  init : Bool := false
  broken : Bool := false
  members : Nat := 0
  arrivals : Nat := 0
  gen : BitVec 16 := 0
  /-- Threads that joined (context × 2^20 + jet × 256 + thread) since the latest BARINIT (R113). -/
  joined : List Nat := []
  /-- Fabric scope: the device's single arrival has entered the tree, and how many arrivals it stands for (R115). -/
  inTree : Bool := false
  used : Nat := 0
  deriving DecidableEq, Repr

/-- A segment of 64 bytes held at a row port, with the connection that sent it (R188). -/
structure Segment where
  jet : Nat
  idx : Nat
  data : List Byte
  deriving DecidableEq, Repr

/-- A row port of a basin (R189). -/
structure RowPort where
  conns : List (Nat × Nat) := []   -- endpoint, connection index
  held : List Segment := []        -- oldest first, per jet in issue order
  deriving DecidableEq, Repr

/-- A terrace (R67, JET_TERRACE_STATUS). -/
structure Terrace where
  lease : Option Nat := none
  stopped : Bool := false
  /-- It is stopped for a jet substitution (R71). -/
  substituting : Bool := false
  sparesUsed : Nat := 0
  deriving DecidableEq, Repr

/-- The issue stage of a jet (R36): the threads that last issued in the two classes, and how many of four slots in which both
classes had a READY thread have passed; at reset thread 0 is next and no such slot has passed (log entry 146). -/
structure Sched where
  lastFeed : Nat := 255
  lastNormal : Nat := 255
  turn : Nat := 0
  deriving DecidableEq, Repr

/-- Jets and runnel. -/
structure Jets where
  /-- Threads by jet × 256 + thread. -/
  threads : SMap Thread := []
  /-- Channels by jet × 256 + channel. -/
  chans : SMap Channel := []
  /-- Send tables by endpoint × 65536 + index; a jet has indices 0 to 63. -/
  conns : SMap Conn := []
  /-- Barriers: key = scope × 2^32 + owner × 2^16 + index (R60, R112). -/
  bars : SMap Barrier := []
  /-- Row ports by basin × 16 + port. -/
  ports : SMap RowPort := []
  terraces : SMap Terrace := []
  /-- Issue stages by jet (R36). -/
  sched : SMap Sched := []
  /-- Logical jets whose logic has failed, and that R71 is to substitute (R74). -/
  failed : List Nat := []
  /-- Logical jets carried by another physical jet than their primary (R32, R71). -/
  map : SMap (Option Nat) := []
  /-- Instruction cache of each jet, 32 KiB: by jet × 2^48 + address, words fetched since the last IFLUSH (R80). -/
  icache : SMap (Option Word) := []
  msgs : List Msg := []
  reqs : List ConnReq := []
  /-- Requests held at unopened channels. -/
  held : List ConnReq := []
  grants : List Grant := []
  /-- Credits on their way back: endpoint and connection index. -/
  credits : List (Nat × Nat) := []
  /-- Instructions that have begun to wait. -/
  waits : Nat := 0
  deriving DecidableEq, Repr

end Sys2Proof.Machine
end

