-- ==== Sys2Proof/Config.lean ====
section
/-!
DEFINITION. What an implementation fixes and what the manual leaves open: constants with no body, so that no
proof can see a value of them. Each is named in an assumption-log entry.
-/

namespace Sys2Proof.Config

/-- A free value of any width for the `n`-th undefined value the machine produces (log entry 3). -/
opaque freeByte (n addr : Nat) : Byte

/-- The binary32 results of the "one fixed algorithm" of R289 for exp, tanh and the logistic function, which the manual does not
give: the machine takes such a result where it is within 2 ulp (log entry 4). -/
opaque expF : BitVec 32 → BitVec 32
/-- tanh of R289 (log entry 4). -/
opaque tanhF : BitVec 32 → BitVec 32
/-- The logistic function s of R289 (log entry 4). -/
opaque logisticF : BitVec 32 → BitVec 32
/-- The standard normal distribution function Φ of R290, whose evaluation from erf the manual leaves open (log entry 4). -/
opaque normalCdfF : BitVec 32 → BitVec 32
/-- The standard normal density φ of R290 (log entry 4). -/
opaque normalPdfF : BitVec 32 → BitVec 32

/-- SHA-512 (R506); the function is the standard's, not the manual's (log entry 5). -/
opaque sha512 : List Byte → List Byte
/-- ECDSA P-521 verification of a 132-byte signature over a digest under a 133-byte point (R506, R511; log entry 5). -/
opaque ecdsaVerify : List Byte → List Byte → List Byte → Bool
/-- Splits CERTS into the root key, the firmware key and the owner key, or none where a certificate is not the
X.509 v3 DER certificate signed by the root key that R511 asks for (log entry 5). -/
opaque certKeys : List Byte → Option (List Byte × List Byte × List Byte)
/-- ECDSA P-521 signature by the key derived under R522 (DEVID: false, ALIAS: true) over a message (log entry 5). -/
opaque sign : Bool → List Byte → List Byte → List Byte
/-- The alias key pair's certificate of R522, from the salt material (log entry 5). -/
opaque aliasCert : List Byte → List Byte

/-- Fused SERIAL (R505): the part's own. -/
opaque serial : BitVec 64
/-- Fused ROOT_HASH (R505), 64 bytes: the part's own. -/
opaque rootHash : List Byte
/-- Fused LIMITS (R505) as measurement 9 lists them, and their TX_LEVEL ceiling (R409): the part's own. -/
opaque limits : List Byte
opaque txCeiling : Nat
/-- The certificates of R523 but the alias one, root first: the part's own. -/
opaque factoryChain : List Byte
/-- What the SPDM responder says of its timing and its buffers (R524 gives neither; log entry 5). -/
opaque spdmTiming : Byte
opaque spdmTransfer : BitVec 32
opaque spdmLargest : BitVec 32
/-- The boot ROM's bytes (R525 measurement 1). -/
opaque bootRom : List Byte
/-- The cache set of a line within its home slice: R347 gives 16 ways and no index function (log entry 6). -/
opaque cacheSet : Nat → Nat
/-- The way a full set evicts on the `n`-th eviction: R347 gives no replacement policy (log entry 6). -/
opaque cacheVictim : Nat → Nat
/-- Which of its words a full instruction cache of a jet gives up for the word at an address (R80; log entry 124). -/
opaque icacheVictim : Nat → Nat → Nat

/-- Position of element 0 of a row whose profile gives N_KEY 0: R301 takes E0 modulo N_KEY (log entry 20). -/
opaque posModZero : Nat → Nat

/-- Whether binary32 tininess is detected before rounding: IEEE 754 allows either way and R93 names none (log entry 15). -/
opaque tinyBefore : Bool
/-- Whether a fused multiply-add of an infinity and a zero with a quiet NaN addend raises NV: IEEE 754 leaves it open
(log entry 15). -/
opaque fmaNanInvalid : Bool
/-- The bubble ratio that R478 leaves without a value: the newest estimate does not exceed the fixed part (log entry 16). -/
opaque bubbleCorner : Nat → Nat

/-- Element `e` of a gradient region that was released between a COMMIT's arrival and its barrier's release (log entry 133). -/
opaque lostSource : Nat → BitVec 32
/-- The ledger code of a failed root computation: R392 records it and R583 lists none (log entry 23). -/
opaque rootFailCode : BitVec 12

/-- KIND of the event that reports a packet which is not accepted: R418 reports it and R565 lists no kind for it (log entry 30). -/
opaque rejectKind : BitVec 16
/-- E0 and TENSOR_ID of the region that another device has declared for a collective, in a step: device, COLL_ID, step (R435; log entry
139). -/
opaque peerE0 : Nat → Nat → Nat → Nat
opaque peerTensor : Nat → Nat → Nat → Nat

/-- The deviation of R476 from a measurement of 0, which the manual does not give (log entry 32). -/
opaque zeroDeviation : Nat → Nat

end Sys2Proof.Config
end

