-- ==== Sys2Proof/Machine/Numeric.lean ====
section
/-!
DEFINITION. Arithmetic of chapter 06 of spec/: element formats, exact values, rounding to nearest even and
stochastic rounding, W40 and INT40 sums, the canonical pairwise sum, FP32T, Philox-4×32-10.
-/

namespace Sys2Proof.Machine

/-- A value of any floating-point format: NaN, an infinity, or (−1)^neg × m × 2^e (R210 to R212). -/
inductive FVal where
  | nan
  | inf (neg : Bool)
  | fin (neg : Bool) (m : Nat) (e : Int)
  deriving DecidableEq, Repr

/-- How a format spells non-finite values (R211). -/
inductive Special where
  | ieee | e4m3 | noSpecial
  deriving DecidableEq, Repr

/-- A floating-point format (R210): exponent bits, fraction bits, bias, special encodings. -/
structure Fmt where
  eb : Nat
  fb : Nat
  bias : Int
  sp : Special
  deriving DecidableEq, Repr

def f32 : Fmt := ⟨8, 23, 127, .ieee⟩
def f16 : Fmt := ⟨5, 10, 15, .ieee⟩
def bf16 : Fmt := ⟨8, 7, 127, .ieee⟩
def e5m2 : Fmt := ⟨5, 2, 15, .ieee⟩
def e4m3 : Fmt := ⟨4, 3, 7, .e4m3⟩
def e3m2 : Fmt := ⟨3, 2, 3, .noSpecial⟩
def e2m3 : Fmt := ⟨2, 3, 1, .noSpecial⟩
def e2m1 : Fmt := ⟨2, 1, 1, .noSpecial⟩
def w40 : Fmt := ⟨10, 29, 511, .ieee⟩

/-- Width of an encoding. -/
def Fmt.width (f : Fmt) : Nat := 1 + f.eb + f.fb

/-- Magnitude encoding of the largest finite value. -/
def Fmt.maxMag (f : Fmt) : Nat :=
  match f.sp with
  | .ieee => (2 ^ f.eb - 1) * 2 ^ f.fb - 1
  | .e4m3 => 2 ^ (f.eb + f.fb) - 2
  | .noSpecial => 2 ^ (f.eb + f.fb) - 1

/-- The canonical NaN (R214); formats without NaN carry it in the block scale, and 0 stands in (R216, R270). -/
def Fmt.nanBits (f : Fmt) : Nat :=
  match f.sp with
  | .ieee => (2 ^ f.eb - 1) * 2 ^ f.fb + 2 ^ (f.fb - 1)
  | .e4m3 => 2 ^ (f.eb + f.fb) - 1
  | .noSpecial => 0

def Fmt.signBit (f : Fmt) (neg : Bool) : Nat := if neg then 2 ^ (f.eb + f.fb) else 0

/-- The value of an encoding (R210, R211, R213). -/
def Fmt.decode (f : Fmt) (n : Nat) : FVal :=
  let neg := n.testBit (f.eb + f.fb)
  let e := (n >>> f.fb) % 2 ^ f.eb
  let m := n % 2 ^ f.fb
  if f.sp = .ieee ∧ e = 2 ^ f.eb - 1 then (if m = 0 then .inf neg else .nan)
  else if f.sp = .e4m3 ∧ n % 2 ^ (f.eb + f.fb) = 2 ^ (f.eb + f.fb) - 1 then .nan
  else if e = 0 then .fin neg m (1 - f.bias - f.fb)
  else .fin neg (2 ^ f.fb + m) ((e : Int) - f.bias - f.fb)

/-- Rounding mode: nearest even, or stochastic with a 32-bit random word (R243, R250). -/
inductive Rnd where
  | rne
  | sr (r : Nat)
  deriving DecidableEq, Repr

/-- Whether a remainder `rem` out of `2^s` above an integer `q` rounds up (R250 for stochastic rounding). -/
def roundUp (rm : Rnd) (q rem s : Nat) : Bool :=
  match rm with
  | .rne => decide (2 ^ s < 2 * rem) || (decide (2 * rem = 2 ^ s) && q % 2 == 1)
  | .sr r => decide (r < rem * 2 ^ 32 / 2 ^ s)

/-- Magnitude m × 2^e in units of 2^u: the rounded integer and whether it is inexact. -/
def roundUnits (rm : Rnd) (m : Nat) (e u : Int) : Nat × Bool :=
  if u ≤ e then (m <<< (e - u).toNat, false)
  else
    let s := (u - e).toNat
    let q := m >>> s
    let rem := m % 2 ^ s
    (if roundUp rm q rem s then q + 1 else q, rem ≠ 0)

/-- Exponent of the leading bit of m × 2^e, m above 0. -/
def lead (m : Nat) (e : Int) : Int := (Nat.log2 m : Int) + e

/-- Magnitude encoding of a rounded m × 2^e, without a bound above (it may pass the largest finite value), and
whether the rounding is inexact. -/
def Fmt.encMag (f : Fmt) (rm : Rnd) (m : Nat) (e : Int) : Nat × Bool :=
  if m = 0 then (0, false)
  else
    let emin : Int := 1 - f.bias
    let u := max (lead m e) emin - f.fb
    let (q, inex) := roundUnits rm m e u
    (((u + f.fb + f.bias - 1).toNat) * 2 ^ f.fb + q, inex)

/-- IEEE rounding to nearest even: overflow gives an infinity (R93, R103, R254). -/
def Fmt.ieeeRound (f : Fmt) : FVal → Nat
  | .nan => f.nanBits
  | .inf neg => f.signBit neg + (2 ^ f.eb - 1) * 2 ^ f.fb
  | .fin neg m e =>
    let (k, _) := f.encMag .rne m e
    f.signBit neg + (if f.maxMag < k then f.maxMag + 1 else k)

/-- Exact sum; an exact zero is +0 unless both operands are −0 (IEEE 754 under RNE). -/
def FVal.add : FVal → FVal → FVal
  | .nan, _ => .nan
  | _, .nan => .nan
  | .inf a, .inf b => if a = b then .inf a else .nan
  | .inf a, _ => .inf a
  | _, .inf b => .inf b
  | .fin na ma ea, .fin nb mb eb =>
    let e := min ea eb
    let x : Int := (if na then -1 else 1) * ((ma <<< (ea - e).toNat : Nat) : Int)
    let y : Int := (if nb then -1 else 1) * ((mb <<< (eb - e).toNat : Nat) : Int)
    if x + y = 0 then .fin (na && nb) 0 e else .fin (x + y < 0) (x + y).natAbs e

def FVal.neg : FVal → FVal
  | .nan => .nan
  | .inf a => .inf (!a)
  | .fin n m e => .fin (!n) m e

def FVal.abs : FVal → FVal
  | .nan => .nan
  | .inf _ => .inf false
  | .fin _ m e => .fin false m e

def FVal.isZero : FVal → Bool
  | .fin _ 0 _ => true
  | _ => false

def FVal.isFin : FVal → Bool
  | .fin _ _ _ => true
  | _ => false

def FVal.isNeg : FVal → Bool
  | .nan => false
  | .inf a => a
  | .fin n _ _ => n

/-- Exact product (R228). -/
def FVal.mul : FVal → FVal → FVal
  | .nan, _ => .nan
  | _, .nan => .nan
  | .inf a, .inf b => .inf (a != b)
  | .inf a, .fin nb mb _ => if mb = 0 then .nan else .inf (a != nb)
  | .fin na ma _, .inf b => if ma = 0 then .nan else .inf (na != b)
  | .fin na ma ea, .fin nb mb eb => .fin (na != nb) (ma * mb) (ea + eb)

/-- Multiplication by a power of two. -/
def FVal.scale (k : Int) : FVal → FVal
  | .fin n m e => .fin n m (e + k)
  | v => v

/-- Quotient with 80 extra bits and a sticky bit below them: rounds correctly into any format of R210. -/
def FVal.div : FVal → FVal → FVal
  | .nan, _ => .nan
  | _, .nan => .nan
  | .inf _, .inf _ => .nan
  | .inf a, .fin nb _ _ => .inf (a != nb)
  | .fin na _ _, .inf b => .fin (na != b) 0 0
  | .fin na ma ea, .fin nb mb eb =>
    if mb = 0 then (if ma = 0 then .nan else .inf (na != nb))
    else
      let k := 80 + Nat.log2 mb
      let q := (ma <<< k) / mb
      let st := if (ma <<< k) % mb = 0 then 0 else 1
      .fin (na != nb) (2 * q + st) (ea - eb - k - 1)

/-- Integer square root, bit by bit from 2^n down. -/
def isqrt (x : Nat) : Nat → Nat → Nat
  | 0, r => r
  | n + 1, r => if (r + 2 ^ n) * (r + 2 ^ n) ≤ x then isqrt x n (r + 2 ^ n) else isqrt x n r

/-- Square root with extra bits and a sticky bit. -/
def FVal.sqrt : FVal → FVal
  | .nan => .nan
  | .inf a => if a then .nan else .inf false
  | .fin n m e =>
    if m = 0 then .fin n 0 e
    else if n then .nan
    else
      let e' := if e % 2 = 0 then e else e - 1
      let m' := (if e % 2 = 0 then m else 2 * m) <<< 160
      let r := isqrt m' (Nat.log2 m' / 2 + 1) 0
      .fin false (2 * r + (if r * r = m' then 0 else 1)) (e' / 2 - 80 - 1)

/-- a < b on numbers; false when either is NaN. −0 equals +0. -/
def FVal.lt : FVal → FVal → Bool
  | .nan, _ => false
  | _, .nan => false
  | .inf a, .inf b => a && !b
  | .inf a, _ => a
  | _, .inf b => !b
  | a, b => match FVal.add a b.neg with
    | .fin n m _ => n && m != 0
    | _ => false

/-- Numeric equality; false when either is NaN. -/
def FVal.eq (a b : FVal) : Bool :=
  match a, b with
  | .nan, _ => false
  | _, .nan => false
  | _, _ => !(a.lt b) && !(b.lt a)

/-- ⌊log2 |v|⌋ of a finite non-zero value. -/
def FVal.expo : FVal → Option Int
  | .fin _ m e => if m = 0 then none else some (lead m e)
  | _ => none

/-! ### W40 and INT40 (R218 to R222) -/

/-- Value of a W40 encoding; 0x80_0000_0000 reads as zero (R219). -/
def w40Val (x : W40) : FVal :=
  match w40.decode x.toNat with
  | .fin _ 0 e => .fin false 0 e
  | v => v

/-- Rounding to W40 by RNE; zero is always 0x00_0000_0000 (R219, R220). -/
def toW40 (v : FVal) : W40 :=
  match v with
  | .fin _ 0 _ => 0
  | v => let k := w40.ieeeRound v
         if k = w40.signBit true then 0 else BitVec.ofNat 40 k

/-- RN40 of the sum (R220). -/
def w40Add (a b : W40) : W40 := toW40 ((w40Val a).add (w40Val b))

def int40Max : Int := 2 ^ 39 - 1
def int40Min : Int := -(2 ^ 39)

/-- A saturated INT40 value (R221). -/
def int40Sat (a : W40) : Bool := a.toInt == int40Max || a.toInt == int40Min

def toInt40 (z : Int) : W40 := BitVec.ofInt 40 (clampI int40Min int40Max z)

/-- The INT40 addition of R221; the first argument is the left operand. -/
def int40Add (a b : W40) : W40 :=
  if int40Sat a then a else if int40Sat b then b else toInt40 (a.toInt + b.toInt)

/-- The addition of a pass: INT40 for integer operands, RN40 otherwise. -/
def sumAdd (isInt : Bool) (a b : W40) : W40 := if isInt then int40Add a b else w40Add a b

/-- An accumulator input of a floating-point sum: 0x80_0000_0000 becomes zero, a NaN becomes canonical (R219, R257). -/
def w40Canon (a : W40) : W40 := toW40 (w40Val a)

/-! ### Canonical pairwise sum (R230) -/

/-- One level of a balanced tree: adjacent pairs are combined, left operand first. -/
def pairUp {α : Type} (add : α → α → α) : List α → List α
  | a :: b :: l => add a b :: pairUp add l
  | l => l

/-- `n` levels of a balanced tree over the leaves. -/
def treeLevels {α : Type} (add : α → α → α) : Nat → List α → List α
  | 0, l => l
  | n + 1, l => treeLevels add n (pairUp add l)

/-- Leaves extended with `z` to the next power of two (R230, R106). -/
def padLeaves {α : Type} (z : α) (l : List α) : List α :=
  l ++ List.replicate (2 ^ clog2 l.length - l.length) z

/-- P(v₀, …, vₙ₋₁) of R230; `z` is the padding leaf, and the sum of no leaves. -/
def pairwise {α : Type} (add : α → α → α) (z : α) (l : List α) : α :=
  (treeLevels add (clog2 l.length) (padLeaves z l)).headD z

/-! ### Integers and FP32T -/

/-- A finite value rounded to an integer (R107, R244, R261). -/
def roundInt (rm : Rnd) (neg : Bool) (m : Nat) (e : Int) : Int × Bool :=
  let (q, inex) := roundUnits rm m e 0
  (if neg then -(q : Int) else q, inex)

/-- Classes of R245. -/
inductive Cls where
  | zero | normal | sub | unf | ovf | nonfinite
  deriving DecidableEq, Repr

def Cls.idx : Cls → Nat
  | .zero => 0
  | .normal => 1
  | .sub => 2
  | .unf => 3
  | .ovf => 4
  | .nonfinite => 5

/-- Conversion at a device narrowing point into a floating format (R244): encoding and class. -/
def narrowF (f : Fmt) (rm : Rnd) : FVal → Nat × Cls
  | .nan => (f.nanBits, .nonfinite)
  | .inf neg => (if f.sp = .ieee then f.signBit neg + f.maxMag + 1 else f.nanBits, .nonfinite)
  | .fin neg m e =>
    if m = 0 then (0, .zero)
    else
      let (k, _) := f.encMag rm m e
      if f.maxMag < k then (f.signBit neg + f.maxMag, .ovf)
      else if k = 0 then (f.signBit neg, .unf)
      else if k < 2 ^ f.fb then (f.signBit neg + k, .sub)
      else (f.signBit neg + k, .normal)

/-- Conversion at a device narrowing point into a `w`-bit integer (R244). -/
def narrowI (w : Nat) (rm : Rnd) : FVal → Nat × Cls
  | .nan => (0, .nonfinite)
  | .inf neg => (ofSigned w (if neg then -(2 ^ (w - 1) : Nat) else (2 ^ (w - 1) : Nat) - 1), .nonfinite)
  | .fin neg m e =>
    if m = 0 then (0, .zero)
    else
      let z := (roundInt rm neg m e).1
      let lo : Int := -(2 ^ (w - 1) : Nat)
      let hi : Int := (2 ^ (w - 1) : Nat) - 1
      if z < lo then (ofSigned w lo, .ovf) else if hi < z then (ofSigned w hi, .ovf)
      else if z = 0 then (0, .unf) else (ofSigned w z, .normal)

/-- Conversion of an INT40 value of an integer pass into a `w`-bit integer; a saturated value is OVF (R244, R221). -/
def narrowInt40 (w : Nat) (x : W40) : Nat × Cls :=
  let z := x.toInt
  let lo : Int := -(2 ^ (w - 1) : Nat)
  let hi : Int := (2 ^ (w - 1) : Nat) - 1
  if int40Sat x then (ofSigned w (clampI lo hi z), .ovf)
  else if z = 0 then (0, .zero)
  else if z < lo then (ofSigned w lo, .ovf) else if hi < z then (ofSigned w hi, .ovf)
  else (ofSigned w z, .normal)

/-- An integer as an exact value. -/
def ofIntF (z : Int) : FVal := .fin (z < 0) z.natAbs 0

/-- FP32T element: HI encoding and T (R223). -/
structure F32T where
  hi : Nat
  t : Int
  deriving DecidableEq, Repr

/-- Exponent of ulp(HI) (R223). -/
def ulpExp (hi : Nat) : Int :=
  let e := (hi >>> 23) % 256
  if e = 0 then -149 else (e : Int) - 150

/-- The value of an FP32T element; a non-finite HI with T not 0 is non-finite (R223, R224). -/
def F32T.val (x : F32T) : FVal :=
  match f32.decode x.hi with
  | .fin n m e => (FVal.fin n m e).add (.fin (x.t < 0) x.t.natAbs (ulpExp x.hi - 16))
  | v => if x.t = 0 then v else .nan

/-- Nearest binary32 to a finite value with ties toward +∞, bounded to the finite range (R224, R225). -/
def hiTiesUp (neg : Bool) (m : Nat) (e : Int) : Nat :=
  let emin : Int := -126
  let u := if m = 0 then -149 else max (lead m e) emin - 23
  let (q, up) := if u ≤ e then (m <<< (e - u).toNat, false) else
    let s := (u - e).toNat
    let rem := m % 2 ^ s
    (m >>> s, if neg then decide (2 ^ s < 2 * rem) else decide (2 ^ s ≤ 2 * rem))
  let q := if up then q + 1 else q
  let k := if m = 0 then 0 else ((u + 149).toNat) * 2 ^ 23 + q
  let k := min k f32.maxMag
  if k = 0 then 0 else f32.signBit neg + k

/-- Conversion into FP32T (R225, R244): element and class. -/
def narrowT (rm : Rnd) : FVal → F32T × Cls
  | .nan => (⟨f32.nanBits, 0⟩, .nonfinite)
  | .inf neg => (⟨f32.signBit neg + f32.maxMag + 1, 0⟩, .nonfinite)
  | .fin neg m e =>
    if m = 0 then (⟨0, 0⟩, .zero)
    else
      let top : F32T := ⟨f32.maxMag, 2 ^ 15 - 1⟩
      let v := FVal.fin neg m e
      if (F32T.val top).lt v.abs then
        (⟨f32.signBit neg + f32.maxMag, if neg then -(2 ^ 15 - 1) else 2 ^ 15 - 1⟩, .ovf)
      else
        let tailOf (hi : Nat) : Int :=
          match v.add (f32.decode hi).neg with
          | .fin n dm de => (roundInt rm n dm (de + 16 - ulpExp hi)).1
          | _ => 0
        let hi := hiTiesUp neg m e
        let r0 : F32T := ⟨hi, tailOf hi⟩
        -- the rounded value may be a tie, or lie nearer to a neighbour of `hi`
        let h2 := match r0.val with
          | .fin n2 m2 e2 => hiTiesUp n2 m2 e2
          | _ => hi
        let r : F32T := if h2 = hi then r0
          else ⟨h2, match r0.val.add (f32.decode h2).neg with
            | .fin n dm de => (roundInt .rne n dm (de + 16 - ulpExp h2)).1
            | _ => 0⟩
        let r : F32T := if r.hi = 0x80000000 ∧ r.t = 0 then ⟨0, 0⟩ else r
        (r, if (r.hi >>> 23) % 256 = 0 then .sub else .normal)

/-! ### Philox-4×32-10 (R247; the round constants are the standard's, log entry 7) -/

structure Philox where
  c0 : Nat
  c1 : Nat
  c2 : Nat
  c3 : Nat
  k0 : Nat
  k1 : Nat
  deriving DecidableEq, Repr

def Philox.round (p : Philox) : Philox :=
  let a := 0xD2511F53 * p.c0
  let b := 0xCD9E8D57 * p.c2
  { c0 := (b / 2 ^ 32) ^^^ p.c1 ^^^ p.k0
    c1 := b % 2 ^ 32
    c2 := (a / 2 ^ 32) ^^^ p.c3 ^^^ p.k1
    c3 := a % 2 ^ 32
    k0 := (p.k0 + 0x9E3779B9) % 2 ^ 32
    k1 := (p.k1 + 0xBB67AE85) % 2 ^ 32 }

def Philox.rounds : Nat → Philox → Philox
  | 0, p => p
  | n + 1, p => Philox.rounds n p.round

/-- The key of a narrowing point (R247, R249): job seed, TENSOR_ID, point code, SUB, step number. -/
structure SrKey where
  seed : Nat
  tensor : Nat
  point : Nat
  sub : Nat
  step : Nat
  deriving DecidableEq, Repr

/-- Counter and key words of R247 for group `g`. -/
def SrKey.block (k : SrKey) (g : Nat) : Philox :=
  { k0 := k.seed % 2 ^ 32, k1 := (k.seed / 2 ^ 32) % 2 ^ 32
    c0 := g % 2 ^ 32
    c1 := (g / 2 ^ 32) % 2 ^ 14 + (k.sub % 2 ^ 16) * 2 ^ 16
    c2 := k.tensor % 2 ^ 24 + (k.point % 256) * 2 ^ 24
    c3 := k.step % 2 ^ 32 }

/-- The random word of element `e` (R247). -/
def SrKey.word (k : SrKey) (e : Nat) : Nat :=
  let e := e % 2 ^ 48
  let p := Philox.rounds 10 (k.block (e / 4))
  if e % 4 = 0 then p.c0 else if e % 4 = 1 then p.c1 else if e % 4 = 2 then p.c2 else p.c3

/-- Rounding of element `e` at a narrowing point: RNE, or SR under the key. -/
def SrKey.rnd (k : SrKey) (sr : Bool) (e : Nat) : Rnd := if sr then .sr (k.word e) else .rne

/-! ### binary32 operations of the spout, sluices and collectives (R289): RNE, overflow to infinity -/

abbrev F32 := BitVec 32

def F32.val (x : F32) : FVal := f32.decode x.toNat
def F32.ofVal (v : FVal) : F32 := BitVec.ofNat 32 (f32.ieeeRound v)
def F32.add (a b : F32) : F32 := F32.ofVal ((F32.val a).add (F32.val b))
def F32.sub (a b : F32) : F32 := F32.ofVal ((F32.val a).add (F32.val b).neg)
def F32.mul (a b : F32) : F32 := F32.ofVal ((F32.val a).mul (F32.val b))
def F32.div (a b : F32) : F32 := F32.ofVal ((F32.val a).div (F32.val b))
def F32.sqrt (a : F32) : F32 := F32.ofVal (F32.val a).sqrt

/-- Maximum under IEEE order with the NaN rule "any NaN gives NaN"; −0 is below +0. -/
def FVal.maxNan (a b : FVal) : FVal :=
  match a, b with
  | .nan, _ => .nan
  | _, .nan => .nan
  | _, _ => if a.lt b then b else if b.lt a then a else if a.isNeg then b else a

def FVal.minNan (a b : FVal) : FVal :=
  match a, b with
  | .nan, _ => .nan
  | _, .nan => .nan
  | _, _ => if a.lt b then a else if b.lt a then b else if a.isNeg then a else b

end Sys2Proof.Machine
end

