-- ==== Sys2Proof/Machine/Items.lean ====
section
/-!
DEFINITION. Basin items as words of 128 bytes (R171 to R180, R307): their fields, format codes (R173, R264) and the
checks of an item that need no state (R125, R171, R174, R175, R177, R178, R253, R263, R265, R309, R315, R320).
-/

namespace Sys2Proof.Machine

/-! ### Format codes -/

/-- Floating format of a code of R173 or R264, MX elements included. -/
def fmtOf : Nat → Option Fmt
  | 0x01 => some bf16
  | 0x02 => some f16
  | 0x08 => some e4m3
  | 0x09 => some e5m2
  | 0x0A => some e4m3
  | 0x0B => some e5m2
  | 0x0C => some e3m2
  | 0x0D => some e2m3
  | 0x10 => some e2m1
  | 0x18 => some f32
  | _ => none

def isMx (c : Nat) : Bool := (0x0A ≤ c && c ≤ 0x0D) || c == 0x10
def isIntFmt (c : Nat) : Bool := c == 0x0E || c == 0x11
def isMxf6 (c : Nat) : Bool := c == 0x0C || c == 0x0D

/-- Elements in 16 bits: 1, 2 or 4 by width class; 0 for a code of no basin operand (R173). -/
def epw (c : Nat) : Nat :=
  if c == 1 || c == 2 then 1
  else if 0x08 ≤ c && c ≤ 0x0E then 2
  else if c == 0x10 || c == 0x11 then 4
  else 0

/-- Value of an operand element (R210, R215). -/
def elemVal (c n : Nat) : FVal :=
  if c == 0x0E then ofIntF (toSigned 8 n)
  else if c == 0x11 then ofIntF (toSigned 4 n)
  else match fmtOf c with
    | some f => f.decode (n % 2 ^ f.width)
    | none => .nan

/-- Element `i` of a packed vector of bytes in format `c` (R181, R309). -/
def elemAt (c : Nat) (bs : List Byte) (i : Nat) : Nat :=
  if epw c = 1 then leAt bs (2 * i) 2
  else if epw c = 2 then leAt bs i 1
  else (leAt bs (i / 2) 1 >>> (4 * (i % 2))) % 16

/-- Exponent of an MX block scale, or none for a NaN block (R216). -/
def e8m0 (x : Nat) : Option Int := if x = 0xFF then none else some ((x : Int) - 127)

/-! ### PASS fields (R174) -/

def kindOf (b : List Byte) : Nat := wfld b 0 3 0
def pMode (b : List Byte) : Nat := wfld b 0 7 4
def pFmtRow (b : List Byte) : Nat := wfld b 0 12 8
def pFmtBank (b : List Byte) : Nat := wfld b 0 17 13
def pFmtAux (b : List Byte) : Nat := wfld b 0 22 18
def pSwap (b : List Byte) : Bool := wfld b 0 23 23 == 1
def pCont (b : List Byte) : Bool := wfld b 0 24 24 == 1
def pDrain (b : List Byte) : Bool := wfld b 0 25 25 == 1
def pSparse (b : List Byte) : Nat := wfld b 0 27 26
def pZskip (b : List Byte) : Bool := wfld b 0 28 28 == 1
def pMask (b : List Byte) : Bool := wfld b 0 29 29 == 1
def pKtEn (b : List Byte) : Bool := wfld b 0 30 30 == 1
def pKtLast (b : List Byte) : Bool := wfld b 0 31 31 == 1
def pSchedLen (b : List Byte) : Nat := wfld b 0 36 32 + 1
def pCompEn (b : List Byte) : Bool := wfld b 0 37 37 == 1
def pCompCtr (b : List Byte) : Nat := wfld b 0 39 38
def pNotify (b : List Byte) : Bool := wfld b 0 40 40 == 1
def pRows (b : List Byte) : Nat := wfld b 1 39 0
def pProfile (b : List Byte) : Nat := wfld b 1 45 40
def pKtGroup (b : List Byte) : Nat := wfld b 1 47 46
def pKtIndex (b : List Byte) : Nat := wfld b 2 23 0
def pThresh (b : List Byte) : Nat := wfld b 2 39 24
def pTensor (b : List Byte) : Nat := wfld b 2 63 40
def pDestKind (b : List Byte) : Nat := wfld b 3 1 0
def pDestN (b : List Byte) : Nat := wfld b 3 7 2 + 1
def pDestChan (b : List Byte) : Nat := wfld b 3 15 8
def pDestJet (b : List Byte) : Nat := wfld b 3 27 16
def pNotifyJet (b : List Byte) : Nat := wfld b 3 39 28
def pNotifyChan (b : List Byte) : Nat := wfld b 3 47 40
def pDestAddr (b : List Byte) : Nat := wfld b 4 47 0
def pDestStride (b : List Byte) : Nat := wfld b 5 31 0
def pDrainStride (b : List Byte) : Nat := wfld b 5 63 32
def pPartial (b : List Byte) : Nat := wfld b 6 47 0
def pDrainKind (b : List Byte) : Nat := wfld b 6 49 48
def pAux (b : List Byte) : Nat := wfld b 7 47 0
def pSched (b : List Byte) (e : Nat) : Nat := leAt b (64 + 2 * e) 2 % 4096

def isOuter (m : Nat) : Bool := m == 2
def isFused (m : Nat) : Bool := m == 3
def isAccum (m : Nat) : Bool := m == 2 || m == 3
def isDist (m : Nat) : Bool := 4 ≤ m && m ≤ 9
/-- A pass whose rows enter along k: row-reduce, distance and comparison. -/
def isRowEntry (m : Nat) : Bool := m == 0 || isDist m

/-- Entry class (before R148): 0 ROW, 1 COLUMN, 2 DUAL. -/
def entryClass (m : Nat) : Nat := if isAccum m then 2 else if m == 1 then 1 else 0

/-- An integer pass (R221): its row operand is an integer format. -/
def pIsInt (b : List Byte) : Bool := isIntFmt (pFmtRow b)

/-- Terms that one feed unit holds (R186). -/
def termsPerUnit (b : List Byte) : Nat := if isAccum (pMode b) && epw (pFmtRow b) == 4 then 2 else 1

/-- 1 KiB parts of a feed unit (R186). -/
def partsPerUnit (b : List Byte) : Nat :=
  if isAccum (pMode b) && epw (pFmtRow b) == 1 then 2 else if pSparse b ≠ 0 then 2 else 1

/-- Row ports that a part uses (R186). -/
def portsPerPart (b : List Byte) : Nat := if pMode b == 1 then 16 / epw (pFmtRow b) else 16

/-- Feed units of a pass (R186). -/
def unitsOf (b : List Byte) : Nat := pRows b / termsPerUnit b

/-- The combinations of operand formats (R125). -/
def fmtPairOk (mode r k : Nat) : Bool :=
  let same := epw r == epw k && epw r ≠ 0
  let ints := isIntFmt r == isIntFmt k && (!isIntFmt r || r == k)
  let allowed (c : Nat) : Bool :=
    if mode == 0 || mode == 1 then epw c ≠ 0
    else if mode == 2 || mode == 3 || mode == 8 || mode == 9 then
      c == 1 || c == 2 || c == 8 || c == 9 || c == 0x0E || c == 0x11
    else c == 1 || c == 2 || c == 8 || c == 9 || c == 0x0E
  same && ints && allowed r && allowed k

/-- Output elements of a row, at the spout (R127, R128, R130, R135, R137). -/
def outElems (b : List Byte) (unpacked : Bool) : Nat :=
  if pSparse b ≠ 0 then 1024
  else if pMode b == 1 && !unpacked then 512 * epw (pFmtBank b)
  else 512

/-- The checks of R125, R126, R171, R174, R175, R315, R320 on the words of a PASS item. -/
def passWordsOk (b : List Byte) : Bool :=
  let m := pMode b
  m ≤ 9
  && onlyBits (leAt b 0 8) 0x1FFFFFFFFFF && onlyBits (leAt b 8 8) 0xFFFFFFFFFFFF
  && onlyBits (leAt b 24 8) 0xFFFFFFFFFFFF && onlyBits (leAt b 32 8) 0xFFFFFFFFFFFF
  && onlyBits (leAt b 48 8) 0x3FFFFFFFFFFFF && onlyBits (leAt b 56 8) 0xFFFFFFFFFFFF
  && allBelow 32 (fun e => leAt b (64 + 2 * e) 2 < (if e < pSchedLen b then 4096 else 1))
  && (if isOuter m then fmtPairOk m (pFmtRow b) (pFmtAux b) && pFmtBank b == 0
      else if isFused m then fmtPairOk m (pFmtRow b) (pFmtBank b) && fmtPairOk m (pFmtRow b) (pFmtAux b)
      else fmtPairOk m (pFmtRow b) (pFmtBank b) && pFmtAux b == 0)
  && (isAccum m || (!pCont b && !pDrain b))
  && pSparse b ≠ 3 && (pSparse b == 0 || m == 0)
  && (pSparse b == 0 || (!isMx (pFmtBank b) && !(pSparse b == 2 && epw (pFmtBank b) == 4)))
  && !(pKtEn b && isAccum m)
  && (pKtEn b || (!pKtLast b && pKtGroup b == 0 && pKtIndex b == 0))
  && !((pSwap b || pMask b) && pSparse b ≠ 0)
  && !(pMask b && isMx (pFmtRow b))
  && (!pMask b || m == 0 || m == 1)
  && !(pDestKind b ≠ 3 && (isOuter m || (pKtEn b && !pKtLast b)))
  && (if pDrain b then pDrainKind b == 1 || pDrainKind b == 2 else pDrainKind b == 0)
  && !(epw (pFmtRow b) == 4 && isAccum m && pRows b % 2 == 1)
  && pRows b ≠ 0
  && (m == 9 || pThresh b == 0)
  && (m ≠ 9 || epw (pFmtRow b) == 1 || pThresh b < (if epw (pFmtRow b) == 2 then 256 else 16))
  && !(pZskip b && (isDist m || isMx (pFmtRow b)))
  && pDestStride b % 64 == 0 && pDrainStride b % 64 == 0

/-- A pass produces output rows of its own (R175, R294): every mode but OUTER. -/
def hasOutRows (b : List Byte) : Bool := !isOuter (pMode b)

/-! ### LOAD fields (R177) -/

def lFmt (b : List Byte) : Nat := wfld b 0 8 4
def lUnpacked (b : List Byte) : Bool := wfld b 0 9 9 == 1
def lSparse (b : List Byte) : Nat := wfld b 0 11 10
def lAxis (b : List Byte) : Nat := wfld b 0 12 12
def lCompEn (b : List Byte) : Bool := wfld b 0 13 13 == 1
def lCompCtr (b : List Byte) : Nat := wfld b 0 15 14
def lCrcCheck (b : List Byte) : Bool := wfld b 0 16 16 == 1
def lSrc (b : List Byte) : Nat := wfld b 1 47 0
def lStride (b : List Byte) : Nat := wfld b 2 31 0
def lExpCrc (b : List Byte) : Nat := wfld b 2 63 32
def lMeta (b : List Byte) : Nat := wfld b 3 47 0
def lScale (b : List Byte) : Nat := wfld b 4 47 0

/-- The record a LOAD leaves with its bank (R176). -/
def loadRec (b : List Byte) : BankRec :=
  { fmt := lFmt b, unpacked := lUnpacked b, sparse := lSparse b, mxAxis := lAxis b }

/-- The checks of R177 and R178 on the words of a LOAD item. -/
def loadWordsOk (b : List Byte) : Bool :=
  epw (lFmt b) ≠ 0
  && onlyBits (leAt b 0 8) 0x1FFFF && onlyBits (leAt b 8 8) 0xFFFFFFFFFFFF
  && onlyBits (leAt b 24 8) 0xFFFFFFFFFFFF && onlyBits (leAt b 32 8) 0xFFFFFFFFFFFF
  && leAt b 40 88 == 0
  && lSparse b ≠ 3 && (isMx (lFmt b) || lAxis b == 0)
  && !(lSparse b ≠ 0 && isMx (lFmt b)) && !(lSparse b == 2 && epw (lFmt b) == 4)
  && !(lUnpacked b && lSparse b ≠ 0)
  && lSrc b % 128 == 0 && lStride b % 128 == 0 && 1024 ≤ lStride b
  && (lSparse b ≠ 0 || lMeta b == 0) && (isMx (lFmt b) || lScale b == 0)

/-- Bytes of the MX bank scale array: 0 for other formats (R184). -/
def scaleBytes (fmt : Nat) : Nat := if isMx fmt then 8192 * epw fmt else 0

/-! ### MARK fields (R180, R307, R391) -/

def kOp (b : List Byte) : Nat := wfld b 0 7 4
def kCompEn (b : List Byte) : Bool := wfld b 0 13 13 == 1
def kCompCtr (b : List Byte) : Nat := wfld b 0 15 14
def kNotify (b : List Byte) : Bool := wfld b 0 16 16 == 1
def kBasin (b : List Byte) : Nat := wfld b 1 2 0
def kCounter (b : List Byte) : Nat := wfld b 1 4 3
def kTarget (b : List Byte) : Nat := wfld b 1 63 32

/-! ### Spout profile fields (R263) -/

def fOutFmt (f : List Byte) : Nat := wfld f 0 4 0
def fSr (f : List Byte) : Bool := wfld f 0 5 5 == 1
def fConform (f : List Byte) : Bool := wfld f 0 6 6 == 1
def fNfExempt (f : List Byte) : Bool := wfld f 0 7 7 == 1
def fKind (f : List Byte) : Nat := wfld f 0 9 8
def fRecipe (f : List Byte) : Nat := wfld f 0 11 10
def fReplayStep (f : List Byte) : Bool := wfld f 0 12 12 == 1
def fHeadroom (f : List Byte) : Nat := wfld f 0 15 13
def fWindow (f : List Byte) : Nat := wfld f 0 21 16
def fGroup (f : List Byte) : Bool := wfld f 0 22 22 == 1
def fTransposed (f : List Byte) : Bool := wfld f 0 23 23 == 1
def fFunc (f : List Byte) : Nat := wfld f 0 29 24
def fWeirMode (f : List Byte) : Nat := wfld f 0 31 30
def fLevels (f : List Byte) : Nat := wfld f 0 35 32 + 1
def fSideFmt (f : List Byte) : Nat := wfld f 0 40 36
def fSideOut (f : List Byte) : Bool := wfld f 0 41 41 == 1
def fScaleRec (f : List Byte) : Nat := wfld f 1 15 0
def fInA (f : List Byte) : Nat := wfld f 1 31 16
def fInB (f : List Byte) : Nat := wfld f 1 47 32
def fInAdj (f : List Byte) : Int := toSigned 8 (wfld f 1 55 48)
def fFixedOff (f : List Byte) : Int := toSigned 8 (wfld f 1 63 56)
def fNKey (f : List Byte) : Nat := wfld f 2 31 0
def fLayer (f : List Byte) : Nat := wfld f 2 43 32
def fInitSigma (f : List Byte) : Nat := wfld f 2 51 44
def fPosBase (f : List Byte) : Nat := wfld f 3 47 0
def fPart (f : List Byte) : Nat := wfld f 3 63 48
def fSide (f : List Byte) : Nat := wfld f 4 47 0
def fSideStride (f : List Byte) : Nat := wfld f 5 31 0
def fSideOutStride (f : List Byte) : Nat := wfld f 5 63 32
def fSideOutAddr (f : List Byte) : Nat := wfld f 6 47 0
def fParam (f : List Byte) : Nat := wfld f 7 47 0
def fRowstat (f : List Byte) : Nat := wfld f 8 47 0
def fColseg (f : List Byte) : Nat := wfld f 9 8 0
def fColCount (f : List Byte) : Nat := wfld f 9 17 9 + 1
def fScalar (f : List Byte) : Nat := wfld f 10 31 0
def fEpsilon (f : List Byte) : Nat := wfld f 10 63 32
def fScaleOut (f : List Byte) : Nat := wfld f 11 47 0
def fScaleOutStride (f : List Byte) : Nat := wfld f 12 31 0
def fTopkK (f : List Byte) : Nat := wfld f 12 37 32 + 1
def fTopkEn (f : List Byte) : Bool := wfld f 12 38 38 == 1
def fSmallest (f : List Byte) : Bool := wfld f 12 39 39 == 1
def fTopkOnly (f : List Byte) : Bool := wfld f 12 40 40 == 1
def fTopkSoft (f : List Byte) : Bool := wfld f 12 41 41 == 1
def fTopkFmt (f : List Byte) : Nat := wfld f 12 46 42
def fTopkAddr (f : List Byte) : Nat := wfld f 13 47 0
def fTopkStride (f : List Byte) : Nat := wfld f 14 31 0

def isElementwise (c : Nat) : Bool := (1 ≤ c && c ≤ 6) || (0x11 ≤ c && c ≤ 0x16)
def isGatedFwd (c : Nat) : Bool := 8 ≤ c && c ≤ 0xB
def isGatedBwd (c : Nat) : Bool := 0x18 ≤ c && c ≤ 0x1B
def isKernel (c : Nat) : Bool := c == 0x20 || c == 0x21 || c == 0x22 || (0x28 ≤ c && c ≤ 0x2B)
def isBackward (c : Nat) : Bool := 0x11 ≤ c && c ≤ 0x1B
/-- The function reads a side stream (R290, R291, R297). -/
def readsSide (c : Nat) : Bool := isBackward c || (0x28 ≤ c && c ≤ 0x2B)
def funcOk (c : Nat) : Bool := c == 0 || isElementwise c || isGatedFwd c || isGatedBwd c || isKernel c

/-- Formats that OUT_FMT may name (R173, R264). -/
def outFmtOk (c : Nat) : Bool := c == 0 || epw c ≠ 0 || (0x18 ≤ c && c ≤ 0x1B)

/-- Bits of one delivered element (R269). -/
def outBits (c : Nat) : Nat :=
  if c == 0x18 || c == 0x19 then 32
  else if c == 0x1A then 64
  else if c == 0x1B then 40
  else if c == 0x1F then 1
  else if epw c == 1 then 16 else if epw c == 2 then 8 else 4

/-- e_max of R275; 0 for a format the table does not list. -/
def eMaxOf (c : Nat) : Nat :=
  if c == 0x18 || c == 0x01 then 127
  else if c == 0x02 || c == 0x09 then 15
  else if c == 0x08 then 8
  else if c == 0x1A then 62
  else if c == 0x19 then 30
  else if c == 0x0E then 6
  else if c == 0x11 then 2
  else 0

/-- The profile joins a column group (R294): a row kernel, or top-k over more than one segment. -/
def inColGroup (f : List Byte) : Bool := isKernel (fFunc f) || (fTopkEn f && 1 < fColCount f)

/-- Reserved encodings of a profile (R263, R264). -/
def profileWordsOk (f : List Byte) : Bool :=
  outFmtOk (fOutFmt f) && fRecipe f ≠ 3 && fWeirMode f ≠ 3 && funcOk (fFunc f)
  && onlyBits (leAt f 0 8) 0x3FFFFFFFFFF
  && onlyBits (leAt f 16 8) 0xFFFFFFFFFFFFF && onlyBits (leAt f 32 8) 0xFFFFFFFFFFFF
  && onlyBits (leAt f 48 8) 0xFFFFFFFFFFFF && onlyBits (leAt f 56 8) 0xFFFFFFFFFFFF
  && onlyBits (leAt f 64 8) 0xFFFFFFFFFFFF && onlyBits (leAt f 72 8) 0x3FFFF
  && onlyBits (leAt f 88 8) 0xFFFFFFFFFFFF && onlyBits (leAt f 96 8) 0x7FFFFFFFFFFF
  && onlyBits (leAt f 104 8) 0xFFFFFFFFFFFF && onlyBits (leAt f 112 8) 0xFFFFFFFF && leAt f 120 8 == 0
  && (fSideFmt f == 0 || epw (fSideFmt f) ≠ 0 || fSideFmt f == 0x18
      || (fSideFmt f == 0x1F && (fFunc f == 1 || fFunc f == 0x11)))
  && ((!fTopkEn f && fTopkFmt f == 0) || fTopkFmt f == 0x18 || fTopkFmt f == 0x01)
  && !(fSideFmt f == 0 && (readsSide (fFunc f) || (fSideOut f && (isElementwise (fFunc f) || isGatedFwd (fFunc f)))))
  && fSideStride f % 64 == 0 && fSideOutStride f % 64 == 0 && fTopkStride f % 64 == 0

/-- Delivered bytes of a row of `n` elements, whole lines (R269). -/
def rowBytes (fmt n : Nat) : Nat := ceilDiv (ceilDiv (n * outBits fmt) 8) 64 * 64

/-- Delivered elements of a row of `n` elements at the spout: gated functions change the count (R291). -/
def funcElems (fn n : Nat) : Nat := if isGatedFwd fn then n / 2 else if isGatedBwd fn then 2 * n else n

/-- The conditions of R265, R289, R291, R294, R304, R324 (as far as words alone decide), R360 and R253 on a PASS with
its profile; `conform` says whether the configuration enables conformance mode; `n` is the row length. -/
def passProfileOk (b f : List Byte) (conform : Bool) (n : Nat) : Bool :=
  let isInt := pIsInt b
  let weir := (pDestKind b == 2) || (pDrain b && pDrainKind b == 2)
  let o := fOutFmt f
  profileWordsOk f
  && (o ≠ 0 || fTopkOnly f)
  && (o ≠ 0x1B || (fRecipe f == 0 && fFunc f == 0 && (!weir || fWeirMode f == 2)))
  && !(fWeirMode f == 2 && o ≠ 0x1B)
  && (!weir || o == 0x18 || o == 0x01 || o == 0x19 || o == 0x1A || o == 0x1B)
  && (!isMx o || fRecipe f == 0)
  && (fRecipe f ≠ 2 || (!isMx o && o ≠ 0x1B))
  && (fScaleRec f ≠ 0xFFFF || o == 0x1B || fTopkOnly f)
  && (!isInt || (fFunc f == 0 && (o == 0 || isIntFmt o || o == 0x19 || o == 0x1A || o == 0x1B)))
  && (isInt || o == 0 || (fmtOf o).isSome || o == 0x1B)
  && !(fTransposed f && (isKernel (fFunc f) || isGatedFwd (fFunc f) || isGatedBwd (fFunc f) || fTopkEn f))
  && !((isGatedFwd (fFunc f) || isGatedBwd (fFunc f)) && n ≠ 512)
  && !(fTopkSoft f && fSmallest f)
  && !(inColGroup f && !isKernel (fFunc f) && (isGatedFwd (fFunc f) || isGatedBwd (fFunc f)))
  && (!inColGroup f || (n == 512 && pRows b ≤ 512 && pRows b * (512 * fColCount f) ≤ 262144
        && fColseg f < fColCount f
        && (fColseg f + 1 < fColCount f || pDestKind b ≠ 3 || (pKtEn b && !pKtLast b))
        && (fColseg f + 1 == fColCount f || pDestKind b == 3)))
  && !(weir && pDestKind b == 2 && fWeirMode f == 2
        && pDestStride b < 64 * ceilDiv (if inColGroup f then 512 * fColCount f else n) 12)
  && !(pDrain b && pDrainKind b == 2 && fWeirMode f == 2 && pDrainStride b < 64 * 43)
  && !(pKtEn b && !pKtLast b && fLevels f < 16 && 2 ^ fLevels f - 1 ≤ pKtIndex b)
  && !(pDestKind b == 3 && hasOutRows b && !(pKtEn b && !pKtLast b)
        && !(inColGroup f && fColseg f + 1 < fColCount f))
  && (!fConform f ||
      (conform && (pMode b ≤ 2) && pSparse b == 0 && !pMask b && !pZskip b
        && (((pFmtRow b == 1 || pFmtRow b == 2) && (o == 0x18 || o == 0x01 || o == 0x02))
            || (pFmtRow b == 0x0E && o == 0x19))
        && !fSr f && fRecipe f == 1 && fFunc f == 0 && !fTopkEn f))

/-! ### Route entry fields (R327, R328) -/

def rtEnable (r : List Byte) : Bool := wfld r 0 0 0 == 1
def rtPolicy (r : List Byte) : Nat := wfld r 0 2 1
def rtDepth (r : List Byte) : Nat := wfld r 0 8 3 + 1
def rtExperts (r : List Byte) : Nat := wfld r 0 20 9 + 1
def rtCap (r : List Byte) : Nat := wfld r 0 36 21
def rtStats (r : List Byte) : Nat := wfld r 1 47 0
def rtDefer (r : List Byte) : Nat := wfld r 2 47 0
def rtDeferMax (r : List Byte) : Nat := wfld r 3 31 0

/-- The conditions of R328. -/
def routeOk (f r : List Byte) : Bool :=
  !rtEnable r ||
  (fTopkEn f && !fSmallest f && fTopkFmt f == 0x18 && fTopkK f ≤ rtDepth r
    && rtPolicy r ≠ 3 && rtCap r ≠ 0 && rtStats r % 64 == 0
    && onlyBits (leAt r 0 8) 0x1FFFFFFFFF && onlyBits (leAt r 8 8) 0xFFFFFFFFFFFF
    && onlyBits (leAt r 16 8) 0xFFFFFFFFFFFF && onlyBits (leAt r 24 8) 0xFFFFFFFF && leAt r 32 32 == 0
    && (if rtPolicy r == 2 then rtDefer r ≠ 0 && rtDeferMax r ≠ 0 else rtDefer r == 0 && rtDeferMax r == 0))

end Sys2Proof.Machine
end

