-- ==== Sys2Proof/Machine/BasinMath.lean ====
section
/-!
DEFINITION. The arithmetic of the array (chapter 04 and R228 to R233, R254, R309 to R324 of spec/): leaves, trees,
stacks, drains and marker rows, as functions of a bank, a pass item and a row.
-/

namespace Sys2Proof.Machine

/-- Rows of reduced index k that a tile holds (R122, R127). -/
def tileHeight (r : BankRec) : Nat := if r.unpacked then 512 else 512 * epw r.fmt

/-- Encoding of bank element (k, j) (R122, R181). -/
def bankElem (k : Bank) (i j : Nat) : Nat :=
  let n := epw k.rcd.fmt
  if k.rcd.unpacked then
    (SMap.get 0 k.words (i * 512 + j)).toNat % 2 ^ (16 / n)
  else
    ((SMap.get 0 k.words (i / n * 512 + j)).toNat >>> (16 / n * (i % n))) % 2 ^ (16 / n)

/-- MX scale of bank element (k, j): 2^0 for other formats, none for a NaN block (R184, R216). -/
def bankScale (k : Bank) (i j : Nat) : Option Int :=
  if !isMx k.rcd.fmt then some 0
  else if k.rcd.mxAxis = 0 then e8m0 (SMap.get 0 k.scales (512 * (i / 32) + j)).toNat
  else e8m0 (SMap.get 0 k.scales (16 * i + j / 32)).toNat

/-- A value under a block scale (R216). -/
def scaled (v : FVal) : Option Int → FVal
  | none => .nan
  | some e => v.scale e

def bankVal (k : Bank) (i j : Nat) : FVal := scaled (elemVal k.rcd.fmt (bankElem k i j)) (bankScale k i j)

/-- Position p of compressed element c in column j, from the tag of its cell (R182). -/
def tagPos (k : Bank) (c j : Nat) : Nat :=
  let n := epw k.rcd.fmt
  let t := (SMap.get 0 k.tags (c / n * 512 + j)).toNat
  let w := if k.rcd.sparse = 1 then 2 else 3
  (t >>> (w * (c % n))) % 2 ^ w

/-- Dense index of compressed element c (R182, R310). -/
def denseIndex (k : Bank) (c j : Nat) : Nat :=
  if k.rcd.sparse = 1 then 4 * (c / 2) + tagPos k c j else 8 * (c / 4) + tagPos k c j

/-- A tag row is malformed: positions not ascending within a group, or an unused bit set (R183). -/
def tagsOk (k : Bank) : Bool :=
  let n := epw k.rcd.fmt
  let w := if k.rcd.sparse = 1 then 2 else 3
  let g := if k.rcd.sparse = 1 then 2 else 4
  allBelow 262144 (fun ij => (SMap.get 0 k.tags ij).toNat < 2 ^ (w * n))
  && allBelow 512 (fun j => allBelow (512 * n) fun c =>
      c % g == 0 || tagPos k (c - 1) j < tagPos k c j)

/-- An MXFP6 element whose two high bits are not 0 (R126). -/
def mxf6Bad (n : Nat) : Bool := 64 ≤ n

/-- A LOAD of an MXFP6 tile with a malformed element (R126). -/
def bankMalformed (k : Bank) : Bool :=
  isMxf6 k.rcd.fmt && !allBelow (tileHeight k.rcd * 512) (fun x => !mxf6Bad (bankElem k (x / 512) (x % 512)))

/-- Exact value in the form of a pass: INT40 for integer operands, W40 otherwise (R228, R221). -/
def toSum (isInt : Bool) (v : FVal) : W40 :=
  if isInt then (match v with
    | .fin n m e => toInt40 (roundInt .rne n m e).1
    | _ => 0)
  else toW40 v

/-- The leaf of a mode for row element q and stored w, as encodings and values (R137, R138, R228, R229). -/
def leaf (mode : Nat) (isInt : Bool) (thr : FVal) (qe we : Nat) (q w : FVal) : W40 :=
  let diff := q.add w.neg
  let d40 := toSum isInt diff
  let count (c : Bool) : W40 := toSum isInt (ofIntF (b2n c))
  if mode = 4 then
    (if isInt then toSum true diff.abs else toW40 (w40Val d40).abs)
  else if mode = 5 then
    (if isInt then toSum true (diff.mul diff) else toW40 ((w40Val d40).mul (w40Val d40)))
  else if mode = 6 ∨ mode = 7 then toSum isInt (q.add w)
  else if mode = 8 then count (qe == we)
  else if mode = 9 then
    count (match diff, thr with
      | .nan, _ => false
      | _, .nan => false
      | d, t => !(t.lt d.abs))
  else toSum isInt (q.mul w)

/-- The operation of a tree node (R137, R220, R221). -/
def nodeOp (mode : Nat) (isInt : Bool) (a b : W40) : W40 :=
  if mode = 6 then (if isInt then (if a.toInt < b.toInt then b else a) else toW40 ((w40Val a).maxNan (w40Val b)))
  else if mode = 7 then (if isInt then (if b.toInt < a.toInt then b else a) else toW40 ((w40Val a).minNan (w40Val b)))
  else sumAdd isInt a b

/-- Balanced tree over leaves in index order (R121, R123, R230). -/
def tree (mode : Nat) (isInt : Bool) (ls : List W40) : W40 := pairwise (nodeOp mode isInt) 0 ls

/-- Row scales of row r: the exponent of block m, from a reader of memory bytes (R185). -/
def rowScale (rd : Nat → Option Nat) (b : List Byte) (r m : Nat) : Option Int :=
  if !isMx (pFmtRow b) then some 0
  else
    let n := if pMode b == 1 then 16 else 16 * epw (pFmtRow b)
    match rd (pAux b + n * r + m) with
    | some x => e8m0 x
    | none => none

/-- Value of element d of row r. -/
def rowVal (rd : Nat → Option Nat) (b : List Byte) (data : List Byte) (r d : Nat) : FVal :=
  scaled (elemVal (pFmtRow b) (elemAt (pFmtRow b) data d)) (rowScale rd b r (d / 32))

/-- Output element j of a row-reduce, distance or comparison row (R127, R137). -/
def columnOut (rd : Nat → Option Nat) (b : List Byte) (k : Bank) (data : List Byte) (r j : Nat) : W40 :=
  let thr := elemVal (pFmtRow b) (pThresh b)
  tree (pMode b) (pIsInt b) ((List.range (tileHeight k.rcd)).map fun i =>
    leaf (pMode b) (pIsInt b) thr (elemAt (pFmtRow b) data i) (bankElem k i j)
      (rowVal rd b data r i) (bankVal k i j))

/-- Output element j of one bank of a sparse row (R185, R216, R310, R311). -/
def sparseOut (rd : Nat → Option Nat) (b : List Byte) (k : Bank) (data : List Byte) (r j : Nat) : W40 :=
  tree 0 (pIsInt b) ((List.range (tileHeight k.rcd)).map fun c =>
    toSum (pIsInt b) ((rowVal rd b data r (denseIndex k c j)).mul (bankVal k c j)))

/-- Output element i of a column-reduce, or dx element i of a fused backward term (R128, R135). -/
def rowOut (rd : Nat → Option Nat) (b : List Byte) (k : Bank) (data : List Byte) (r i : Nat) : W40 :=
  tree 1 (pIsInt b) ((List.range 512).map fun j =>
    toSum (pIsInt b) ((rowVal rd b data r j).mul (bankVal k i j)))

/-- rn32 of R254: binary32 by RNE, overflow to infinity. -/
def rn32 (v : FVal) : FVal := F32.val (F32.ofVal v)

/-- Conformance state of one output element: the running s and t of R254 and the terms taken. An INT8 sum keeps its
value modulo 2^32 in s. -/
structure Conf where
  s : Nat
  t : Nat
  n : Nat
  deriving DecidableEq, Repr

/-- One term of R254. -/
def Conf.term (isInt : Bool) (c : Conf) (p : FVal) : Conf :=
  if isInt then
    { c with s := ofSigned 32 ((c.s : Int) + (match p with
        | .fin n m e => (roundInt .rne n m e).1
        | _ => 0)), n := c.n + 1 }
  else
    let i := c.n % 128
    let p32 := f32.ieeeRound p
    let t := if i = 0 then p32 else f32.ieeeRound ((f32.decode c.t).add (f32.decode p32))
    if i = 127 then
      { s := if c.n < 128 then t else f32.ieeeRound ((f32.decode c.s).add (f32.decode t)), t := 0, n := c.n + 1 }
    else { c with t := t, n := c.n + 1 }

/-- The result of R254 after the last term: a partial last chunk is added. -/
def Conf.result (isInt : Bool) (c : Conf) : Nat :=
  if isInt || c.n % 128 = 0 then c.s
  else if c.n < 128 then c.t else f32.ieeeRound ((f32.decode c.s).add (f32.decode c.t))

/-- Products of a conformance reduction for output element o, in ascending reduced index (R254). -/
def confTerms (b : List Byte) (k : Bank) (data : List Byte) (o : Nat) : List FVal :=
  if pMode b == 1 then
    (List.range 512).map fun j => (elemVal (pFmtRow b) (elemAt (pFmtRow b) data j)).mul (bankVal k o j)
  else
    (List.range (tileHeight k.rcd)).map fun i => (elemVal (pFmtRow b) (elemAt (pFmtRow b) data i)).mul (bankVal k i o)

/-- The mask entry of pass row r (R321); rows without MASK are wholly enabled. -/
def maskEntry (rd : Nat → Option Nat) (b : List Byte) (r : Nat) : Nat :=
  if !pMask b then 0xFFFF
  else
    let a := pAux b + 4 * (r / 32)
    let g (i : Nat) := (rd (a + i)).getD 0
    g 0 + 256 * g 1 + 65536 * g 2 + 16777216 * g 3

def maskBad (e : Nat) : Bool := 0x20000 ≤ e
def maskFill (e : Nat) : W40 := if e.testBit 16 then BitVec.ofNat 40 (w40.signBit true + w40.maxMag + 1) else 0
def maskOn (e j : Nat) : Bool := e.testBit (j / 32)

/-- Malformed MXFP6 elements among those that meet a cell (R126, R127); a sparse row has twice the elements (R130). -/
def rowMalformed (b : List Byte) (k : Bank) (data : List Byte) : Bool :=
  isMxf6 (pFmtRow b) &&
    !allBelow (if pMode b == 1 then 512 else if pSparse b ≠ 0 then 2 * tileHeight k.rcd else tileHeight k.rcd) fun d => !mxf6Bad (elemAt (pFmtRow b) data d)

/-- The output row that the array gives for a fed row, before masked elements are filled (R127 to R130, R135, R137). -/
def arrayOut (rd : Nat → Option Nat) (b : List Byte) (front back : Bank) (data : List Byte) (r : Nat) : List W40 :=
  if isOuter (pMode b) then []
  else if pSparse b ≠ 0 then
    (List.range 512).map (sparseOut rd b front data r) ++ (List.range 512).map (sparseOut rd b back data r)
  else if isFused (pMode b) then (List.range 512).map (rowOut rd b front data r)
  else if pMode b == 1 then (List.range (tileHeight front.rcd)).map (rowOut rd b front data r)
  else (List.range 512).map (columnOut rd b front data r)

/-- Masked elements take the FILL value (R322). -/
def applyMask (e : Nat) (row : List W40) : List W40 :=
  row.mapIdx fun j v => if maskOn e j then v else maskFill e

/-- The non-finite flag of output element o of a reduction over a tile (R316). -/
def nonFiniteFlag (k : Bank) (rowReduce : Bool) (o : Nat) : Bool :=
  if rowReduce then !allBelow (tileHeight k.rcd) (fun i => (bankVal k i o).isFin)
  else !allBelow 512 (fun j => (bankVal k o j).isFin)

/-- One output row of a zero-row marker (R316); the dx rows of a fused backward pass take the flags of the column trees (R317; log
entry 128). -/
def markerRow (b : List Byte) (front back : Bank) : List W40 :=
  let mk (k : Bank) (rr : Bool) (o : Nat) : W40 := if nonFiniteFlag k rr o then toW40 .nan else 0
  if isOuter (pMode b) then []
  else if pSparse b ≠ 0 then (List.range 512).map (mk front true) ++ (List.range 512).map (mk back true)
  else if isFused (pMode b) then (List.range 512).map (mk front true)
  else if pMode b == 1 then (List.range (tileHeight front.rcd)).map (mk front false)
  else (List.range 512).map (mk front true)

/-! ### Accumulation (R131, R132, R134) -/

/-- Accumulator and stack of one cell. -/
structure Cell where
  acc : W40
  lv : List W40
  deriving DecidableEq, Repr

/-- An arriving value climbs the stack from level `l`; `n` terms have been entered before it (R131). -/
def stackPush (isInt : Bool) : Nat → Nat → Nat → W40 → Cell → Cell
  | 0, _, _, v, c => { c with acc := sumAdd isInt c.acc v }
  | f + 1, l, n, v, c =>
    if n.testBit l then
      stackPush isInt f (l + 1) n (sumAdd isInt (c.lv.getD l 0) v) { c with lv := c.lv.set l 0 }
    else { c with lv := c.lv.set l v }

/-- One term entered into a cell (R131, R132). -/
def cellTerm (isInt : Bool) (n : Nat) (p : W40) (c : Cell) : Cell := stackPush isInt 16 0 n p c

/-- The fold of R134: occupied levels from the lowest up, the lower level on the left, then the accumulator. -/
def cellFold (isInt : Bool) (n : Nat) (c : Cell) : W40 :=
  let f := (List.range 16).foldl (fun (a : Option W40) l =>
    if n.testBit l then
      (match a with
        | none => some (c.lv.getD l 0)
        | some v => some (sumAdd isInt v (c.lv.getD l 0)))
    else a) none
  match f with
  | none => c.acc
  | some v => if n < 65536 then v else sumAdd isInt v c.acc

/-- A conformance term in a cell: the accumulator holds s and level 0 holds t, in binary32 (R254). -/
def cellConf (isInt : Bool) (n : Nat) (p : FVal) (c : Cell) : Cell :=
  let r := Conf.term isInt ⟨c.acc.toNat, (c.lv.getD 0 0).toNat, n⟩ p
  { acc := BitVec.ofNat 40 r.s, lv := c.lv.set 0 (BitVec.ofNat 40 r.t) }

/-- The cell at index i × 512 + j. -/
def getCell (acc stack : SMap W40) (x : Nat) : Cell :=
  { acc := SMap.get 0 acc x, lv := (List.range 16).map fun l => SMap.get 0 stack (l * 262144 + x) }

/-- Applies `f` to every cell of the basin. -/
def mapCells (k : Basin) (f : Nat → Cell → Cell) : Basin :=
  let cell (x : Nat) : Cell := f x (getCell k.acc k.stack x)
  { k with acc := tabulate 0 262144 fun x => (cell x).acc
           stack := tabulate 0 (16 * 262144) fun y => ((cell (y % 262144)).lv.getD (y / 262144) 0) }

/-- The a and b vectors of a term: each half of its bytes (R186). -/
def termVec (c : Nat) (data : List Byte) (second : Bool) (i : Nat) : FVal :=
  let n := 1024 / epw c
  elemVal c (elemAt c (slice data (if second then n else 0) n) i)

/-- Product of cell (i, j) for a term: aᵢ·bⱼ, or xᵢ·dyⱼ in fused backward (R131, R135). -/
def termProduct (b data : List Byte) (i j : Nat) : FVal :=
  if isFused (pMode b) then
    (termVec (pFmtAux b) data true i).mul (termVec (pFmtRow b) data false j)
  else (termVec (pFmtRow b) data false i).mul (termVec (pFmtAux b) data true j)

/-- A term enters every cell (R131); `conf` selects R254. -/
def enterTerm (conf : Bool) (b data : List Byte) (k : Basin) : Basin :=
  let k' := mapCells k fun x c =>
    let p := termProduct b data (x / 512) (x % 512)
    if conf then cellConf (pIsInt b) k.terms p c else cellTerm (pIsInt b) k.terms (toSum (pIsInt b) p) c
  { k' with terms := k.terms + 1 }

/-- A marker advances every stack by `n` zero terms (R317). -/
def enterZeros (b : List Byte) : Nat → Basin → Basin
  | 0, k => k
  | n + 1, k =>
    let k' := mapCells k fun _ c => cellTerm (pIsInt b) k.terms 0 c
    enterZeros b n { k' with terms := k.terms + 1 }

/-- CLEAR of R132, and the state after a drain (R134). -/
def clearAccum (k : Basin) : Basin := { k with acc := [], stack := [], terms := 0 }

/-- Drain row i: the folded results of cells (i, 0) to (i, 511) (R134). -/
def drainRow (conf : Bool) (b : List Byte) (k : Basin) (i : Nat) : List W40 :=
  (List.range 512).map fun j =>
    let c := getCell k.acc k.stack (i * 512 + j)
    if conf then BitVec.ofNat 40 (Conf.result (pIsInt b) ⟨c.acc.toNat, (c.lv.getD 0 0).toNat, k.terms⟩)
    else cellFold (pIsInt b) k.terms c

/-! ### K-tiling stack of the spout (R266 to R268) -/

/-- Slots per output row (R266). -/
def ktSlots (levels : Nat) : Nat := if levels < 16 then levels else 17

/-- Combines member t's partial with the stack of an element, slots by level and slot 16 the sequential sum. -/
def ktPush (mode : Nat) (isInt : Bool) : Nat → Nat → Nat → W40 → List W40 → List W40
  | 0, _, t, v, st =>
    -- a carry leaves level 15: slot 16 (R268)
    st.set 16 (if t < 65536 then v else nodeOp mode isInt (st.getD 16 0) v)
  | f + 1, l, t, v, st =>
    if (t % 65536).testBit l then
      ktPush mode isInt f (l + 1) t (nodeOp mode isInt (st.getD l 0) v) st
    else st.set l v

/-- The combined row element that the last member delivers: its own partial entered, then the fold (R268). -/
def ktFinish (mode : Nat) (isInt : Bool) (t : Nat) (v : W40) (st : List W40) : W40 :=
  let st' := ktPush mode isInt 16 0 t v st
  let n := t + 1
  let f := (List.range 16).foldl (fun (a : Option W40) l =>
    if (n % 65536).testBit l then
      (match a with
        | none => some (st'.getD l 0)
        | some x => some (nodeOp mode isInt (st'.getD l 0) x))
    else a) none
  match f with
  | none => st'.getD 16 0
  | some x => if n < 65536 then x else nodeOp mode isInt (st'.getD 16 0) x

end Sys2Proof.Machine
end

