-- ==== Sys2Proof/Machine/SpoutMath.lean ====
section
/-!
DEFINITION. The spout's functions of values (chapter 07 and R326 to R333 of spec/): scaling, fused functions, row
kernels, conversion, MX blocks, top-k and routing.
-/

namespace Sys2Proof.Machine

/-- A value in the drain path: W40, INT40 or binary32 (R258). -/
inductive SVal where
  | w (x : W40)
  | i (x : W40)
  | f (x : F32)
  deriving DecidableEq, Repr

def SVal.val : SVal → FVal
  | .w x => w40Val x
  | .i x => ofIntF x.toInt
  | .f x => F32.val x

/-- Multiplication by 2^k in stages 2 and 5 (R261); a saturated INT40 value stays saturated (log entry 19). -/
def SVal.scale (k : Int) (rm : Rnd) : SVal → SVal
  | .w x => .w (toW40 ((w40Val x).scale k))
  | .f x => .f (F32.ofVal ((F32.val x).scale k))
  | .i x =>
    if int40Sat x then .i x
    else if 0 ≤ k then .i (toInt40 (x.toInt * (2 ^ k.toNat : Nat)))
    else .i (toInt40 (roundInt rm (x.toInt < 0) x.toInt.natAbs k).1)

/-- A decimal constant n / d of a formula, in binary32 by RNE. -/
def f32c (n d : Nat) : F32 := F32.ofVal ((FVal.fin false n 0).div (.fin false d 0))
def f32zero : F32 := 0
def f32one : F32 := f32c 1 1
def f32half : F32 := f32c 1 2
def f32nan : F32 := 0x7FC00000

/-- A NaN argument of exp, erf, tanh or s gives the canonical NaN, and infinities give the limits (R289). -/
def limitFn (fn : F32 → F32) (lo hi : F32) (x : F32) : F32 :=
  match F32.val x with
  | .nan => f32nan
  | .inf n => if n then lo else hi
  | _ => fn x

/-! The exact functions, to more than 100 bits, in fixed point with 160 fraction bits. -/

/-- ln 2. -/
def ln2Fix : Int := 0xb17217f7d1cf79abc9e3b39803f2f6af40f34326

/-- A finite value in fixed point; magnitudes of 256 and more count as 256. -/
def toFix (m : Nat) (e : Int) : Nat :=
  Nat.min (256 <<< 160) (if 0 ≤ e + 160 then m <<< (Nat.min (e + 160).toNat 512) else m >>> (-(e + 160)).toNat)

/-- 1 + r/n (1 + r/(n+1) (…)), to `k` terms. -/
def expSeries (r : Int) : Nat → Nat → Int
  | 0, _ => 2 ^ 160
  | k + 1, n => 2 ^ 160 + r * expSeries r k (n + 1) / (n * 2 ^ 160)

/-- exp of a fixed-point number: k and n with the value n × 2^(k − 160). -/
def expFix (x : Int) : Int × Nat :=
  let k := x / ln2Fix
  (k, (expSeries (x - k * ln2Fix) 48 1).toNat)

def expRef (neg : Bool) (m : Nat) (e : Int) : FVal :=
  let x := toFix m e
  let r := expFix (if neg then -(x : Int) else x)
  .fin false r.2 (r.1 - 160)

/-- tanh: by its series below 2^-20, else (exp 2x − 1) / (exp 2x + 1). -/
def tanhRef (neg : Bool) (m : Nat) (e : Int) : FVal :=
  if m = 0 then .fin neg 0 0
  else if lead m e < -20 then
    .fin neg (((3 * m * 2 ^ (-2 * e).toNat - m ^ 3) <<< 64) / 3) (3 * e - 64)
  else
    let r := expFix (2 * Nat.min (toFix m e) (64 <<< 160) : Nat)
    let t := r.2 <<< r.1.toNat
    .fin neg (((t - 2 ^ 160) <<< 160) / (t + 2 ^ 160)) (-160)

/-- The logistic function, from exp of −|x|. -/
def logisticRef (neg : Bool) (m : Nat) (e : Int) : FVal :=
  let r := expFix (-(toFix m e : Int))
  let one := 2 ^ (160 - r.1).toNat
  .fin false (((if neg then r.2 else one) <<< 600) / (one + r.2)) (-600)

/-- A binary32 result is within 2 ulp of an exact one; an infinity counts as the value after the largest finite one (R289). -/
def near2 (ref : FVal) (c : F32) : Bool :=
  let u : Int := match ref.expo with
    | some a => max (a - 23) (-149)
    | none => -149
  match F32.val c with
  | .nan => false
  | .inf n => !(FVal.fin false 2 u).lt ((FVal.fin n 1 128).add ref.neg).abs
  | v => !(FVal.fin false 2 u).lt (v.add ref.neg).abs

/-- The algorithm's result where it has the accuracy that R289 asks for, else the nearest binary32 value (log entry 4). -/
def accurate (fn : F32 → F32) (ref : Bool → Nat → Int → FVal) (x : F32) : F32 :=
  match F32.val x with
  | .fin n m e => if near2 (ref n m e) (fn x) then fn x else F32.ofVal (ref n m e)
  | _ => fn x

def expS (x : F32) : F32 := limitFn (accurate Config.expF expRef) 0 0x7F800000 x
def tanhS (x : F32) : F32 := limitFn (accurate Config.tanhF tanhRef) 0xBF800000 0x3F800000 x
def logisticS (x : F32) : F32 := limitFn (accurate Config.logisticF logisticRef) 0 0x3F800000 x
def cdfS (x : F32) : F32 := limitFn Config.normalCdfF 0 0x3F800000 x
def pdfS (x : F32) : F32 := limitFn Config.normalPdfF 0 0 x

def F32.max0 (a : F32) : F32 := F32.ofVal ((F32.val a).maxNan (.fin false 0 0))

/-- c = √(2/π) of R290, to the nearest binary32 value (log entry 4). -/
def geluC : F32 := 0x3F4C422A

/-- The cubic argument c(a + 0.044715 a³) of GELU_TANH (R290). -/
def geluArg (a : F32) : F32 :=
  F32.mul geluC (F32.add a (F32.mul (f32c 44715 1000000) (F32.mul (F32.mul a a) a)))

/-- f of R290 by its base code 1 to 6. -/
def actF (c : Nat) (a : F32) : F32 :=
  if c = 1 then F32.max0 a
  else if c = 2 then F32.mul a (cdfS a)
  else if c = 3 then F32.mul (F32.mul f32half a) (F32.add f32one (tanhS (geluArg a)))
  else if c = 4 then F32.mul a (logisticS a)
  else if c = 5 then tanhS a
  else logisticS a

/-- f′ of R290 by its base code 1 to 6. -/
def actD (c : Nat) (z : F32) : F32 :=
  if c = 1 then
    (match F32.val z with
      | .nan => f32nan
      | v => if (FVal.fin false 0 0).lt v then f32one else f32zero)
  else if c = 2 then F32.add (cdfS z) (F32.mul z (pdfS z))
  else if c = 3 then
    let t := tanhS (geluArg z)
    F32.add (F32.mul f32half (F32.add f32one t))
      (F32.mul (F32.mul (F32.mul (F32.mul f32half z) (F32.sub f32one (F32.mul t t))) geluC)
        (F32.add f32one (F32.mul (f32c 134145 1000000) (F32.mul z z))))
  else if c = 4 then
    let s := logisticS z
    F32.mul s (F32.add f32one (F32.mul z (F32.sub f32one s)))
  else if c = 5 then let t := tanhS z; F32.sub f32one (F32.mul t t)
  else let s := logisticS z; F32.mul s (F32.sub f32one s)

/-- Base function of a gated code (R291): RELU, GELU_ERF, GELU_TANH, SILU. -/
def gateBase (c : Nat) : Nat := c % 8 + 1

/-- Side value of element j in format `c` of a side row (R290, R292). -/
def sideVal (c : Nat) (row : List Byte) (j : Nat) : F32 :=
  if c = 0x1F then (if (leAt row (j / 8) 1).testBit (j % 8) then f32one else f32zero)
  else if c = 0x18 then BitVec.ofNat 32 (leAt row (4 * j) 4)
  else F32.ofVal (elemVal c (elemAt c row j))

/-- Bytes of a side row of n elements (R292). -/
def sideBytes (c n : Nat) : Nat := ceilDiv (n * outBits c) 8

/-- Stage 3, elementwise and gated functions (R289 to R291). -/
def applyFunc (fn sideFmt : Nat) (side : List Byte) (row : List SVal) : List SVal :=
  if fn = 0 then row
  else
    let a := row.map fun v => F32.ofVal v.val
    let at' (j : Nat) : F32 := a.getD j 0
    if isGatedFwd fn then
      (List.range (a.length / 2)).map fun j => .f (F32.mul (actF (gateBase fn) (at' (2 * j))) (at' (2 * j + 1)))
    else if isGatedBwd fn then
      (List.range (2 * a.length)).map fun x =>
        let j := x / 2
        let g := sideVal sideFmt side (2 * j)
        let v := sideVal sideFmt side (2 * j + 1)
        if x % 2 = 0 then .f (F32.mul (F32.mul (at' j) v) (actD (gateBase fn) g))
        else .f (F32.mul (at' j) (actF (gateBase fn) g))
    else if fn < 0x10 then a.map fun x => .f (actF fn x)
    else if fn < 0x20 then a.mapIdx fun j x => .f (F32.mul x (actD (fn - 0x10) (sideVal sideFmt side j)))
    else a.map .f

/-! ### Row kernels (R296 to R299) -/

/-- A statistic: the canonical pairwise sum in W40 (R296). -/
def statP (l : List F32) : W40 := pairwise w40Add 0 (l.map fun x => toW40 (F32.val x))

def statF (x : W40) : F32 := F32.ofVal (w40Val x)

/-- Largest of a list; any NaN gives NaN. -/
def maxF (l : List F32) : F32 := F32.ofVal (l.foldl (fun m x => m.maxNan (F32.val x)) (.inf true))

/-- Segments of 512 elements. -/
def segs (l : List F32) (c : Nat) : List (List F32) := (List.range c).map fun k => (l.drop (512 * k)).take 512

/-- The running (M, S) of R298. -/
def softRun (l : List (List F32)) : F32 × W40 :=
  match l.map (fun z => let m := maxF z; (m, statP (z.map fun x => expS (F32.sub x m)))) with
  | [] => (0, 0)
  | p :: ps => ps.foldl (fun (m, s) (mc, sc) =>
      let mn := maxF [m, mc]
      let mul (x : W40) (y : F32) : W40 := toW40 ((w40Val x).mul (F32.val y))
      (mn, w40Add (mul s (expS (F32.sub m mn))) (mul sc (expS (F32.sub mc mn))))) p

/-- What a row kernel takes besides the row: side values, γ, β, τ, ε, and the stored μ and ρ. -/
structure KIn where
  side : List F32
  gamma : List F32
  beta : List F32
  tau : F32
  eps : F32
  mu : F32
  rho : F32
  deriving DecidableEq, Repr

/-- What it gives: output row, (μ, ρ) that a forward normalization writes, and the pairs of R299. -/
structure KOut where
  row : List F32
  stat : Option (F32 × F32)
  pairs : List (F32 × F32)
  deriving DecidableEq, Repr

/-- A row kernel over the whole row of D elements (R297, R298). -/
def rowKernel (fn : Nat) (a : List F32) (k : KIn) : KOut :=
  let d := a.length
  let inv := f32c 1 d
  let mulD (x : W40) : F32 := F32.mul (statF x) inv
  let g (l : List F32) (i : Nat) : F32 := l.getD i 0
  if fn = 0x20 then
    let mu := mulD (statP a)
    let vr := F32.max0 (F32.sub (mulD (statP (a.map fun x => F32.mul x x))) (F32.mul mu mu))
    let rho := F32.div f32one (F32.sqrt (F32.add vr k.eps))
    ⟨a.mapIdx fun i x => F32.add (F32.mul (F32.mul (F32.sub x mu) rho) (g k.gamma i)) (g k.beta i), some (mu, rho), []⟩
  else if fn = 0x21 then
    let rho := F32.div f32one (F32.sqrt (F32.add (mulD (statP (a.map fun x => F32.mul x x))) k.eps))
    ⟨a.mapIdx fun i x => F32.mul (F32.mul x rho) (g k.gamma i), some (0, rho), []⟩
  else if fn = 0x22 then
    let z := a.map fun x => F32.mul k.tau x
    let (m, s) := softRun (segs z (d / 512))
    ⟨z.map fun x => F32.div (expS (F32.sub x m)) (statF s), none, []⟩
  else if fn = 0x28 ∨ fn = 0x29 then
    let xh := (List.range d).map fun i =>
      if fn = 0x28 then F32.mul (F32.sub (g k.side i) k.mu) k.rho else F32.mul (g k.side i) k.rho
    let gg := (List.range d).map fun i => F32.mul (g k.gamma i) (g a i)
    let s1 := mulD (statP gg)
    let s3 := mulD (statP ((List.range d).map fun i => F32.mul (g gg i) (g xh i)))
    ⟨(List.range d).map fun i =>
        if fn = 0x28 then F32.mul k.rho (F32.sub (F32.sub (g gg i) s1) (F32.mul (g xh i) s3))
        else F32.mul k.rho (F32.sub (g gg i) (F32.mul (g xh i) s3)),
      none, (List.range d).map fun i => (F32.mul (g a i) (g xh i), g a i)⟩
  else if fn = 0x2A then
    let s3 := statF (statP ((List.range d).map fun i => F32.mul (g a i) (g k.side i)))
    ⟨(List.range d).map fun i => F32.mul k.tau (F32.mul (g k.side i) (F32.sub (g a i) s3)), none, []⟩
  else
    let s1 := statF (statP a)
    ⟨(List.range d).map fun i => F32.mul k.tau (F32.sub (g a i) (F32.mul (g k.side i) s1)), none, []⟩

/-! ### Conversion (R244, R245, R270) -/

/-- Conversion of a drain-path value into OUT_FMT (R244, R265): encoding and class. A W40 or INT40 exact-partial is
written unchanged and not classed. -/
def narrowTo (fmt : Nat) (rm : Rnd) (v : SVal) : Nat × Option Cls :=
  if fmt = 0x1B then
    (match v with
      | .w x => x.toNat
      | .i x => x.toNat
      | .f x => (toW40 (F32.val x)).toNat, none)
  else
    let ints (w : Nat) : Nat × Option Cls :=
      match v with
      | .i x => let (n, c) := narrowInt40 w x; (n, some c)
      | _ => let (n, c) := narrowI w rm v.val; (n, some c)
    if fmt = 0x19 then ints 32
    else if fmt = 0x1A then ints 64
    else if fmt = 0x0E then ints 8
    else if fmt = 0x11 then ints 4
    else match fmtOf fmt with
      | some f => let (n, c) := narrowF f rm v.val; (n, some c)
      | none => (0, none)

/-- e_elem of R270. -/
def eElem (fmt : Nat) : Int :=
  if fmt = 0x0A then 8 else if fmt = 0x0B then 15 else if fmt = 0x0C then 4 else 2

/-- One MX block of 32 values from element index `i0`: scale byte and converted elements (R270). -/
def mxBlock (fmt : Nat) (rm : Nat → Rnd) (i0 : Nat) (vs : List SVal) : Nat × List (Nat × Option Cls) :=
  if vs.any (fun v => !v.val.isFin) then (0xFF, vs.map fun _ => (0, some .nonfinite))
  else
    let x : Int := match (vs.filterMap fun v => v.val.expo).max? with
      | none => 0
      | some a => clampI 0 254 (a - eElem fmt + 127)
    (x.toNat, vs.mapIdx fun i v =>
      match fmtOf fmt with
      | some f => let (n, c) := narrowF f (rm (i0 + i)) (v.val.scale (127 - x)); (n, some c)
      | none => (0, none))

/-- Converts a row: encodings, classes and MX scale bytes. `rm j` is the rounding of element j. -/
def convertRow (fmt : Nat) (rm : Nat → Rnd) (row : List SVal) : List (Nat × Option Cls) × List Byte :=
  if isMx fmt then
    let bl := (List.range (ceilDiv row.length 32)).map fun b =>
      mxBlock fmt rm (32 * b) ((row.drop (32 * b)).take 32)
    (bl.flatMap fun p => p.2, bl.map fun p => BitVec.ofNat 8 p.1)
  else (row.mapIdx fun j v => narrowTo fmt (rm j) v, [])

/-- XA-640 conversion of R255: s × 2^f in binary32, then the output format by RNE with overflow to infinity. -/
def convertConf (fmt : Nat) (isInt : Bool) (f : Int) (s : Nat) : Nat × Option Cls :=
  if isInt then
    let z := toSigned 32 s
    (ofSigned 32 z, some (if z = 0 then .zero else .normal))
  else
    let v := F32.val (F32.ofVal ((f32.decode (s % 2 ^ 32)).scale f))
    match fmtOf fmt with
    | some g =>
      let n := g.ieeeRound v
      let c : Cls := match g.decode n with
        | .nan => .nonfinite
        | .inf _ => .nonfinite
        | .fin _ m _ => if m = 0 then (if v.isZero then .zero else .unf)
            else if n % 2 ^ (g.width - 1) < 2 ^ g.fb then .sub else .normal
      (n, some c)
    | none => (0, none)

/-- Bytes of a delivered row (R269), before the padding to whole lines. -/
def packRow (fmt : Nat) (es : List Nat) : List Byte :=
  if outBits fmt = 4 then
    (List.range (ceilDiv es.length 2)).map fun i => BitVec.ofNat 8 (es.getD (2 * i) 0 + 16 * es.getD (2 * i + 1) 0)
  else if outBits fmt = 1 then
    (List.range (ceilDiv es.length 8)).map fun i =>
      BitVec.ofNat 8 ((List.range 8).foldl (fun a b => a + 2 ^ b * (es.getD (8 * i + b) 0 % 2)) 0)
  else es.flatMap fun e => toLe (outBits fmt / 8) e

/-- Adds the classes of a row to six counts (R245). -/
def addClasses (cnt : List Nat) (cs : List (Option Cls)) : List Nat :=
  cs.foldl (fun a c => match c with
    | none => a
    | some k => updAt a k.idx (· + 1)) cnt

/-- The canonical index of element j of output row r (R248). -/
def elemIndex (prof : List Byte) (r j : Nat) : Nat :=
  if fTransposed prof then fPosBase prof + j * fNKey prof + r else fPosBase prof + r * fNKey prof + j

/-! ### Top-k (R301 to R304) -/

/-- A ranked candidate: position and stage-3 value. -/
structure Ranked where
  pos : Nat
  val : SVal
  deriving DecidableEq, Repr

/-- The total order of R301: `a` comes before `b`. -/
def ranksBefore (smallest : Bool) (a b : Ranked) : Bool :=
  match a.val.val, b.val.val with
  | .nan, .nan => a.pos < b.pos
  | .nan, _ => false
  | _, .nan => true
  | x, y => if (if smallest then x.lt y else y.lt x) then true
            else if (if smallest then y.lt x else x.lt y) then false
            else a.pos < b.pos

/-- Inserts a candidate into a list in rank order. -/
def rankInsert (smallest : Bool) (c : Ranked) : List Ranked → List Ranked
  | [] => [c]
  | d :: l => if ranksBefore smallest c d then c :: d :: l else d :: rankInsert smallest c l

/-- Merges candidates into a held set of at most `n` (R301, R302). -/
def rankMerge (smallest : Bool) (n : Nat) (held cs : List Ranked) : List Ranked :=
  (cs.foldl (fun l c => rankInsert smallest c l) held).take n

/-- The weights of R304 over the values of the first k ranks. -/
def softWeights (vs : List F32) : List F32 :=
  if vs.any (fun x => F32.val x == .nan) then vs.map fun _ => f32nan
  else
    let v0 := vs.headD 0
    let es := vs.map fun x => expS (F32.sub x v0)
    let sum := match es with
      | [] => f32zero
      | e :: l => l.foldl F32.add e
    es.map fun e => F32.div e sum

/-- Values of a top-k record as binary32 or W40/INT40, weights when TOPK_SOFTMAX is set (R303, R304). -/
def topkValues (prof : List Byte) (set : List Ranked) : List SVal :=
  let top := set.take (fTopkK prof)
  if fTopkSoft prof then (softWeights (top.map fun c => F32.ofVal c.val.val)).map .f else top.map (·.val)

/-- A top-k record (R303) with the classes of its values. -/
def topkRecord (prof : List Byte) (set : List Ranked) : List Byte × List (Option Cls) :=
  let vs := (topkValues prof set).map fun v => narrowTo (fTopkFmt prof) .rne v
  let ps := (set.take (fTopkK prof)).map (·.pos)
  (padTo 64 (packRow (fTopkFmt prof) (vs.map (·.1)) ++ ps.flatMap (toLe 4)), vs.map (·.2))

/-! ### Routing (R329 to R333) -/

/-- Running state of a routed pass: admission counters, deferrals and the totals of the statistics block. -/
structure Routing where
  adm : SMap Nat := []
  nd : Nat := 0
  rows : Nat := 0
  admitted : Nat := 0
  spilled : Nat := 0
  dropped : Nat := 0
  deferred : Nat := 0
  deferFull : Nat := 0
  deriving DecidableEq, Repr

/-- One choice of a dispatch record: expert, status, slot (R331). -/
structure Choice where
  expert : Nat
  status : Nat
  slot : Nat
  deriving DecidableEq, Repr

def rkElig (experts : Nat) (c : Ranked) : Bool := c.val.val.isFin && c.pos < experts

/-- A rank is eligible and its expert has room. -/
def rkOpen (rt : List Byte) (g : Routing) (c : Ranked) : Bool :=
  rkElig (rtExperts rt) c && SMap.get 0 g.adm c.pos < rtCap rt

/-- One rank of R329: the next spill candidate, the routing state, choices so far and deferrals (row, rank, expert). -/
def routeRank (rt : List Byte) (row : Nat) (set : List Ranked)
    (a : Nat × Routing × List Choice × List (Nat × Nat × Nat × Nat)) (t : Nat) :
    Nat × Routing × List Choice × List (Nat × Nat × Nat × Nat) :=
  let (nxt, g, cs, ds) := a
  match set[t]? with
  | none => (nxt, { g with dropped := g.dropped + 1 }, cs ++ [⟨0, 2, 0⟩], ds)
  | some c =>
    let put (g : Routing) (e : Nat) : Routing := { g with adm := SMap.upd 0 g.adm e (· + 1) }
    if rkOpen rt g c then
      let slot := SMap.get 0 g.adm c.pos
      (nxt, { put g c.pos with admitted := g.admitted + 1 }, cs ++ [⟨c.pos, 0, slot⟩], ds)
    else
      let spill := if rtPolicy rt = 1 then
          ((List.range (rtDepth rt)).filter fun i => nxt ≤ i).find? fun i =>
            (set[i]?).any fun x => rkOpen rt g x
        else none
      match spill with
      | some i =>
        let e := (set[i]?).elim 0 (·.pos)
        (i + 1, { put g e with spilled := g.spilled + 1 }, cs ++ [⟨e, 1, SMap.get 0 g.adm e⟩], ds)
      | none =>
        let nxt' := if rtPolicy rt = 1 then rtDepth rt else nxt
        let el := rkElig (rtExperts rt) c
        if rtPolicy rt = 2 ∧ el ∧ g.nd < rtDeferMax rt then
          (nxt', { g with nd := g.nd + 1, deferred := g.deferred + 1 }, cs ++ [⟨c.pos, 3, 0⟩], ds ++ [(g.nd, row, t, c.pos)])
        else
          (nxt', { g with dropped := g.dropped + 1,
                          deferFull := g.deferFull + b2n (rtPolicy rt == 2 && el) },
            cs ++ [⟨c.pos, 2, 0⟩], ds)

/-- Routes one row (R329): the new state, the choices, and the deferrals. -/
def routeRow (rt prof : List Byte) (row : Nat) (set : List Ranked) (g : Routing) :
    Routing × List Choice × List (Nat × Nat × Nat × Nat) :=
  let k := fTopkK prof
  let (_, g', cs, ds) := (List.range k).foldl (routeRank rt row set) (k, { g with rows := g.rows + 1 }, [], [])
  (g', cs, ds)

/-- The dispatch record of a row (R331). -/
def dispatchRecord (prof : List Byte) (set : List Ranked) (cs : List Choice) : List Byte × List (Option Cls) :=
  let ws := (topkValues prof set).map fun v => narrowTo 0x18 .rne v
  let es := cs.mapIdx fun t c =>
    (if c.status = 2 then 0 else (ws.getD t (0, none)).1) + 2 ^ 32 * (c.expert % 4096) + 2 ^ 44 * c.status + 2 ^ 48 * c.slot
  (padTo 64 (es.flatMap (toLe 8)), ws.map (·.2))

/-- An entry of the defer list (R332). -/
def deferEntry (row rank expert : Nat) : List Byte := toLe 8 (row + 2 ^ 40 * rank + 2 ^ 46 * expert)

/-- The statistics block (R333). -/
def statsBlock (rt : List Byte) (g : Routing) : List Byte :=
  [g.rows, g.admitted, g.spilled, g.dropped, g.deferred, g.deferFull].flatMap (toLe 8)
  ++ List.replicate 16 0 ++ (List.range (rtExperts rt)).flatMap fun e => toLe 2 (SMap.get 0 g.adm e)

/-! ### Scale records (R275 to R280) -/

/-- Length of a record, and its fields as offset and bytes (R276). -/
def recLen : Nat := 2176
def recFlags (r : List Byte) : Nat := leAt r 0 2
def recS16 (r : List Byte) (o : Nat) : Int := toSigned 16 (leAt r o 2)
def recCount (r : List Byte) (i : Nat) : Nat := leAt r (16 + 8 * i) 8
def putLe (r : List Byte) (o n v : Nat) : List Byte := patch r o (toLe n v)

/-- A RUNNING σ by R275 from the history, correction, headroom and e_max of a record. -/
def recSigma (r : List Byte) : Int :=
  let win := 16 * (leAt r 6 1 + 1)
  let fill := min (leAt r 12 2) win
  let head := leAt r 10 2
  let hist := (List.range fill).filterMap fun k =>
    let x := leAt r (128 + 2 * ((head + win - 1 - k) % win)) 2
    if x = 0x8000 then none else some (toSigned 16 x)
  let vals := if (recFlags r).testBit 2 then recS16 r 8 :: hist else hist
  match vals.max? with
  | none => toSigned 8 (leAt r 4 1)
  | some a => clampI (-126) 127 ((leAt r 123 1 : Int) - a - leAt r 5 1 - (if (recFlags r).testBit 1 then 4 else 0))

/-- The initialized record of R277. -/
def recInit (prof : List Byte) (warmSteps : Nat) : List Byte :=
  let running := fRecipe prof == 2
  let flags := if running then 1 + 2 + 16 else 1
  toLe 2 flags ++ toLe 2 (if running then warmSteps else 0)
  ++ toLe 1 (if running then fInitSigma prof else 0) ++ toLe 1 (fHeadroom prof) ++ toLe 1 (fWindow prof)
  ++ toLe 1 (fKind prof) ++ toLe 2 0 ++ toLe 2 0 ++ toLe 2 0 ++ toLe 2 0x8000
  ++ List.replicate 48 0 ++ List.replicate 48 0 ++ toLe 8 0
  ++ toLe 2 (fLayer prof) ++ toLe 1 (fInitSigma prof) ++ toLe 1 (eMaxOf (fOutFmt prof)) ++ toLe 4 0
  ++ List.replicate 2048 0

/-- The comparison of R278. -/
def recMatches (prof r : List Byte) : Bool :=
  (recFlags r).testBit 4 == (fRecipe prof == 2) && leAt r 5 1 == fHeadroom prof && leAt r 6 1 == fWindow prof
  && leAt r 7 1 == fKind prof && leAt r 120 2 == fLayer prof && leAt r 122 1 == fInitSigma prof
  && (!(recFlags r).testBit 4 || leAt r 123 1 == eMaxOf (fOutFmt prof))

/-- The merge of R279: pending amax by maximum, counts by addition, TOUCHED set. -/
def recMerge (r : List Byte) (amax : Option Int) (cnt : List Nat) : List Byte :=
  let old := leAt r 14 2
  let r := match amax with
    | none => r
    | some a => if old = 0x8000 ∨ toSigned 16 old < a then putLe r 14 2 (ofSigned 16 a) else r
  let r := (List.range 6).foldl (fun r i => putLe r (16 + 8 * i) 8 ((recCount r i + cnt.getD i 0) % 2 ^ 64)) r
  putLe r 0 2 (recFlags r ||| 8)

/-- The three outcomes of a commit (R19, R280). -/
inductive StepOutcome where
  | committed | poisoned | mismatch
  deriving DecidableEq, Repr

/-- Clears the pending fields (R280). -/
def recClear (r : List Byte) : List Byte :=
  let r := putLe r 14 2 0x8000
  putLe (patch r 16 (List.replicate 48 0)) 0 2 (recFlags r &&& 0xFFF7)

/-- A touched record at a commit (R280). -/
def recCommit (o : StepOutcome) (step : Nat) (r : List Byte) : List Byte :=
  match o with
  | .mismatch => recClear r
  | .poisoned =>
    let p := leAt r 14 2
    let r' := if recCount r 4 > 0 ∧ p ≠ 0x8000 then
        let c := if (recFlags r).testBit 2 then max (recS16 r 8) (toSigned 16 p) else toSigned 16 p
        let r1 := putLe (putLe r 8 2 (ofSigned 16 c)) 0 2 (recFlags r ||| 4)
        if (recFlags r).testBit 4 then putLe r1 4 1 (ofSigned 8 (recSigma r1)) else r1
      else r
    recClear r'
  | .committed =>
    let win := 16 * (leAt r 6 1 + 1)
    let head := leAt r 10 2
    let r := putLe r (128 + 2 * head) 2 (leAt r 14 2)
    let r := putLe r 10 2 ((head + 1) % win)
    let r := putLe r 12 2 (min win (leAt r 12 2 + 1))
    let r := putLe (putLe r 8 2 0) 0 2 (recFlags r &&& 0xFFFB)
    let w := leAt r 2 2
    let r := putLe r 2 2 (w - 1)
    let r := if w - 1 = 0 then putLe r 0 2 (recFlags r &&& 0xFFFD) else r
    let r := if (recFlags r).testBit 4 then putLe r 4 1 (ofSigned 8 (recSigma r)) else r
    let r := patch r 64 (slice r 16 48)
    let r := putLe r 112 8 step
    recClear r

end Sys2Proof.Machine
end

