-- ==== Sys2Proof/Machine/SpoutState.lean ====
section
/-!
DEFINITION. State of the spouts (chapters 07 and 08 of spec/): profiles, route entries, passes in the drain path,
row stores, top-k store, routing counters and units waiting for delivery.
-/

namespace Sys2Proof.Machine

/-- Where a delivered unit goes (R193, R195, R300, R303, R332). -/
inductive Dest where
  /-- Messages to a jet's channel: logical jet and unit number u of R195. -/
  | jet (jet u : Nat)
  /-- Memory at a context address. -/
  | mem (addr : Nat)
  /-- Weir lines at a context address, element format. -/
  | weir (addr fmt : Nat)
  deriving DecidableEq, Repr

/-- A unit of output waiting for delivery. -/
structure DUnit where
  /-- Pass that it belongs to. -/
  seq : BitVec 32
  dest : Dest
  data : List Byte
  /-- Pieces already sent (R195). -/
  sent : Nat := 0
  /-- It is a top-k or dispatch record (SPT_TOPK). -/
  topk : Bool := false
  /-- It comes from a drain row. -/
  drain : Bool := false
  deriving DecidableEq, Repr

/-- What the spout holds of a started pass (R259, R273, R274, R279). -/
structure PassDrain where
  seq : BitVec 32
  ctx : Nat
  raw : List Byte
  prof : List Byte
  route : List Byte
  /-- Stage-2 and stage-5 exponents, read when the pass started (R273). -/
  shift : Int := 0
  sigma : Int := 0
  /-- REPLAY_STEP in force (R282). -/
  replayStep : Bool := false
  amax : Option Int := none
  counts : List Nat := [0, 0, 0, 0, 0, 0]
  routing : Routing := {}
  /-- Side rows that have been read, by row (R292). -/
  side : SMap (List Byte) := []
  /-- Rows that have passed their checks and wait for a side row: drain row?, row, output (R260). -/
  waiting : List (Bool × Nat × List W40) := []
  deriving DecidableEq, Repr

/-- A column group with its row store and statistics file (R294 to R296, R302). -/
structure ColGroup where
  /-- Which row store it holds. -/
  store : Nat := 0
  /-- Row kernel or FUNC, segments C, rows R, next COLSEG. -/
  func : Nat := 0
  count : Nat := 1
  rows : Nat := 0
  next : Nat := 0
  /-- Profile of the last member that started: PARAM, ROWSTAT, destination. -/
  prof : List Byte := []
  /-- Passes of the members that have started, the last one first. -/
  members : List (BitVec 32) := []
  /-- Held values and side values by r × D + i: binary32 stage-3 inputs of a row kernel, stage-3 values of a selection over segments, and
  in an integer pass the values before stage 2, with its exponent by COLSEG (R258, R295, R300). -/
  vals : SMap SVal := []
  sides : SMap F32 := []
  shifts : SMap Int := []
  /-- Segments that have completed phase 1, by row. -/
  segsIn : SMap Nat := []
  /-- Held top-k sets by row (R302). -/
  topk : SMap (List Ranked) := []
  /-- Rows whose phase 2 is done (phase-2 cursor, R305). -/
  phase2 : Nat := 0
  routing : Routing := {}
  deriving DecidableEq, Repr

/-- A spout. -/
structure Spout where
  /-- 64 profiles of 128 bytes and 64 route entries of 64 bytes; an empty list stands for all zero (R262, R326). -/
  profiles : SMap (List Byte) := []
  routes : SMap (List Byte) := []
  /-- Held writes: route entry?, index, bytes, slot count of the command, oldest first (R262, R326). -/
  heldWrites : List (Bool × Nat × List Byte × Nat) := []
  passes : List PassDrain := []
  groups : List ColGroup := []
  units : List DUnit := []
  /-- Completion messages waiting: index of the connection, flit (R194, R206). -/
  notes : List (Nat × List Byte) := []
  /-- It has poisoned the present training step (SPT_POISON). -/
  poisoned : Bool := false
  deriving DecidableEq, Repr

end Sys2Proof.Machine
end

