-- ==== Sys2Proof/Machine/HostState.lean ====
section
/-!
DEFINITION. State of the host ports, chanters and contexts (chapter 15 of spec/).
-/

namespace Sys2Proof.Machine

/-- STATE of a context (R540). -/
inductive CtxState where
  | free | ready | running | suspended | halted
  deriving DecidableEq, Repr

/-- A command of a ring between its fetch and its completion (R556, R557). -/
structure Cmd where
  /-- Slot count of its first slot. -/
  slot : Nat
  /-- The bytes of its slots. -/
  raw : List Byte
  started : Bool := false
  /-- Timebase tick at which it began to wait, and whether STALL has reported it (R564). -/
  since : Nat := 0
  stalled : Bool := false
  /-- BASIN_ITEMS: items already in the queue. -/
  moved : Nat := 0
  /-- LAUNCH: the threads started, jet × 256 + thread. -/
  threads : List Nat := []
  deriving DecidableEq, Repr

/-- A lease (R544). -/
structure Lease where
  terraces : Nat := 0
  basins : Nat := 0
  /-- E / 64 of R69. -/
  extent : Nat := 8
  feedSources : Nat := 4
  slices : Nat := 0
  cache : Nat := 0
  controlJet : Nat := 0
  headerOff : Nat := 0
  regionFirst : Nat := 0
  regionCount : Nat := 0
  accSave : Nat := 0
  deriving DecidableEq, Repr

/-- What a pre-emption saves (R68, R153, R305), and what the units of a displaced context hold; the save areas in memory are open
(log entry 12). -/
structure Save where
  threads : SMap Thread := []
  chans : SMap Channel := []
  conns : SMap Conn := []
  bars : SMap Barrier := []
  ports : SMap RowPort := []
  /-- Low E KiB of jet-local memory. -/
  jlm : SMap Byte := []
  held : List ConnReq := []
  /-- Connections of its jets that the chanter endpoint of the port has granted. -/
  chanter : List (Nat × Nat) := []
  icache : SMap (Option Word) := []
  basins : SMap Basin := []
  spouts : SMap Spout := []
  deriving DecidableEq, Repr

/-- A context: its page, its creation fields, lease, SET values and command stream. -/
structure Ctx where
  st : CtxState := .free
  haltReason : Nat := 0
  saved : Bool := false
  tail : BitVec 32 := 0
  head : BitVec 32 := 0
  evqHead : BitVec 32 := 0
  evqTail : BitVec 32 := 0
  evqLost : BitVec 32 := 0
  /-- CTX_COUNTER_0 to 15. -/
  counters : SMap Reg := []
  /-- CTX_ENERGY, CTX_STEP, CTX_COMMIT, CTX_ROLLBACK_STEP. -/
  energy : Word := 0
  step : Word := 0
  outcome : Nat := 0
  outcomeValid : Bool := false
  rollbackStep : Word := 0
  /-- CTX_CREATE (R543). -/
  fabric : Bool := false
  eval : Bool := false
  priority : Nat := 0
  ringLog2 : Nat := 4
  evqLog2 : Nat := 4
  job : Nat := 0
  evalOf : Nat := 0
  quantum : Nat := 0
  ringBase : Nat := 0
  ringHost : Bool := false
  evqBase : Nat := 0
  saveAddr : Nat := 0
  ptRoot : Nat := 0
  lease : Lease := {}
  /-- Host windows: base and size (R552). -/
  windows : SMap (Nat × Nat) := []
  /-- SET (R559). -/
  seed : Nat := 0
  scaleBase : Nat := 0
  scaleLen : Nat := 0
  silentBase : Nat := 0
  silentSet : Bool := false
  updBase : Nat := 0
  updSet : Bool := false
  groupBase : Nat := 0
  remoteBase : Nat := 0
  /-- The FIXED recipe: exponents of KIND 0 to 3 as bytes. -/
  fixed : List Byte := [0, 0, 0, 0]
  /-- PHASE: hints, 0xFF for none, and the current phase. -/
  hints : List Nat := [0xFF, 0xFF, 0xFF, 0xFF, 0xFF, 0xFF]
  phase : Nat := 5
  /-- Poison flag of the current training step (R18, R118). -/
  poison : Bool := false
  cmds : List Cmd := []
  /-- A CTX_DESTROY waits for the copies that read the context's blocks (R548). -/
  destroying : Bool := false
  jobStarted : Bool := false
  /-- The MSI-X vector may be raised again (R566). -/
  armed : Bool := true
  /-- Tick at which it became READY; its quantum has expired (R545). -/
  readySince : Nat := 0
  expired : Bool := false
  /-- The evaluation context whose window is open, and for an evaluation context whether its window is open (R547). -/
  window : Option Nat := none
  windowOpen : Bool := false
  save : Option Save := none
  /-- What its units hold while another context has them, of a context that does not run (log entry 45). -/
  kept : Option Save := none
  /-- A SUSPEND waits for its pre-emption (R542). -/
  suspending : Bool := false
  /-- An INVALIDATE waits for the accesses that began before it (R551). -/
  invalidating : Bool := false
  /-- Scale records that a pass of the present step names: record to 1 + AMAX_SCOPE (R281). -/
  scopes : SMap Nat := []
  deriving DecidableEq, Repr

/-- A host port and its share of the device (R532, R533, HIF_PORT_STATUS). -/
structure Port where
  created : Bool := false
  linkUp : Bool := false
  width : Nat := 0
  speed : Nat := 0
  /-- Width code that the split gives. -/
  lanes : Nat := 0
  platform : Bool := false
  ctxFirst : Nat := 0
  ctxCount : Nat := 0
  terraces : Nat := 0
  basins : Nat := 0
  slices : Nat := 0
  frameFirst : Nat := 0
  frameCount : Nat := 0
  busy : Bool := false
  code : Nat := 0
  /-- Connections that the chanter endpoint has granted (R555). -/
  conns : List (Nat × Nat) := []
  deriving DecidableEq, Repr

structure HostSide where
  ctxs : SMap Ctx := []
  ports : SMap Port := []
  /-- Owner of each 2 MiB frame, context + 1; 0 none (R542 FRAMES). -/
  frames : SMap Nat := []
  /-- High words latched by a read of a counter's low word: requester × 2^32 + register address (R13). -/
  latches : SMap (Option Reg) := []
  deriving DecidableEq, Repr

end Sys2Proof.Machine
end

