-- ==== Sys2Proof/Machine/LedgerState.lean ====
section
/-!
DEFINITION. State of the ledger (chapter 16 of spec/): the shadow, the two die images, rate windows and readout.
-/

namespace Sys2Proof.Machine

/-- A ledger slot (R570), its CRC computed when it is read out. -/
structure LSlot where
  count : Nat := 0
  suppressed : Nat := 0
  min : Nat := 0xFFFFFFFFFFFFFFFF
  max : Nat := 0
  first : Nat := 0
  last : Nat := 0
  /-- Sixteen bins. -/
  hist : List Nat := [0, 0, 0, 0, 0, 0, 0, 0, 0, 0, 0, 0, 0, 0, 0, 0]
  /-- Twelve bytes. -/
  detail : List Byte := [0, 0, 0, 0, 0, 0, 0, 0, 0, 0, 0, 0]
  used : Bool := false
  saturated : Bool := false
  damaged : Bool := false
  deriving DecidableEq, Repr

/-- One image of the die (R577). -/
structure LImage where
  valid : Bool := false
  seq : Nat := 0
  slots : SMap LSlot := []
  opsec : Nat := 0
  cycles : Nat := 0
  deriving DecidableEq, Repr

structure Ledger where
  /-- The shadow and the two counts of R572. -/
  slots : SMap LSlot := []
  opsec : Nat := 0
  cycles : Nat := 0
  image0 : LImage := { valid := true }
  image1 : LImage := {}
  /-- Full updates in the present operating second, by code (R574), and the limits (LDG_RATE_DATA). -/
  updates : SMap Nat := []
  limits : SMap Nat := []
  /-- Flushing has begun (R579): the power-cycle count has advanced since power-on. -/
  begun : Bool := false
  /-- A module reset has started a flush that is not complete (R579, R595). -/
  flushing : Bool := false
  ready : Bool := false
  /-- Image written last. -/
  image : Nat := 0
  dieFault : Bool := false
  flushes : Nat := 0
  /-- The latched slot (R581). -/
  latch : List Byte := []
  deriving DecidableEq, Repr

end Sys2Proof.Machine
end

