-- ==== Sys2Proof/Machine/LinkState.lean ====
section
/-!
DEFINITION. State of the Nimgil links, the router, fabric barriers and the collective engine (chapter 11 of spec/).
-/

namespace Sys2Proof.Machine

/-- A packet: its header flit and its payload flits (R416), as far as they have arrived. -/
structure Pkt where
  hdr : List Byte
  payload : List Byte
  /-- Payload flits still to arrive, and the virtual channel that they arrive on (R415, R421). -/
  left : Nat := 0
  vc : Nat := 0
  deriving DecidableEq, Repr

/-- A flit waiting to leave, with the input port and virtual channel whose buffer holds it (R415); none for one of this device. -/
structure TFlit where
  data : List Byte
  src : Option (Nat × Nat) := none
  deriving DecidableEq, Repr

/-- A packet that leaves through one port while its flits still arrive at another: it holds the output's virtual channel (R415, R421). -/
structure Stream where
  inPort : Nat
  inVc : Nat
  /-- None once the output port has been lost. -/
  outPort : Option Nat
  outVc : Nat
  left : Nat
  deriving DecidableEq, Repr

/-- A link block (R410, R411): flits of one virtual channel and the control field. -/
structure LBlock where
  seq : Nat
  ack : Nat
  nak : Bool
  vc : Nat
  /-- Flit slots that hold flits, 64 bytes each. -/
  flits : List (List Byte)
  crVc : Nat
  crCount : Nat
  deriving DecidableEq, Repr

/-- STATE of a link port (R427). -/
inductive PState where
  | disabled | training | discovery | active | inert | held | down
  deriving DecidableEq, Repr

/-- A sent block that no ACK covers, and how often it has been sent (R412, R413). -/
structure Sent where
  block : LBlock
  sends : Nat
  deriving DecidableEq, Repr

/-- A link port. -/
structure LPort where
  st : PState := .disabled
  half : Bool := false
  reason : Nat := 0
  remapped : Bool := false
  planPort : Nat := 0
  minorDown : Bool := false
  nbrDev : Nat := 0
  nbrPort : Nat := 0
  serial : Nat := 0
  /-- The neighbour's record is held; one with SEEN 1 has been received (R428). -/
  gotRec : Bool := false
  gotSeen : Bool := false
  /-- Replay: next SEQ, unacknowledged blocks oldest first, next expected SEQ, NAK to send (R412). -/
  txSeq : Nat := 0
  unacked : List Sent := []
  rxSeq : Nat := 0
  nak : Bool := false
  /-- Flit credits by VC, and credits to return by VC (R415). -/
  credits : SMap Nat := []
  giveBack : SMap Nat := []
  /-- Flits waiting to leave, by VC, and those that wait behind a packet whose flits still arrive. -/
  txq : SMap (List TFlit) := []
  behind : SMap (List TFlit) := []
  /-- Header of a DISCOVERY packet whose record is still to arrive, by VC; flits still to arrive of a packet that is discarded. -/
  rx : SMap (List (List Byte)) := []
  skip : SMap Nat := []
  /-- Corrected symbols of the last second by lane, each with its tick (R413). -/
  syms : List (Nat × List Nat) := []
  /-- DISCOVERY records received and not yet judged, oldest first (R429). -/
  records : List (List Byte) := []
  /-- VCs already reported stalled (R415). -/
  stalled : List Nat := []
  /-- Tick at which the configuration enabled the port (R430). -/
  enabledAt : Nat := 0
  /-- Excluded from routing until ACTIVE again at a quiescent point (R423). -/
  excluded : Bool := false
  /-- Device, port and serial number of the neighbour with which the port was last ACTIVE (R442). -/
  known : Option (Nat × Nat × Nat) := none
  deriving DecidableEq, Repr

/-- One fabric barrier at this device (R439, R440). -/
structure FBar where
  gen : BitVec 16 := 0
  /-- Local arrivals are complete (R115, R394). -/
  here : Bool := false
  /-- Children that have arrived. -/
  kids : List Nat := []
  /-- ARRIVE sent to the parent. -/
  up : Bool := false
  stepMin : Nat := 0
  stepMax : Nat := 0
  flags : Nat := 0
  pairs : List (Nat × Int) := []
  /-- A contribution has been combined. -/
  any : Bool := false
  /-- Values of the last RELEASE. -/
  relFlags : Nat := 0
  relMin : Nat := 0
  relMax : Nat := 0
  relPairs : List (Nat × Int) := []
  released : Bool := false
  /-- Tick of the own arrival, and whether the wait has been reported (R441). -/
  since : Nat := 0
  stalled : Bool := false
  deriving DecidableEq, Repr

/-- A collective of a context (R434 to R438). -/
structure Coll where
  ctx : Nat
  slot : Nat
  raw : List Byte
  /-- Own rank, member list, and the exponents of the levels at which nodes change owner, from 0 (R432, R436). -/
  rank : Nat
  members : List Nat
  exps : List Nat
  /-- COLL_READY has been sent; ranks that are ready, with the target address that they gave (R437). -/
  told : Bool := false
  ready : List (Nat × Nat) := []
  /-- Nodes received from other ranks and nodes combined here, as lines, by node key. -/
  nodes : SMap (List Byte) := []
  /-- What has been sent, by node key. -/
  sent : List Nat := []
  /-- The own chunk's combination has gone to the destination region; the output is complete (R438). -/
  applied : Bool := false
  done : Bool := false
  deriving DecidableEq, Repr

structure Links where
  ports : SMap LPort := []
  /-- NL_DEVICE_ID; a standby holds none before DRAFT (R431, R442). -/
  devId : Nat := 0
  hasId : Bool := false
  drafted : Bool := false
  planLoaded : Bool := false
  /-- The PLAN section, the ID parts of this device, and the ID part in use (R424, R425). -/
  planSec : List Byte := []
  idParts : List (List Byte) := []
  idPart : List Byte := []
  planHash : List Byte := []
  /-- Packets in the router, with the port they came in by (none: injected here), and packets for this device. -/
  queue : List (Option Nat × Pkt) := []
  inbox : List (Option Nat × Pkt) := []
  /-- Packets that leave while they still arrive. -/
  streams : List Stream := []
  bars : SMap FBar := []
  colls : List Coll := []
  /-- COLL_READY received before the context's own collective started: context, COLL_ID, device, address. -/
  early : List (Nat × Nat × Nat × Nat) := []
  deriving DecidableEq, Repr

end Sys2Proof.Machine
end

