-- ==== Sys2Proof/Machine/MemState.lean ====
section
/-!
DEFINITION. State of the cistern, the HBM stacks and the weirs (chapter 09 of spec/).
-/

namespace Sys2Proof.Machine

/-- A weir request: one 64-byte line on its way to a weir or held there (R359). -/
structure WReq where
  ctx : Nat
  /-- Source endpoint, and jet × 256 + thread for a WOP (R98). -/
  src : Nat
  thread : Option Nat := none
  /-- Physical and context target address. -/
  addr : Nat
  va : Nat
  /-- Operation, type and mode of R100. -/
  op : Nat
  ty : Nat
  mode : Nat
  tag : Nat := 0
  data : List Byte
  /-- The thread that sent it has exited or been stopped: no FENCE counts it any more (R98). -/
  orphan : Bool := false
  deriving DecidableEq, Repr

/-- A declared region (R361). -/
structure Region where
  ctx : Nat
  raw : List Byte
  /-- Completed lines, and class counts totalled over the region (R368). -/
  done : Nat := 0
  counts : List Nat := [0, 0, 0, 0, 0, 0]
  longsum : Bool := false
  complete : Bool := false
  /-- Lines that have completed (R368). -/
  lines : SMap Bool := []
  /-- Exact-partial: block sums already added in sequence, per line (R366). -/
  blocks : SMap Nat := []
  deriving DecidableEq, Repr

/-- A message of a weir, a sluice or a chanter, waiting for its connection or a credit (R561, R609). -/
structure Note where
  ctx : Nat
  /-- Endpoint that sends it. -/
  ep : Nat := 0x3000
  /-- True: a sluice notification (R399). -/
  sluice : Bool
  jet : Nat
  ch : Nat
  data : List Byte
  deriving DecidableEq, Repr

/-- A cistern slice (R345 to R347). -/
structure Slice where
  lease : Option Nat := none
  cache : Bool := false
  deriving DecidableEq, Repr

/-- A line held by a CACHE slice (R347). -/
structure Line where
  slice : Nat
  dirty : Bool
  data : List Byte
  deriving DecidableEq, Repr

/-- An HBM stack (R350, R353 to R358). -/
structure Stack where
  temp : Nat := 0
  tcrHigh : Bool := false
  retiredPc : Option Nat := none
  migrating : Bool := false
  /-- Lines copied: the copy pointer of R355. -/
  copied : Nat := 0
  /-- Corrections in the present scrub interval by pseudo-channel × 128 + lane, and lanes marked failed (R355). -/
  corr : SMap Nat := []
  marked : List Nat := []
  /-- Pseudo-channel to retire without copy before rejoin (R356). -/
  pendingRetire : Option Nat := none
  /-- Consecutive failures of the present burst by 2 × pseudo-channel, and 1 more for a write (R352). -/
  burstFails : SMap Nat := []
  /-- ECS counts last read (R350). -/
  ecs : Nat := 0
  rfm : Nat := 0
  deriving DecidableEq, Repr

structure Mem where
  /-- Every backed byte of the device address space that differs from what an unlisted address reads as. -/
  cells : SMap Byte := []
  slices : SMap Slice := []
  /-- Lines of CACHE slices by line address (R347). -/
  cache : SMap (Option Line) := []
  evictions : Nat := 0
  hbm : SMap Stack := []
  regions : SMap (Option Region) := []
  weirReqs : List WReq := []
  notes : List Note := []
  /-- Stack and lines copied of the current or last retirement (HBM_MIGRATE_PROGRESS). -/
  migrateStack : Nat := 0
  migrateLines : Nat := 0
  deriving DecidableEq, Repr

end Sys2Proof.Machine
end

