-- ==== Sys2Proof/Machine/PowerState.lean ====
section
/-!
DEFINITION. State of the bellows (chapter 13 of spec/): controllers, operating point, droop, brake and thermal
control, measurements and reasons.
-/

namespace Sys2Proof.Machine

/-- A rail or cap controller (R477, R478). -/
structure Ctl where
  /-- Demand in 64ths, 0 to 56. -/
  demand : Nat := 0
  /-- The 100-ns values of the window, newest first, without the one to come: mA, or mW for the cap. -/
  window : List Nat := []
  /-- 100-ns updates since the last release. -/
  sinceRelease : Nat := 0
  deriving DecidableEq, Repr

/-- A droop region (R487, R488). -/
structure Region14 where
  inDroop : Bool := false
  /-- Its response holds: lengthened delays and at least 32/64. -/
  held : Bool := false
  demand : Nat := 0
  /-- Tick at which the last droop ended. -/
  since : Nat := 0
  deriving DecidableEq, Repr

/-- A thermal group (R490, R491). -/
structure Group8 where
  demand : Nat := 0
  /-- The two terms of `over`, in °C. -/
  junctionOver : Int := 0
  stackOver : Int := 0
  /-- Hottest junction sensor at the last reading. -/
  junction : Int := 0
  /-- Updates in succession with demand 56 and over > 0. -/
  atMax : Nat := 0
  deriving DecidableEq, Repr

structure Power where
  /-- Controllers of rails 0 to 4 and, at 5, of the cap. -/
  ctl : SMap Ctl := []
  /-- OP reached, target, ramp in progress, microseconds at the present point (R481, R483). -/
  op : Nat := 0
  target : Nat := 0
  ramping : Bool := false
  opAge : Nat := 0
  govCap : Nat := 7
  govTherm : Nat := 7
  /-- 100-ns updates in succession with cap demand at least 8, and with demand 0 and low power (R484). -/
  capHigh : Nat := 0
  capLow : Nat := 0
  /-- 1-ms updates in succession with every group's demand 0 (R491). -/
  coolFor : Nat := 0
  regions : SMap Region14 := []
  groups : SMap Group8 := []
  /-- BRAKE#: low level not yet qualified, qualified assertion, high interval within one, demand, held (R493 to R495). -/
  brakeLow : Bool := false
  brakeOn : Bool := false
  brakeHigh : Bool := false
  brakeDemand : Nat := 0
  brakeHeld : Bool := false
  brakeSince : Nat := 0
  /-- Tick of the last edge of BRAKE# (R493, R494). -/
  brakeEdge : Nat := 0
  /-- Stale rails; a calibration has followed (R476). -/
  stale : SMap Bool := []
  recal : SMap Bool := []
  /-- Latest measurement per rail in mA, samples in succession above 1.15 × the fused limit (R473, R474). -/
  amps : SMap Nat := []
  trips : SMap Nat := []
  watts : Nat := 0          -- latest input power, mW
  wattSum : Nat := 0        -- sum and number of samples of the present millisecond
  wattN : Nat := 0
  inputMean : Nat := 0      -- PWR_INPUT.WATTS
  /-- Tick of the last calibration (R475). -/
  calAt : Nat := 0
  /-- Rails whose static term a calibration has fitted, in mA (R475). -/
  static : SMap Int := []
  /-- Reason bits active, tick at which each became active, and its rail, group or region (R497). -/
  active : Nat := 0
  activeAt : SMap Nat := []
  activeSrc : SMap Nat := []
  deriving DecidableEq, Repr

end Sys2Proof.Machine
end

