-- ==== Sys2Proof/Machine/SluiceState.lean ====
section
/-!
DEFINITION. State of the sluices (chapter 10 of spec/): blocks, schedules, commits, root computations, snapshots
and buddy copies.
-/

namespace Sys2Proof.Machine

/-- A VALID block (R377, R378). -/
structure Block where
  raw : List Byte
  /-- Its masters or state have changed since the last copy into buddy slot 0, slot 1 (R405). -/
  dirty0 : Bool := true
  dirty1 : Bool := true
  /-- A read of a master was non-finite: steps poison until every master is finite again (R398). -/
  bad : Bool := false
  deriving DecidableEq, Repr

/-- A root computation pending for one matrix (R388, R389): the work area's content. -/
structure Root where
  /-- Size k of the matrix. -/
  size : Nat
  /-- Iteration (from 1), product within the iteration (from 0), passes of that product done (R389, R390). -/
  iter : Nat := 1
  prod : Nat := 0
  pass : Nat := 0
  x : SMap F32
  m : SMap F32
  t : SMap F32 := []
  tp : SMap F32 := []
  converged : Bool := false
  deriving DecidableEq, Repr

/-- A COMMIT between its start and its completion (R394). -/
structure Commit where
  ctx : Nat
  slot : Nat
  raw : List Byte
  /-- Block indices, as read at the arrival (R395). -/
  blocks : List Nat
  poison : Bool := false
  mismatch : Bool := false
  /-- The schedule record that it takes; empty for none (R393). -/
  sched : List Byte := []
  arrived : Bool := false
  deriving DecidableEq, Repr

/-- A snapshot in progress (R400, R401): what is still to be copied, block by block in ascending index. -/
structure Snap where
  ctx : Nat
  form : Nat
  /-- Peer device, or none for a host address. -/
  dev : Option Nat
  /-- Remaining pieces: block index, destination address, bytes as of the commit. -/
  left : List (Nat × Nat × List Byte)
  deriving DecidableEq, Repr

/-- A buddy copy in progress (R405). -/
structure Buddy where
  slot : Nat
  step : Nat
  /-- Contexts whose state it carries (R548). -/
  ctxs : List Nat := []
  /-- Remaining pieces: the block (context × 16384 + index) that it reads, offset within the slot and bytes, in the order they are
  sent. -/
  left : List (Option Nat × Nat × List Byte)
  /-- The invalid header has been acknowledged, and other pieces follow it. -/
  begun : Bool := false
  deriving DecidableEq, Repr

structure Sluice where
  /-- VALID blocks by context × 16384 + index. -/
  blocks : SMap (Option Block) := []
  /-- The latest well-formed schedule record of a context (R393). -/
  schedules : SMap (List Byte) := []
  commits : List Commit := []
  /-- Root computations by (context × 16384 + block) × 2 + matrix. -/
  roots : SMap (Option Root) := []
  snaps : List Snap := []
  buddy : Option Buddy := none
  /-- OPERAND_READY still to be written: context, block (R386). -/
  operands : List (Nat × Nat) := []
  /-- The slots that this device holds at its buddy (SLC_BUDDY_STATUS, SLC_SLOT*_STEP). -/
  slot0Valid : Bool := false
  slot1Valid : Bool := false
  slot0Step : Nat := 0
  slot1Step : Nat := 0
  nextSlot : Nat := 0
  /-- The pieces that each slot was laid out for: description lines in order (log entry 25). -/
  layout0 : List (List Byte) := []
  layout1 : List (List Byte) := []
  /-- Checkpoint request, committed steps and operating second since the last buddy copy began (R404). -/
  request : Bool := false
  sinceSteps : Nat := 0
  sinceSec : Nat := 0
  deriving DecidableEq, Repr

end Sys2Proof.Machine
end

