-- ==== Sys2Proof/Machine/State.lean ====
section
/-!
DEFINITION. The whole state of the module, why a step can stop, and the state after reset.
-/

namespace Sys2Proof.Machine

/-- What leaves the module: the model keeps it in the order in which it leaves. -/
inductive Out where
  /-- A PCIe memory write of a port to the host, and an MSI-X vector (R552, R566). -/
  | hostWrite (port addr : Nat) (data : List Byte)
  | msix (port vector : Nat)
  /-- The value a register read or an aperture read returns to its requester (R9, R12, R553). -/
  | readData (port addr : Nat) (data : List Byte)
  /-- An MCTP response: SPDM, the update engine, ledger or PLDM (R524, R527, R582, R501). -/
  | mctp (data : List Byte)
  /-- A link block of a port: its message bits (R410). -/
  | linkBlock (port : Nat) (data : List Byte)
  /-- A read through the aperture that fails completes with Completer Abort and a non-fatal AER error (R553). -/
  | completerAbort (port addr : Nat)
  /-- A change of a throttle reason, of a model's freshness, as a PLDM event (R501). -/
  | pldmEvent (sensor : Nat) (on : Bool)
  deriving DecidableEq, Repr

/-- The state of the module. -/
structure State where
  jets : Jets := {}
  basins : SMap Basin := []
  spouts : SMap Spout := []
  mem : Mem := {}
  host : HostSide := {}
  sluice : Sluice := {}
  links : Links := {}
  recov : Recovery := {}
  power : Power := {}
  boot : Boot := {}
  ledger : Ledger := {}
  /-- RW, LK and W1C registers by byte offset in the control space (R12). -/
  csr : SMap Reg := []
  /-- 64-bit counters by the byte offset of their low word (R13). -/
  ctr : SMap Word := []
  /-- The count of 50 MHz timebase ticks (R24, R118). -/
  ticks : Nat := 0
  /-- The model's own counter of undefined values (log entry 3). -/
  free : Nat := 0
  /-- What has left the module, oldest first. -/
  out : List Out := []
  /-- Commands waiting, first in first out. -/
  pending : List Instr := []
  deriving DecidableEq, Repr

/-- Why the model stops with a fault: it never does. Every fault of the manual is the state of a thread, an item, a
context or the device, and the machine goes on. -/
inductive Fault where
  deriving DecidableEq, Repr

/-- Why a command has no meaning. -/
inductive Refusal where
  /-- Raised by an arm of exec for a row without a meaning yet. Safe: no state is answered. -/
  | notModelled (mnemonic : String)
  deriving DecidableEq, Repr

/-- Control registers with a non-zero reset value, by offset in the control space: JET_WAIT_LIMIT, HIF_WAIT_LIMIT and
the other registers of chapters 02 to 16, with the PWR_ registers of chapter 13. -/
def resetRegs : SMap Reg := [
  (0x0010C, 0x0064000A),
  (0x2000C, 0x708), (0x20010, 0x1c20064), (0x20014, 0x58bfc5), (0x20020, 0xA3E80), (0x20024, 0xA0898),
  (0x20028, 0x140708), (0x2002C, 0x1407D0), (0x20030, 0x140078), (0x20034, 0x320D48), (0x20038, 0x3200FA),
  (0x20040, 0x28), (0x20044, 0x0A),
  (0x100008, 0x0A), (0x110008, 0x0A), (0x120008, 0x0A), (0x130008, 0x0A),
  (0x200048, 0x0A),
  (0x30003C, 0x0A), (0x30103C, 0x0A), (0x30203C, 0x0A), (0x30303C, 0x0A), (0x30403C, 0x0A), (0x30503C, 0x0A),
  (0x310008, 0x01000040), (0x31000C, 0x20),
  (0x410020, 0x1), (0x410024, 0x4), (0x410028, 0x10),
  (0x430008, 0x103c10), (0x500808, 0x1E), (0x50080C, 0x64)]

/-- The module before its internal reset is released (R595): input and rails in range, MOD_RST# high, and nothing loaded
from outside but an erased NOR (log entries 8 to 11). -/
def State.reset : State := { csr := resetRegs }

end Sys2Proof.Machine
end

