-- ==== Sys2Proof/Machine/Ops.lean ====
section
/-!
DEFINITION. The shared operations of the block over its state: one reader and one updater per unit, control registers and
counters, ledger records, physical memory.
-/

namespace Sys2Proof.Machine

/-- Offsets of the register blocks in the control space (R539). -/
def oCfg : Nat := 0x0000000
def oSec : Nat := 0x0010000
def oPwr : Nat := 0x0020000
def oLdg : Nat := 0x0030000
def oHif (p : Nat) : Nat := 0x0100000 + 0x10000 * p
def oJet : Nat := 0x0200000
def oRun : Nat := 0x0210000
def oBsn (b : Nat) : Nat := 0x0300000 + 0x1000 * b
def oSpt (b : Nat) : Nat := 0x0310000 + 0x1000 * b
def oCis : Nat := 0x0400000
def oHbm : Nat := 0x0410000
def oWeir : Nat := 0x0420000
def oSlc : Nat := 0x0430000
def oNl : Nat := 0x0500000

/-- A stored control register as a number (R12). -/
def regOf (s : State) (off : Nat) : Nat := (SMap.get (0 : Reg) s.csr off).toNat

def setReg (s : State) (off v : Nat) : State := { s with csr := SMap.put 0 s.csr off (BitVec.ofNat 32 v) }

/-- Sets bits of a register, as an event does to a W1C field (R9). -/
def setBits (s : State) (off mask : Nat) : State := setReg s off (regOf s off ||| mask)

def setBit (s : State) (off i : Nat) : State := setBits s off (2 ^ i)

/-- Clears the bits at which `v` holds a 1 (W1C, R9). -/
def clearBits (s : State) (off v : Nat) : State :=
  { s with csr := SMap.put 0 s.csr off (SMap.get 0 s.csr off &&& ~~~ (BitVec.ofNat 32 v)) }

/-- A 64-bit counter by the offset of its low word (R13). -/
def counterOf (s : State) (off : Nat) : Nat := (SMap.get (0 : Word) s.ctr off).toNat

/-- Adds to a 64-bit counter, modulo 2^64. -/
def bump (s : State) (off n : Nat) : State :=
  { s with ctr := SMap.put 0 s.ctr off (SMap.get 0 s.ctr off + BitVec.ofNat 64 n) }

/-- Sets a 64-bit register pair by the offset of its low word. -/
def setPair (s : State) (off v : Nat) : State := { s with ctr := SMap.put 0 s.ctr off (BitVec.ofNat 64 v) }

def emit (s : State) (o : Out) : State := { s with out := s.out ++ [o] }

/-- Sets a bit of a port's HIF_ERR_STATUS and signals it on vector 0 (R566). -/
def hifFlag (s : State) (p i : Nat) : State := emit (setBit s (oHif p + 4) i) (.msix p 0)

/-- The next undefined value's number, and the state with it used up (log entry 3). -/
def fresh (s : State) : State := { s with free := s.free + 1 }

/-! Jets and the runnel. -/

def getThread (s : State) (j t : Nat) : Thread := SMap.get {} s.jets.threads (j * 256 + t)

def updThread (s : State) (j t : Nat) (f : Thread → Thread) : State :=
  { s with jets := { s.jets with threads := SMap.upd {} s.jets.threads (j * 256 + t) f } }

def getChan (s : State) (j c : Nat) : Channel := SMap.get {} s.jets.chans (j * 256 + c)

def updChan (s : State) (j c : Nat) (f : Channel → Channel) : State :=
  { s with jets := { s.jets with chans := SMap.upd {} s.jets.chans (j * 256 + c) f } }

/-- Entry `i` of the send table of endpoint `ep`. -/
def getConn (s : State) (ep i : Nat) : Conn := SMap.get {} s.jets.conns (ep * 65536 + i)

def updConn (s : State) (ep i : Nat) (f : Conn → Conn) : State :=
  { s with jets := { s.jets with conns := SMap.upd {} s.jets.conns (ep * 65536 + i) f } }

/-- Connection number of a message, a held message or a segment whose connection is gone: its credit returns to nobody. -/
def goneIdx : Nat := 2 ^ 32

/-- Source number of a message or connection from device `dev` (R419); local connections have numbers below 2^16. -/
def remoteIdx (dev : Nat) : Nat := 2 ^ 16 + dev

/-- A thread of a context as barriers know it (R113). -/
def memberId (c j t : Nat) : Nat := c * 2 ^ 20 + j * 256 + t

/-- Weir requests of the threads that `p` tells (jet × 256 + thread) are no longer theirs (R98). -/
def orphanWops (s : State) (p : Nat → Bool) : State :=
  { s with mem := { s.mem with weirReqs := s.mem.weirReqs.map fun r => if r.thread.any p then { r with orphan := true } else r } }

/-- A thread that runs or waits is STOPPED, and goes on as it stopped (R35, R68, R70, R71). -/
def stopThread (x : Thread) : Thread :=
  if x.st = .free ∨ x.st = .faulted ∨ x.st = .stopped then x else { x with st := .stopped, back := x.st }
def resumeThread (x : Thread) : Thread := if x.st = .stopped then { x with st := x.back, back := .free } else x

def getBar (s : State) (k : Nat) : Barrier := SMap.get {} s.jets.bars k

def updBar (s : State) (k : Nat) (f : Barrier → Barrier) : State :=
  { s with jets := { s.jets with bars := SMap.upd {} s.jets.bars k f } }

/-- Row port `p` of basin `b` (R189). -/
def getRowPort (s : State) (k : Nat) : RowPort := SMap.get {} s.jets.ports k

def updRowPort (s : State) (k : Nat) (f : RowPort → RowPort) : State :=
  { s with jets := { s.jets with ports := SMap.upd {} s.jets.ports k f } }

def getTerrace (s : State) (t : Nat) : Terrace := SMap.get {} s.jets.terraces t

def updTerrace (s : State) (t : Nat) (f : Terrace → Terrace) : State :=
  { s with jets := { s.jets with terraces := SMap.upd {} s.jets.terraces t f } }

/-- The physical jet that carries logical jet `j` (R32). -/
def physJet (s : State) (j : Nat) : Nat :=
  (SMap.get none s.jets.map j).getD (520 * (j / 512) + j % 512)

/-! Basins, spouts, contexts, ports, memory units and links. -/

def getBasin (s : State) (b : Nat) : Basin := SMap.get {} s.basins b

def updBasin (s : State) (b : Nat) (f : Basin → Basin) : State := { s with basins := SMap.upd {} s.basins b f }

def getSpout (s : State) (b : Nat) : Spout := SMap.get {} s.spouts b

def updSpout (s : State) (b : Nat) (f : Spout → Spout) : State := { s with spouts := SMap.upd {} s.spouts b f }

/-- A group holds its row store until phase 2 has delivered its last row (R295). -/
def holdsStore (y : Spout) (g : ColGroup) : Bool :=
  decide (g.phase2 < g.rows) || y.units.any fun u => !u.drain && g.members.contains u.seq

def getCtx (s : State) (c : Nat) : Ctx := SMap.get {} s.host.ctxs c

def updCtx (s : State) (c : Nat) (f : Ctx → Ctx) : State :=
  { s with host := { s.host with ctxs := SMap.upd {} s.host.ctxs c f } }

def getPort (s : State) (p : Nat) : Port := SMap.get {} s.host.ports p

def updPort (s : State) (p : Nat) (f : Port → Port) : State :=
  { s with host := { s.host with ports := SMap.upd {} s.host.ports p f } }

def getStack (s : State) (n : Nat) : Stack := SMap.get {} s.mem.hbm n

def updStack (s : State) (n : Nat) (f : Stack → Stack) : State :=
  { s with mem := { s.mem with hbm := SMap.upd {} s.mem.hbm n f } }

def getSlice (s : State) (n : Nat) : Slice := SMap.get {} s.mem.slices n

def updSlice (s : State) (n : Nat) (f : Slice → Slice) : State :=
  { s with mem := { s.mem with slices := SMap.upd {} s.mem.slices n f } }

def getLink (s : State) (p : Nat) : LPort := SMap.get {} s.links.ports p

def updLink (s : State) (p : Nat) (f : LPort → LPort) : State :=
  { s with links := { s.links with ports := SMap.upd {} s.links.ports p f } }

def getFBar (s : State) (k : Nat) : FBar := SMap.get {} s.links.bars k

def updFBar (s : State) (k : Nat) (f : FBar → FBar) : State :=
  { s with links := { s.links with bars := SMap.upd {} s.links.bars k f } }

/-- The port that a context belongs to (R533). -/
def portOf (s : State) (c : Nat) : Option Nat :=
  leastBelow 4 fun p =>
    let q := getPort s p
    q.created && decide (q.ctxFirst ≤ c) && decide (c < q.ctxFirst + q.ctxCount)

/-- The contexts that have been created, in ascending number. -/
def created (s : State) : List Nat := (s.host.ctxs.filter fun e => e.2.st != .free).map (·.1)

/-- Basins, jets and stack units run (R516, R466). -/
def unitsRun (s : State) : Bool := s.boot.locked && s.recov.st != .contained

/-- Jets of the terraces whose lease a context holds. -/
def holdsTerrace (s : State) (c t : Nat) : Bool := (getTerrace s t).lease == some c

def holdsJet (s : State) (c j : Nat) : Bool := decide (j < 4096) && holdsTerrace s c (j / 512)

/-- The context whose threads run on jet `j`. -/
def ctxOfJet (s : State) (j : Nat) : Option Nat := if j < 4096 then (getTerrace s (j / 512)).lease else none

/-! The ledger (R570 to R575). -/

def sat32 (n : Nat) : Nat := Nat.min n 0xFFFFFFFF

/-- Base exponent of a code's bins (R583). -/
def binBase (code : Nat) : Nat :=
  if code == 0x001 then 4 else if code == 0x010 then 9 else if code == 0x011 then 16
  else if code == 0x016 then 6 else if code == 0x01C then 6 else if code == 0x02E then 3
  else if code == 0x030 then 6 else if code == 0x051 then 6 else 0

/-- The bin of a value (R571). -/
def binOf (code v : Nat) : Nat := if v = 0 then 0 else Nat.min (Nat.log2 v - binBase code) 15

/-- The stamp of an event now (R572): before a boot has reached LOCKED or FAILED, the power-cycle count that it will
take there. -/
def stamp (s : State) : Nat :=
  let c := if s.boot.st == .locked || s.boot.st == .failed then s.ledger.cycles else s.ledger.cycles + 1
  s.ledger.opsec + Nat.min c 0xFFFFFF * 2 ^ 32

/-- The update of a slot by one event (R573). -/
def LSlot.record (x : LSlot) (code v now : Nat) (d : List Byte) (full : Bool) : LSlot :=
  let x := { x with count := sat32 (x.count + 1) }
  let x := if full then
      { x with
        hist := updAt x.hist (binOf code v) fun n => sat32 (n + 1)
        min := Nat.min x.min v
        max := Nat.max x.max v
        first := if x.used then x.first else now
        used := true
        last := now
        detail := slice d 0 12 }
    else { x with suppressed := sat32 (x.suppressed + 1) }
  { x with saturated := x.saturated || x.count == 0xFFFFFFFF || x.suppressed == 0xFFFFFFFF
                        || x.hist.any (· == 0xFFFFFFFF) }

/-- The limit of full updates per operating second of a code (R574); 10 by default. -/
def rateLimit (s : State) (code : Nat) : Nat := SMap.get 10 s.ledger.limits code

/-- An event of a ledger code reaches the shadow (R573, R574). -/
def ledgerRecord (s : State) (code v : Nat) (d : List Byte) : State :=
  let n := SMap.get 0 s.ledger.updates code
  let full := decide (n < rateLimit s code)
  { s with ledger := { s.ledger with
      slots := SMap.upd {} s.ledger.slots code fun x => x.record code v (stamp s) d full
      updates := if full then SMap.put 0 s.ledger.updates code (n + 1) else s.ledger.updates } }

/-! Physical memory (R339). -/

/-- The memory's canonical form: addresses strictly rising, no listed byte equal to what an unlisted one reads as. -/
abbrev Mem.wf (m : Mem) : Bool := SMap.wf 0 m.cells

/-- The byte at a physical address; an unlisted one reads as zero (log entry 8). -/
def byteAt (s : State) (a : Nat) : Byte := SMap.get 0 s.mem.cells a

def readPhys (s : State) (a n : Nat) : List Byte := (List.range n).map fun i => byteAt s (a + i)

/-- Writes bytes from an address upward. -/
def putBytes (m : SMap Byte) (a : Nat) : List Byte → SMap Byte
  | [] => m
  | b :: bs => putBytes (SMap.put 0 m a b) (a + 1) bs

def writePhys (s : State) (a : Nat) (bs : List Byte) : State :=
  { s with mem := { s.mem with cells := putBytes s.mem.cells a bs } }

/-- Every byte of a range reads as zero again. -/
def zeroPhys (s : State) (a n : Nat) : State :=
  { s with mem := { s.mem with cells := SMap.clear (fun k => decide (a ≤ k) && decide (k < a + n)) s.mem.cells } }

/-- First address of slice `n`, of jet `j`'s memory. -/
def sliceBase (n : Nat) : Nat := 0x100000000000 + n * 0x2000000
def jlmBase (j : Nat) : Nat := 0x200000000000 + j * 0x100000

end Sys2Proof.Machine
end

