-- ==== Sys2Proof/Machine/LinkOps.lean ====
section
/-!
DEFINITION. Packets, link blocks and what a port sends (R410 to R417).
-/

namespace Sys2Proof.Machine

/-- The header flit's fields (R416). -/
structure Hdr where
  dstDev : Nat := 0
  srcDev : Nat := 0
  dstEp : Nat := 0
  srcEp : Nat := 0
  kind : Nat
  hops : Nat := 32
  level : Nat := 0
  len : Nat := 0
  job : Nat := 0
  tag : Nat := 0
  channel : Nat := 0
  addr : Nat := 0
  wop : Nat := 0
  seqtag : Nat := 0
  coll : Nat := 0
  deriving DecidableEq, Repr

/-- The header flit of R416. -/
def Hdr.bytes (h : Hdr) : List Byte :=
  toLe 2 h.dstDev ++ toLe 2 h.srcDev ++ toLe 2 h.dstEp ++ toLe 2 h.srcEp ++ toLe 1 h.kind ++ toLe 1 h.hops ++
  toLe 1 h.level ++ toLe 3 h.len ++ toLe 2 h.job ++ toLe 2 h.tag ++ toLe 1 h.channel ++ toLe 6 h.addr ++
  toLe 1 h.wop ++ toLe 2 h.seqtag ++ toLe 4 h.coll ++ List.replicate 32 0

def hdrOf (f : List Byte) : Hdr :=
  { dstDev := leAt f 0 2, srcDev := leAt f 2 2, dstEp := leAt f 4 2, srcEp := leAt f 6 2, kind := leAt f 8 1,
    hops := leAt f 9 1, level := leAt f 10 1, len := leAt f 11 3, job := leAt f 14 2, tag := leAt f 16 2,
    channel := leAt f 18 1, addr := leAt f 19 6, wop := leAt f 25 1, seqtag := leAt f 26 2, coll := leAt f 28 4 }

/-- The flits of a payload. -/
def flitsOf (d : List Byte) : List (List Byte) :=
  (List.range (ceilDiv d.length 64)).map fun i => slice d (64 * i) 64

/-- Class of a packet kind: 0 REQUEST, 1 RESPONSE, 2 CONTROL (R414, R417). -/
def kindClass (k : Nat) : Nat := if k == 3 || k == 4 then 1 else if 7 ≤ k then 2 else 0

/-- The permitted payload lengths of a kind; none for a reserved kind (R417). -/
def kindLen (k n : Nat) : Bool :=
  if k == 1 then decide (1 ≤ n ∧ n ≤ 16) else if k == 2 || k == 3 || k == 4 || k == 7 then n == 0
  else if k == 5 || k == 6 then decide (1 ≤ n ∧ n ≤ 16384) else if k == 8 then decide (1 ≤ n ∧ n ≤ 1025)
  else k == 9 && n == 1

/-- The malformed headers of R417: a reserved kind, a length outside its range, a non-zero unnamed byte or bit. -/
def hdrBad (f : List Byte) : Bool :=
  let h := hdrOf f
  !kindLen h.kind h.len || (slice f 32 32).any (· != 0) || decide (0x8000 ≤ h.dstDev) || decide (1 < h.level)

/-- The virtual channel of a packet: 2 × class + level (R414). -/
def vcOf (h : Hdr) : Nat := 2 * kindClass h.kind + h.level % 2

/-- The next remainder of the 5-bit CRC with generator x^5 + x^2 + 1 (R411). -/
def crc5Bit (c : Nat) (b : Bool) : Nat :=
  let top := bitB c 4 != b
  (c * 2 % 32) ^^^ (if top then 5 else 0)

/-- The CRC of R411 over the slots and control bits [34:0], each byte and the field from bit 0 (log entry 13). -/
def crc5 (slots : List Byte) (ctl : Nat) : Nat :=
  let c := slots.foldl (fun c b => (List.range 8).foldl (fun c i => crc5Bit c (b.toNat.testBit i)) c) 0x1F
  (List.range 35).foldl (fun c i => crc5Bit c (ctl.testBit i)) c

/-- The 20 flit slots of a block. -/
def slotsOf (b : LBlock) : List Byte := slice b.flits.flatten 0 1280

/-- The control field of R411. -/
def controlOf (b : LBlock) : Nat :=
  let low := b.seq + 2 ^ 9 * b.ack + 2 ^ 18 * b2n b.nak + 2 ^ 19 * b.vc + 2 ^ 22 * b.flits.length
    + 2 ^ 27 * b.crVc + 2 ^ 30 * b.crCount
  low + 2 ^ 35 * crc5 (slotsOf b) low

/-- The message bits of a block: 20 slots and the control field (R410). -/
def blockBytes (b : LBlock) : List Byte := slotsOf b ++ toLe 5 (controlOf b)

/-- A received block: none when its CRC does not match. -/
def blockOf (d : List Byte) : Option LBlock :=
  let ctl := leAt d 1280 5
  let low := ctl % 2 ^ 35
  if crc5 (slice d 0 1280) low == bits ctl 39 35 then
    some { seq := bits low 8 0, ack := bits low 17 9, nak := bitB low 18, vc := bits low 21 19,
           flits := (List.range (bits low 26 22)).map fun i => slice d (64 * i) 64,
           crVc := bits low 29 27, crCount := bits low 34 30 }
  else none

def oPort (p : Nat) : Nat := oNl + 0x40 * p

/-- States in which a port sends blocks (R427). -/
def sendsBlocks (p : LPort) : Bool :=
  p.st == .active || p.st == .discovery || p.st == .inert || p.st == .held

/-- The next block a port can send: the lowest VC that has flits and credits (log entry 14), credits to return, ACK and
NAK; none when it has neither flits nor news. With it, the buffers that its flits leave. -/
def nextBlock (p : LPort) (news : Bool) : Option (LBlock × LPort × List (Nat × Nat)) :=
  let vc := leastBelow 6 fun v => !(SMap.get [] p.txq v).isEmpty && decide (0 < SMap.get 0 p.credits v)
  let cr := leastBelow 6 fun v => decide (0 < SMap.get 0 p.giveBack v)
  if !sendsBlocks p || decide (256 ≤ p.unacked.length) || (vc == none && cr == none && !p.nak && !news) then none
  else
    let v := vc.getD 0
    let q := SMap.get [] p.txq v
    let n := if vc == none then 0 else Nat.min 20 (Nat.min q.length (SMap.get 0 p.credits v))
    let cv := cr.getD 0
    let cn := Nat.min 31 (SMap.get 0 p.giveBack cv)
    let b : LBlock := { seq := p.txSeq, ack := (p.rxSeq + 511) % 512, nak := p.nak, vc := v, flits := (q.take n).map (·.data),
                        crVc := cv, crCount := cn }
    some (b, { p with
      txSeq := (p.txSeq + 1) % 512
      unacked := p.unacked ++ [{ block := b, sends := 1 }]
      txq := SMap.put [] p.txq v (q.drop n)
      credits := SMap.put 0 p.credits v (SMap.get 0 p.credits v - n)
      giveBack := SMap.put 0 p.giveBack cv (SMap.get 0 p.giveBack cv - cn)
      nak := false }, (q.take n).filterMap (·.src))

/-- Returns flit credits on a VC. -/
def creditsBack (s : State) (p v n : Nat) : State :=
  updLink s p fun x => { x with giveBack := SMap.upd 0 x.giveBack v (· + n) }

/-- Flits leave the buffers that held them (R415). -/
def flitsGone (s : State) (os : List (Nat × Nat)) : State := os.foldl (fun s o => creditsBack s o.1 o.2 1) s

/-- Sends blocks until a port has nothing more that it may send. -/
def pumpN : Nat → State → Nat → Bool → State
  | 0, s, _, _ => s
  | k + 1, s, p, news =>
    match nextBlock (getLink s p) news with
    | none => s
    | some (b, q, os) =>
      let s := flitsGone (updLink s p fun _ => q) os
      let s := bump (emit s (.linkBlock p (blockBytes b))) (oPort p + 0x30) b.flits.length
      pumpN k s p false

/-- What a port sends now, `news` when an acknowledgement is due; ports whose buffers it has emptied return the credits. -/
def pump (s : State) (p : Nat) (news : Bool) : State :=
  (List.range 32).foldl (fun s q => if (getLink s q).giveBack.isEmpty then s else pumpN 1024 s q false) (pumpN 1024 s p news)

/-- A packet whose flits still arrive holds a VC of a port (R415). -/
def vcHeld (s : State) (p v : Nat) : Bool := s.links.streams.any fun t => t.outPort == some p && t.outVc == v

/-- Flits join those that wait on a VC of a port. -/
def queueFlits (s : State) (p v : Nat) (fs : List TFlit) : State :=
  updLink s p fun x => { x with txq := SMap.upd [] x.txq v (· ++ fs) }

/-- Queues a packet of this device on a port, on its virtual channel, and sends what may leave. -/
def sendOn (s : State) (p : Nat) (k : Pkt) : State :=
  let v := vcOf (hdrOf k.hdr)
  let fs : List TFlit := (k.hdr :: flitsOf k.payload).map fun d => { data := d }
  if vcHeld s p v then updLink s p fun x => { x with behind := SMap.upd [] x.behind v (· ++ fs) }
  else pump (queueFlits s p v fs) p false

/-- Puts a packet into the router (R420). -/
def inject (s : State) (k : Pkt) : State :=
  { s with links := { s.links with queue := s.links.queue ++ [(none, k)] } }

/-- Ports in a state, ascending. -/
def portsIn (s : State) (st : PState) : List Nat := (List.range 32).filter fun p => (getLink s p).st == st

/-- The plan's port record of plan port `p`, in the ID part in use (R424, R425). -/
def planPort (s : State) (p : Nat) : List Byte := slice s.links.idPart (64 + 16 * p) 16

def portRole (s : State) (p : Nat) : Nat := leAt (planPort s p) 0 1

/-- FABRIC_READY (R431): the plan is loaded, an ID is held, every REQUIRED port in use is ACTIVE. -/
def fabricReady (s : State) : Bool :=
  s.links.planLoaded && s.links.hasId &&
  allBelow 32 fun q =>
    let r := planPort s q
    leAt r 2 1 != 0 || leAt r 0 1 == 0 ||
    !allBelow 32 fun p => !((getLink s p).st == .active && (getLink s p).planPort == q)

end Sys2Proof.Machine
end

