-- ==== Sys2Proof/Machine/Translate.lean ====
section
/-!
DEFINITION. The memory of a context: what R340 and R549 to R550 let it reach, and the write-back cache of its CACHE
slices (R346 to R348).
-/

namespace Sys2Proof.Machine

/-- Owner of frame `f`, as context + 1; 0 for none (R542). -/
def frameOwner (s : State) (f : Nat) : Nat := SMap.get 0 s.host.frames f

/-- SPARE of HBM_SPARE_CFG, and the first address above usable HBM (R357). -/
def spareWithheld (s : State) : Bool := bitB (regOf s (oHbm + 0x20)) 0

def hbmEnd (s : State) : Nat := if spareWithheld s then 0x5A00000000 else 0x6000000000

/-- A translated page: its physical address, and the attributes of its level-2 entry (R549). -/
structure Page where
  pa : Nat
  write : Bool
  cacheable : Bool
  deriving DecidableEq, Repr

/-- The two-level walk of R549; none for an entry that R550 treats as invalid, writes apart. -/
def translate (s : State) (c va : Nat) : Option Page :=
  let x := getCtx s c
  let e1 := leNat (readPhys s (x.ptRoot + 8 * (va / 2 ^ 30)) 8)
  let l2 := e1 &&& 0x7FFFFFF000
  let e2 := leNat (readPhys s (l2 + 8 * (va / 2 ^ 21 % 512)) 8)
  let f := bits e2 38 21
  if 0x6000000000 ≤ va then none
  else if !bitB e1 0 || !onlyBits e1 0x7FFFFFF001 || frameOwner s (l2 / 2 ^ 21) != c + 1 then none
  else if !bitB e2 0 || !onlyBits e2 0x7FFFE00007 || decide (hbmEnd s ≤ f * 2 ^ 21) then none
  else if frameOwner s f == c + 1 || (x.eval && frameOwner s f == x.evalOf + 1 && !bitB e2 1) then
    some { pa := f * 2 ^ 21 + va % 2 ^ 21, write := bitB e2 1, cacheable := bitB e2 2 }
  else none

/-- The location of a context's address under R340 and R550; none where R342 gives the outcome. -/
def locate (s : State) (c va : Nat) (write : Bool) : Option Loc :=
  if va < 0x6000000000 then
    match translate s c va with
    | some p => if write && !p.write then none else some (.hbm p.pa p.cacheable)
    | none => none
  else if 0x100000000000 ≤ va && va < 0x100080000000 then
    let n := (va - 0x100000000000) / 0x2000000
    let z := getSlice s n
    if n < 58 && z.lease == some c && !z.cache then some (.cistern va) else none
  else if 0x200000000000 ≤ va && va < 0x200100000000 then
    let j := (va - 0x200000000000) / 0x100000
    if va % 0x100000 < 0x80000 && holdsJet s c j then some (.jlm va) else none
  else none

/-- REFUSED of CIS_ERR_STATUS: an access was refused under R340 or R348. -/
def cisRefused (s : State) : State := setBit s (oCis + 0x100) 2

/-- The parts of a range that lie in different blocks of `w` bytes. -/
def partsOf (w a n : Nat) : List (Nat × Nat) :=
  (List.range (n / w + 2)).filterMap fun i =>
    let lo := Nat.max a ((a / w + i) * w)
    let hi := Nat.min (a + n) ((a / w + i + 1) * w)
    if lo < hi then some (lo, hi - lo) else none

/-- Every byte of a range is accessible: the first one, and the first of every further part, as every region, page and
backing boundary is a multiple of 512 KiB. -/
def reachable (s : State) (c va n : Nat) (write : Bool) : Bool :=
  n == 0 || (locate s c va write).isSome && (partsOf 0x80000 va n).all fun p => (locate s c p.1 write).isSome

/-- As `reachable`, and no page of the range is CACHEABLE (R348). -/
def reachableUncached (s : State) (c va n : Nat) (write : Bool) : Bool :=
  n == 0 || (locate s c va write).isSome && (partsOf 0x80000 va n).all fun p =>
    match locate s c p.1 write with
    | some (.hbm _ true) => false
    | some _ => true
    | none => false

/-- The CACHE slices of a context, ascending. -/
def cacheSlices (s : State) (c : Nat) : List Nat :=
  (s.mem.slices.filter fun e => e.2.lease == some c && e.2.cache).map (·.1)

/-- The home slice of a line (R347). -/
def homeSlice (ns : List Nat) (pa : Nat) : Nat :=
  let fold := bits pa 22 7 ^^^ bits pa 38 23 ^^^ bits pa 47 39
  ns.getD (fold % ns.length) 0

/-- Writes a dirty line back and removes the line. -/
def dropLine (s : State) (k : Nat) : State :=
  match SMap.get none s.mem.cache k with
  | none => s
  | some l =>
    let s := if l.dirty then writePhys s (k * 128) l.data else s
    { s with mem := { s.mem with cache := SMap.put none s.mem.cache k none } }

/-- Writes back and invalidates every line of a slice (R346). -/
def flushSlice (s : State) (n : Nat) : State :=
  (s.mem.cache.filter fun e => (e.2.map (·.slice)) == some n).foldl (fun s e => dropLine s e.1) s

/-- Brings line `k` into slice `n`, evicting a line of a full set (R347; set and victim: log entry 6). -/
def fillLine (s : State) (n k : Nat) : State :=
  match SMap.get none s.mem.cache k with
  | some _ => bump s (oCis + 0x110) 1
  | none =>
    let same := s.mem.cache.filter fun e =>
      (e.2.map (·.slice)) == some n && Config.cacheSet e.1 == Config.cacheSet k
    let s := if 16 ≤ same.length then
        let v := (same.map (·.1)).getD (Config.cacheVictim s.mem.evictions % 16) 0
        let s := dropLine s v
        { s with mem := { s.mem with evictions := s.mem.evictions + 1 } }
      else s
    let l : Line := { slice := n, dirty := false, data := readPhys s (k * 128) 128 }
    bump { s with mem := { s.mem with cache := SMap.put none s.mem.cache k (some l) } } (oCis + 0x118) 1

def lineData (s : State) (k : Nat) : List Byte :=
  match SMap.get none s.mem.cache k with
  | some l => l.data
  | none => readPhys s (k * 128) 128

/-- A read of bytes of one 128-byte line at a location, by a context's CACHE slices `ns`. -/
def readLoc (s : State) (ns : List Nat) (l : Loc) (n : Nat) : List Byte × State :=
  match l with
  | .hbm pa true =>
    if ns.isEmpty then (readPhys s pa n, s)
    else
      let s := fillLine s (homeSlice ns pa) (pa / 128)
      (slice (lineData s (pa / 128)) (pa % 128) n, s)
  | .hbm pa false => (readPhys s pa n, s)
  | .cistern pa => (readPhys s pa n, s)
  | .jlm pa => (readPhys s pa n, s)

/-- A write of bytes of one 128-byte line at a location. -/
def writeLoc (s : State) (ns : List Nat) (l : Loc) (bs : List Byte) : State :=
  match l with
  | .hbm pa true =>
    if ns.isEmpty then writePhys s pa bs
    else
      let k := pa / 128
      let n := homeSlice ns pa
      let s := fillLine s n k
      let x : Line := { slice := n, dirty := true, data := patch (lineData s k) (pa % 128) bs }
      { s with mem := { s.mem with cache := SMap.put none s.mem.cache k (some x) } }
  | .hbm pa false => writePhys s pa bs
  | .cistern pa => writePhys s pa bs
  | .jlm pa => writePhys s pa bs

/-- Reads a range at context addresses, line by line through the home slice of a CACHEABLE page (R348); none when a byte
is not accessible. -/
def ctxRead (s : State) (c va n : Nat) : Option (List Byte × State) :=
  if reachable s c va n false then
    some <| (partsOf 128 va n).foldl (fun (r : List Byte × State) p =>
      match locate r.2 c p.1 false with
      | some l => let (bs, s) := readLoc r.2 (cacheSlices r.2 c) l p.2; (r.1 ++ bs, s)
      | none => r) ([], s)
  else none

/-- Writes a range at context addresses; none, with nothing written, when a byte may not be written. -/
def ctxWrite (s : State) (c va : Nat) (bs : List Byte) : Option State :=
  if reachable s c va bs.length true then
    some <| (partsOf 128 va bs.length).foldl (fun s p =>
      match locate s c p.1 true with
      | some l => writeLoc s (cacheSlices s c) l (slice bs (p.1 - va) p.2)
      | none => s) s
  else none

/-- The physical address of a context's address in memory that is not CACHEABLE, as weirs, sluices and link ports reach
it (R348). -/
def physOf (s : State) (c va : Nat) (write : Bool) : Option Nat :=
  match locate s c va write with
  | some (.hbm pa false) => some pa
  | some (.cistern pa) => some pa
  | some (.jlm pa) => some pa
  | _ => none

end Sys2Proof.Machine
end

