-- ==== Sys2Proof/Machine/Halt.lean ====
section
/-!
DEFINITION. Event records, the halt of a context, error records, recovery and containment (R541, R565, R606, R208, R447 to
R466): what every unit does with a failure.
-/

namespace Sys2Proof.Machine

/-- Whether a host range lies wholly in one of a context's host windows (R552). -/
def inWindow (s : State) (c addr n : Nat) : Bool :=
  (getCtx s c).windows.any fun e =>
    decide (0 < e.2.2) && decide (e.2.1 ≤ addr) && decide (addr + n ≤ e.2.1 + e.2.2)

/-- Clears a basin as a context abort does (R208). -/
def abortBasin (s : State) (b : Nat) : State :=
  let empty (k : Bank) : Bank := if k.st == .loading then {} else k
  let s := updBasin s b fun x => { x with
    queue := [], passes := [], array := [], replay := [], seg := [], replayLeft := 0, drains := [], reloads := []
    retire := none, loading := none, groups := [], colOpen := none, halted := false
    front := if x.token then x.sel else x.front, token := false
    bank0 := empty x.bank0, bank1 := empty x.bank1
    acc := [], stack := [], terms := 0, shAcc := [], shStack := [], shTerms := 0 }
  let s := updSpout s b fun x => { x with passes := [], groups := [], units := [], notes := [], heldWrites := [], poisoned := false }
  (List.range 16).foldl (fun s p => updRowPort s (b * 16 + p) fun q => { q with held := [] }) s

/-- Messages in the buffers of a context's saved jets. -/
def savedMsgs (v : Option Save) : Nat := ((v.map fun v => v.chans.map fun e => e.2.msgs.length).getD []).sum

/-- Messages that no channel takes any more are counted (R58, R606). -/
def countDiscards (s : State) (n : Nat) : State :=
  if n = 0 then s else setBit (bump s (oJet + 0x58) n) (oJet + 0x50) 1

/-- Returns the jets that `p` holds of to the state in which nothing runs on them (R606). A message or a row segment on its way loses
its connection, so that nothing takes it where it arrives. -/
def clearJets (s : State) (p : Nat → Bool) : State :=
  let lost := (s.jets.chans.map fun e => if p (e.1 / 256) then e.2.msgs.length else 0).sum
  let gone (ep : Nat) : Bool := decide (ep < 4096) && p ep
  let goneReq (r : ConnReq) : Bool := gone r.dst || (decide (r.srcIdx < 2 ^ 16) && gone r.src)
  let s := orphanWops s fun w => p (w / 256)
  let s := { s with
    jets := { s.jets with
      threads := SMap.clear (fun k => p (k / 256)) s.jets.threads
      chans := SMap.clear (fun k => p (k / 256)) s.jets.chans
      conns := s.jets.conns.filter fun e => !(gone (e.1 / 65536) || gone e.2.dst)
      ports := s.jets.ports.filterMap fun e =>
        let q := { e.2 with conns := e.2.conns.filter fun x => !gone x.1
                            held := e.2.held.filter fun x => !p x.jet }
        if q = {} then none else some (e.1, q)
      msgs := s.jets.msgs.map fun m => if gone m.src || gone m.dst then { m with srcIdx := goneIdx } else m
      reqs := s.jets.reqs.filter fun r => !goneReq r
      held := s.jets.held.filter fun r => !goneReq r
      grants := s.jets.grants.filter fun g => !gone g.ep
      credits := s.jets.credits.filter fun g => !gone g.1 }
    host := { s.host with ports := s.host.ports.map fun e =>
      (e.1, { e.2 with conns := e.2.conns.filter fun x => !gone x.1 }) } }
  countDiscards s lost

/-- What a halt or QUIESCE discards of a context: commands, a commit in progress, jets, basins, collectives, weir regions
and the save area (R541, R606, R208, R370, R458). A barrier object is cleared with its generation (log entry 142). -/
def abandon (s : State) (c : Nat) : State :=
  let ts := (List.range 8).filter fun t => holdsTerrace s c t
  let s := clearJets s fun j => ts.contains (j / 512)
  let gone (k : Nat) : Bool :=
    let scope := k / 2 ^ 32
    let owner := k / 2 ^ 16 % 2 ^ 16
    (scope == 0 && ts.contains (owner / 512)) || (scope == 1 && ts.contains owner) || (scope == 2 && owner == c)
  let s := { s with jets := { s.jets with bars := SMap.clear gone s.jets.bars } }
  let s := ((List.range 6).filter fun b => (getBasin s b).lease == some c).foldl abortBasin s
  let s := { s with
    mem := { s.mem with
      regions := s.mem.regions.filter fun e => (e.2.map (·.ctx)) != some c
      notes := s.mem.notes.filter fun n => n.ctx != c }
    sluice := { s.sluice with commits := s.sluice.commits.filter fun m => m.ctx != c }
    links := { s.links with
      colls := s.links.colls.filter fun m => m.ctx != c
      early := s.links.early.filter fun m => m.1 != c } }
  let s := countDiscards s (savedMsgs (getCtx s c).save + savedMsgs (getCtx s c).kept)
  updCtx s c fun x => { x with cmds := [], saved := false, save := none, kept := none }

/-- An admin operation of a port completes with a CODE (R542, R566). -/
def adminDone (s : State) (p code : Nat) : State :=
  emit (updPort s p fun x => { x with busy := false, code }) (.msix p 0)

/-- A SUSPEND that waits for its pre-emption ends without it: BAD_STATE (log entry 46). -/
def endSuspend (s : State) (c : Nat) : State :=
  if (getCtx s c).suspending then
    adminDone (updCtx s c fun x => { x with suspending := false }) ((portOf s c).getD 0) 2
  else s

def haltCore (s : State) (c reason : Nat) : State :=
  updCtx (endSuspend (abandon s c) c) c fun x => { x with st := .halted, haltReason := reason }

/-- Writes an event record into a context's queue (R565, R566); a record that its windows do not admit halts the context
(R552). -/
def postEvent (s : State) (c kind slot : Nat) (detail : List Byte) : State :=
  let x := getCtx s c
  let p := (portOf s c).getD 0
  let used := (x.evqTail - x.evqHead).toNat
  let addr := x.evqBase + 64 * (x.evqTail.toNat % 2 ^ x.evqLog2)
  let rec64 := toLe 2 kind ++ toLe 2 c ++ toLe 4 slot ++ slice detail 0 56
  if x.st == .free then s
  else if 2 ^ x.evqLog2 ≤ used then
    hifFlag (updCtx s c fun x => { x with evqLost := x.evqLost + 1 }) p 5
  else if inWindow s c addr 64 then
    let raises := x.armed && used == 0
    let s := emit s (.hostWrite p addr rec64)
    let s := updCtx s c fun x => { x with evqTail := x.evqTail + 1, armed := x.armed && !raises }
    if raises then emit s (.msix p (1 + (c - (getPort s p).ctxFirst))) else s
  else if x.st == .halted then hifFlag s p 2
  else hifFlag (haltCore s c 3) p 2

/-- HALTED (R540, R541): nothing for a context that is free or halted already. -/
def haltOne (s : State) (c reason slot err : Nat) : State :=
  let x := getCtx s c
  if x.st == .free || x.st == .halted then s
  else postEvent (haltCore s c reason) c 3 slot (toLe 1 reason ++ [0] ++ toLe 2 err)

/-- A context enters HALTED; a window it has open closes and its evaluation context is aborted (R568). -/
def halt (s : State) (c reason slot err : Nat) : State :=
  let w := (getCtx s c).window
  let s := haltOne s c reason slot err
  match w with
  | none => s
  | some e =>
    let s := updCtx s c fun x => { x with window := none }
    let s := updCtx s e fun x => { x with windowOpen := false }
    haltOne s e 1 0xFFFFFFFF 0

/-- The chanter aborts a context's kernel (R541). -/
def abortKernel (s : State) (c : Nat) : State := halt s c 1 0xFFFFFFFF 0

/-! Error records (R447, R448). -/

/-- Which contexts an event touches (R448). -/
inductive Touch where
  | terrace (t : Nat)
  | basin (b : Nat)
  | slice (n : Nat)
  | all
  deriving DecidableEq, Repr

def touches (s : State) (w : Touch) (c : Nat) : Bool :=
  let l := (getCtx s c).lease
  match w with
  | .terrace t => bitB l.terraces t
  | .basin b => bitB l.basins b
  | .slice n => if 58 ≤ n then bitB l.basins (n - 58) else bitB l.slices n
  | .all => true

def codeSev (code : Nat) : Nat :=
  if code < 0x20 then 0 else if code < 0x40 then 1 else if code < 0x60 then 2 else if code < 0x80 then 3 else 4

def ErrRec.bytes (r : ErrRec) : List Byte :=
  toLe 2 r.code ++ toLe 1 r.sev ++ toLe 1 r.unit ++ toLe 2 r.inst ++ toLe 2 r.dev ++ toLe 4 r.secs ++ toLe 4 r.epoch

def mkErr (s : State) (code unit inst dev : Nat) : ErrRec :=
  { code, sev := codeSev code, unit, inst, dev, secs := s.ledger.opsec, epoch := s.recov.epoch }

/-- Reports an error record: ledger, CFG_ counters and flags, and the ERROR events of R448. -/
def noteErr (s : State) (r : ErrRec) (w : Touch) : State :=
  let s := ledgerRecord s (0x100 + r.code) 0 (slice r.bytes 0 12)
  let s := if r.sev = 4 then s else bump s (oCfg + 0x120 + 8 * r.sev) 1
  if r.sev = 0 then s
  else
    let s := setBit s (oCfg + 0x104) (r.sev - 1)
    let s := setReg s (oCfg + 0x108) (r.code + 2 ^ 12 * r.sev + 2 ^ 15 * r.unit + 2 ^ 19 * (r.inst % 8192))
    if r.sev = 1 then s
    else ((created s).filter fun c => touches s w c || r.sev == 3).foldl
      (fun s c => postEvent s c 0x0A 0xFFFFFFFF r.bytes) s

/-- Containment (R466): links fenced and their traffic lost, units stopped, FAULT# driven, the queue discarded. -/
def contain (s : State) : State :=
  let s := { s with
    links := { s.links with
      ports := s.links.ports.map fun e =>
        (e.1, { e.2 with st := .disabled, unacked := [], txq := [], behind := [], rx := [], skip := [], credits := [], giveBack := [] })
      queue := [], inbox := [], streams := [] }
    recov := { s.recov with st := .contained, sev := 4, queue := [], fault := true } }
  let s := (List.range 8).foldl (fun s t => updTerrace s t fun x => { x with stopped := true }) s
  let s := { s with jets := { s.jets with threads := s.jets.threads.map fun e => (e.1, stopThread e.2) } }
  (List.range 6).foldl (fun s b => updBasin s b fun x => { x with stopped := true }) s

/-- An S4 event (R453, R465). -/
def raiseS4 (s : State) (code unit inst : Nat) : State :=
  if s.recov.st == .contained then noteErr s (mkErr s code unit inst s.links.devId) .all
  else contain (noteErr s (mkErr s code unit inst s.links.devId) .all)

/-- The recovery notice (R456), which holds up to 16 lost devices. -/
def noticeOf (s : State) (lost : List Nat) (origin dst : Nat) : Pkt :=
  let ids := lost.take 16
  { hdr := ({ dstDev := dst, srcDev := s.links.devId, dstEp := 0x6000, srcEp := 0x6000, kind := 1, len := 1 } : Hdr).bytes
    payload := slice (toLe 4 s.recov.epoch ++ toLe 2 origin ++ toLe 1 ids.length ++
                      (ids.map (toLe 2)).flatten) 0 64 }

/-- Sends the notice on every ACTIVE port but one (R456). -/
def sendNotices (s : State) (lost : List Nat) (origin : Nat) (but : Option Nat) : State :=
  ((portsIn s .active).filter fun p => some p != but).foldl
    (fun s p => sendOn s p (noticeOf s lost origin (getLink s p).nbrDev)) s

def addIds (l : List Nat) (ids : List Nat) : List Nat := ids.foldl (fun l i => if l.contains i then l else l ++ [i]) l

/-- BUDDY of the ID part (R425). -/
def buddyDev (s : State) : Nat := leAt s.links.idPart 4 2
def protectedDev (s : State) : Nat := leAt s.links.idPart 6 2

/-- The device's buddy and the device that it protects, as far as the plan names them: none with RESERVE 0, and its own ID names no device
(R425). -/
def buddyIds (s : State) : List Nat :=
  if bits (regOf s (oSlc + 8)) 21 18 = 0 then []
  else [buddyDev s, protectedDev s].filter (· != s.links.devId)

/-- Whether a context's group table, remote channel map, buddy or protected device names a lost device (R457). -/
def namesLost (s : State) (c : Nat) (ids : List Nat) : Bool :=
  let x := getCtx s c
  let rd (va n : Nat) : List Byte := match ctxRead s c va n with | some r => r.1 | none => []
  let groups := (List.range 256).any fun g =>
    let e := rd (x.groupBase + 64 * g) 16
    bitB (leAt e 0 1) 0 && (List.range (leAt e 4 2)).any fun q =>
      ids.contains (leAt (rd (leAt e 8 6 + 2 * q) 2) 0 2)
  let remote := (List.range 256).any fun k =>
    let e := leAt (rd (x.remoteBase + 8 * k) 8) 0 8
    bitB e 40 && ids.contains (bits e 14 0)
  groups || remote || (buddyIds s).any ids.contains

/-- Contexts a recovery covers (R457). -/
def coveredBy (s : State) (isLocal : Bool) (ids : List Nat) : List Nat :=
  (created s).filter fun c => isLocal || ((getCtx s c).fabric && namesLost s c ids)

/-- QUIESCE of one context (R458); a covered context without fabric access is aborted with CONTEXT_LOST (R457). -/
def quiesce (s : State) (c : Nat) : State :=
  if (getCtx s c).fabric then
    updCtx (endSuspend (abandon s c) c) c fun x =>
      { x with st := if x.st == .running then .ready else x.st, window := none, windowOpen := false }
  else
    let s := noteErr s (mkErr s 0x06E 9 0 s.links.devId) .all
    halt s c 6 0xFFFFFFFF 0x06E

/-- Every context a recovery covers is aborted: the job cannot recover (R464). -/
def jobLost (s : State) : State :=
  let s := setBit (noteErr s (mkErr s 0x06F 9 0 s.links.devId) .all) (oCfg + 0x104) 5
  let s := s.recov.covered.foldl (fun s c => halt s c 7 0xFFFFFFFF 0x06F) s
  { s with recov := { s.recov with
    st := .normal, sev := if s.recov.queue.isEmpty then 0 else 2, restarts := 0, lost := [], covered := [], localFaults := []
    restored := false, wdogs := 0 } }

/-- A lost device and its buddy are lost in one recovery, as far as this device's plan names them (R464). -/
def buddyLost (s : State) (ids : List Nat) : Bool :=
  s.links.hasId && ids.contains s.links.devId && (buddyIds s).any ids.contains

/-- The buddy is lost while it restores this device: the restore fails (R470). -/
def restoreLost (s : State) (ids : List Nat) : Bool :=
  s.recov.st == .restore && (buddyIds s).contains (buddyDev s) && ids.contains (buddyDev s)

/-- Every evaluation window closes (R470). -/
def closeWindows (s : State) : State :=
  (created s).foldl (fun s c => updCtx s c fun x => { x with window := none, windowOpen := false }) s

/-- A recovery starts or restarts at QUIESCE with the union of the lost devices (R453, R456 to R458, R470). -/
def startRecovery (s : State) (isLocal : Bool) (ids : List Nat) (rs : List ErrRec) : State :=
  let idle := s.recov.st == .normal
  let failed := restoreLost s ids
  let lost := addIds s.recov.lost ids
  let cov := addIds s.recov.covered (coveredBy s isLocal lost)
  let s := { s with recov := { s.recov with
    st := .quiesce, sev := 3, lost, covered := cov, localFaults := s.recov.localFaults ++ rs, restored := false
    seen := addIds (if idle then [] else s.recov.seen) ids, detect := if idle then s.ticks else s.recov.detect } }
  let s := closeWindows (cov.foldl quiesce s)
  let s := { s with
    links := { s.links with bars := if cov.isEmpty then s.links.bars else [] }
    jets := { s.jets with bars := SMap.clear (fun k => !cov.isEmpty && k / 2 ^ 32 == 3) s.jets.bars }
    sluice := { s.sluice with buddy := if cov.isEmpty then s.sluice.buddy else none } }
  if 16 < lost.length || buddyLost s lost || failed then jobLost s else s

/-- A local S3 event (R452 to R456). -/
def raiseS3 (s : State) (code unit inst : Nat) (w : Touch) : State :=
  let r := mkErr s code unit inst s.links.devId
  let s := noteErr s r w
  let busy := s.recov.st != .normal
  if s.recov.st == .contained then s
  else if busy && decide (3 ≤ s.recov.restarts) then
    raiseS4 { s with recov := { s.recov with failed := true } } 0x080 9 0
  else
    let s := { s with recov := { s.recov with
      epoch := (s.recov.epoch + 1) % 2 ^ 32, restarts := if busy then s.recov.restarts + 1 else 0 } }
    let lost := addIds s.recov.lost [s.links.devId]
    sendNotices (startRecovery s true [s.links.devId] [r]) lost s.links.devId none

/-- A fabric event of R423, R440 or R441 that names lost devices: no repair here, and not a local event of R454. A recovery that runs starts
again only for a device not yet lost (R453). -/
def fabricEvent (s : State) (port : Nat) (ids : List Nat) : State :=
  let s := setBit (noteErr s (mkErr s 0x06A 8 port s.links.devId) .all) (oNl + 0x810) 3
  if s.recov.st == .contained then s
  else
    let s := { s with recov := { s.recov with epoch := (s.recov.epoch + 1) % 2 ^ 32 } }
    let lost := addIds s.recov.lost ids
    let s := if s.recov.st == .normal || ids.any fun i => !s.recov.lost.contains i then startRecovery s false ids [] else s
    sendNotices s lost s.links.devId none

/-- An S2 event: reported and queued; a full queue makes it an S3 event (R453, R455). -/
def raiseS2 (s : State) (code unit inst : Nat) (w : Touch) : State :=
  let r := mkErr s code unit inst s.links.devId
  let s := noteErr s r w
  if s.recov.st == .contained then s
  else if 16 ≤ s.recov.queue.length then raiseS3 s 0x06D 9 0 .all
  else { s with recov := { s.recov with queue := s.recov.queue ++ [r]
                                        sev := if s.recov.st == .normal then 2 else s.recov.sev } }

/-- An error event by its code (R445, R471). -/
def raise (s : State) (code unit inst : Nat) (w : Touch) : State :=
  if codeSev code ≤ 1 then noteErr s (mkErr s code unit inst s.links.devId) w
  else if codeSev code = 2 then raiseS2 s code unit inst w
  else if codeSev code = 3 then raiseS3 s code unit inst w
  else raiseS4 s code unit inst

/-- A context is held by a recovery that has not reached RESUME (R458, R568). -/
def heldByRecovery (s : State) (c : Nat) : Bool :=
  s.recov.st != .normal && s.recov.st != .resume && s.recov.covered.contains c

end Sys2Proof.Machine
end

