-- ==== Sys2Proof/Machine/Bellows.lean ====
section
/-!
DEFINITION. What the bellows computes from its state: limits, guarded operation, the bubble law, the target operating point, the ratios in
force and the throttle reasons (R472 to R497).
-/

namespace Sys2Proof.Machine

/-! Settings (PWR_ registers). -/

/-- Fused limit of a rail, in mA (R472). -/
def fusedLimit (r : Nat) : Nat :=
  [1600000, 220000, 180000, 200000, 12000, 340000, 25000].getD r 0

/-- LIMIT of a rail in mA, which a configuration never raises above the fused one (R472), and its window in 100-ns values (PWR_RAIL_CFG). -/
def railLimit (s : State) (r : Nat) : Nat := Nat.min (fusedLimit r) (100 * bits (regOf s (oPwr + 0x20 + 4 * r)) 15 0)
def railWindow (s : State) (r : Nat) : Nat := 10 * bits (regOf s (oPwr + 0x20 + 4 * r)) 21 16

/-- The ceiling of the chassis class, and the cap in force, in watts (R485, R486). -/
def ceiling (s : State) : Nat := bits (regOf s (oPwr + 0x10)) 24 14
def capWatts (s : State) : Nat := Nat.min (ceiling s) (bits (regOf s (oPwr + 0x0C)) 10 0)
def capWindow (s : State) : Nat := 10 * bits (regOf s (oPwr + 0x10)) 13 0

def defaultOp (s : State) : Nat := bits (regOf s (oPwr + 0x14)) 2 0
def idleOp (s : State) : Nat := bits (regOf s (oPwr + 0x14)) 5 3
def opMax (s : State) : Nat := bits (regOf s (oPwr + 0x14)) 8 6
def tjTarget (s : State) : Nat := bits (regOf s (oPwr + 0x14)) 15 9
def hbmTarget (s : State) : Nat := bits (regOf s (oPwr + 0x14)) 22 16

/-! Controllers (R477, R478, R496). -/

def getCtl (s : State) (i : Nat) : Ctl := SMap.get {} s.power.ctl i

def updPower (s : State) (f : Power → Power) : State := { s with power := f s.power }

def setCtl (s : State) (i : Nat) (c : Ctl) : State := updPower s fun p => { p with ctl := SMap.put {} p.ctl i c }

/-- A rail's model is stale (R476). -/
def isStale (s : State) (r : Nat) : Bool := SMap.get false s.power.stale r
def anyStale (s : State) : Bool := (List.range 7).any (isStale s)

/-- Guarded operation of every controller at OP0 (R25, R466, R496, and until the configuration lock R516). -/
def guardOp0 (s : State) : Bool := s.recov.tbLost || s.recov.st == .contained || !s.boot.locked

/-- A stale model guards controller `i`: 0 to 4 the rails, 5 the cap (R496). -/
def staleCtl (s : State) (i : Nat) : Bool := if i = 5 then anyStale s else isStale s i

/-- Controller `i` is guarded (R496). -/
def guarded (s : State) (i : Nat) : Bool := guardOp0 s || staleCtl s i

/-- What controller `i` limits: its limit in mA or mW, and its window in 100-ns values. -/
def ctlLimit (s : State) (i : Nat) : Nat := if i = 5 then 1000 * capWatts s else railLimit s i
def ctlWindow (s : State) (i : Nat) : Nat := if i = 5 then capWindow s else railWindow s i

/-- The latest measurement of what controller `i` limits. -/
def measured (s : State) (i : Nat) : Nat := if i = 5 then s.power.watts else SMap.get 0 s.power.amps i

/-- β' of R478 in 64ths, before the limit of 56: `room` is qt − fixed and `span` q100 − fixed, in one unit. -/
def raiseBeta (b : Nat) (room span : Int) : Nat :=
  64 - Int.toNat (((64 - b : Nat) : Int) * max room 0 / span)

/-- The update of one controller (R478), guarded as R496 states; the ratio that R478 leaves without a value is a free one (log entry 16). -/
def ctlUpdate (s : State) (i : Nat) (e : Estimate) : State :=
  let c := getCtl s i
  let g := guarded s i
  let n := ctlWindow s i
  let q := if staleCtl s i then Nat.max e.q (measured s i) else e.q
  let qw := if g then 0 else (c.window.take (n - 1)).sum
  let m := if g then 1 else n
  let lim := (if g then 85 else 100) * ctlLimit s i
  let pred100 := 100 * (qw + q)
  let c' : Ctl := { c with window := (q :: c.window).take (n - 1), sinceRelease := c.sinceRelease + 1 }
  let room : Int := (lim * m : Nat) - (100 * qw : Nat) - (100 * e.fixed : Nat)
  let span : Int := (100 * q : Nat) - (100 * e.fixed : Nat)
  if lim * m < pred100 then
    if span ≤ 0 then setCtl (fresh s) i { c' with demand := Nat.min (Config.bubbleCorner s.free) 56 }
    else setCtl s i { c' with demand := Nat.min (raiseBeta c.demand room span) 56 }
  else if 100 * pred100 ≤ 95 * (lim * m) && 0 < c.demand && Nat.max n 10 ≤ c'.sinceRelease then
    setCtl s i { c' with demand := c.demand - 1, sinceRelease := 0 }
  else setCtl s i c'

/-! Ratios in force (R372, R477, R488, R490). -/

def ctlDemand (s : State) (i : Nat) : Nat := (getCtl s i).demand
def getZone (s : State) (n : Nat) : Region14 := SMap.get {} s.power.regions n
def getGroup (s : State) (n : Nat) : Group8 := SMap.get {} s.power.groups n

/-- Thermal groups of a basin (R371). -/
def basinGroups (b : Nat) : List Nat := [[0, 1], [1, 2], [2, 3], [4, 5], [5, 6], [6, 7]].getD b []

/-- The demands that every basin and terrace shares. -/
def sharedDemand (s : State) : Nat :=
  Nat.max (Nat.max (ctlDemand s 0) (ctlDemand s 1)) (Nat.max (ctlDemand s 5) s.power.brakeDemand)

/-- The ratio of a terrace (0 to 7), of a basin (8 to 13), in 64ths. -/
def ratioOf (s : State) (u : Nat) : Nat :=
  let gs := if u < 8 then [u] else basinGroups (u - 8)
  Nat.min 56 ((gs.map fun g => (getGroup s g).demand).foldl Nat.max (Nat.max (sharedDemand s) (getZone s u).demand))

/-- The ratio of a stack's traffic limit. -/
def stackRatio (s : State) (n : Nat) : Nat :=
  Nat.min 56 (Nat.max (getGroup s n).demand (Nat.max (ctlDemand s 2) (Nat.max (ctlDemand s 3) (ctlDemand s 4))))

/-- The largest ratio at any unit. -/
def betaMax (s : State) : Nat :=
  Nat.max (((List.range 14).map (ratioOf s)).foldl Nat.max 0) (((List.range 8).map (stackRatio s)).foldl Nat.max 0)

/-- A droop freezes the VCORE command (R488). -/
def frozenCmd (s : State) : Bool := (List.range 14).any fun n => (getZone s n).inDroop || (getZone s n).held

/-! The operating point (R482, R483). -/

/-- The hint of a context for its current phase. -/
def ctxHint (s : State) (c : Nat) : Nat :=
  let x := getCtx s c
  let h := x.hints.getD x.phase 0xFF
  if h = 0xFF then defaultOp s else h

/-- The device hint. -/
def deviceHint (s : State) : Nat :=
  match (created s).filter fun c => (getCtx s c).lease.terraces != 0 || (getCtx s c).lease.basins != 0 with
  | [] => idleOp s
  | l => (l.map (ctxHint s)).foldl Nat.max 0

/-- The target OP. -/
def targetOp (s : State) : Nat :=
  if guardOp0 s then 0
  else Nat.min (Nat.min (deviceHint s) (opMax s)) (Nat.min s.power.govCap s.power.govTherm)

/-! Throttle reasons (R497). -/

/-- A thermal group whose demand is non-zero with a term above zero. -/
def hotGroup (s : State) (stack : Bool) : Option Nat :=
  leastBelow 8 fun g =>
    let x := getGroup s g
    x.demand != 0 && decide (0 < (if stack then x.stackOver else x.junctionOver))

/-- Whether reason `n` is active, with its rail, group or region (0 where it has none). -/
def reasonNow (s : State) (n : Nat) : Option Nat :=
  let on (b : Bool) (src : Nat) : Option Nat := if b then some src else none
  let rail (r : Nat) : Option Nat := on (ctlDemand s r != 0) r
  match n with
  | 0 => on (ctlDemand s 5 != 0) 0
  | 1 => rail 0
  | 2 => rail 1
  | 3 => ([2, 3, 4].find? fun r => ctlDemand s r != 0)
  | 4 => hotGroup s false
  | 5 => hotGroup s true
  | 6 => leastBelow 14 fun g => (getZone s g).demand != 0
  | 7 => on (s.power.brakeDemand != 0) 0
  | 8 => on s.power.brakeHeld 0
  | 9 => on (decide (s.power.govCap < deviceHint s)) 0
  | 10 => on (decide (s.power.govTherm < deviceHint s)) 0
  | 11 => leastBelow 7 (isStale s)
  | 12 => on (guardOp0 s && s.boot.locked) 0
  | 13 => on (decide (opMax s < deviceHint s)) 0
  | _ => none

/-- One reason's change: its bits, its event, and at the end of an activation its ledger record (R497, R501). A BRAKE# assertion is
recorded when it ends (R495). -/
def noteReason (s : State) (n : Nat) : State :=
  let was := bitB s.power.active n
  match reasonNow s n with
  | some src =>
    if was then s
    else
      let s := updPower s fun p => { p with
        active := p.active ||| 2 ^ n, activeAt := SMap.put 0 p.activeAt n s.ticks, activeSrc := SMap.put 0 p.activeSrc n src }
      emit (setBit s (oPwr + 0x08) n) (.pldmEvent n true)
  | none =>
    if !was then s
    else
      let t := (s.ticks - SMap.get 0 s.power.activeAt n) / 50
      let src := SMap.get 0 s.power.activeSrc n
      let s := updPower s fun p => { p with active := p.active - 2 ^ n }
      let s := emit s (.pldmEvent n false)
      if n = 7 then s else ledgerRecord s (0x020 + n) t (toLe 1 src)

/-- Every reason follows the state. -/
def settle (s : State) : State := if s.boot.inReset then s else (List.range 14).foldl noteReason s

end Sys2Proof.Machine
end

