-- ==== Sys2Proof/Machine/Flags.lean ====
section
/-!
DEFINITION. Sticky flags, result words and the binary32 functions of the jets with the flags that they raise (R82, R93, R94,
R103, R117).
-/

namespace Sys2Proof.Machine

/-- Flag masks in the order of the state word: NV, DZ, OF, UF, NX (R117). -/
def fNV : Nat := 1
def fDZ : Nat := 2
def fOF : Nat := 4
def fUF : Nat := 8
def fNX : Nat := 16

/-- A result word: STATUS in [7:0], VALUE above (R82). -/
def resultWord (status value : Nat) : Word := BitVec.ofNat 64 (status + 256 * value)

def stOk : Nat := 0
def stNoCredit : Nat := 1
def stNoMsg : Nat := 2
def stRefused : Nat := 3
def stFull : Nat := 4
def stNoThread : Nat := 5
def stBroken : Nat := 6
def stDisconnected : Nat := 7

/-- A signalling NaN of a format with IEEE specials. -/
def isSNaN (f : Fmt) (n : Nat) : Bool :=
  (match f.decode n with | .nan => true | _ => false) && !n.testBit (f.fb - 1)

/-- Underflow of an inexact result: tiny before or after rounding; where the two differ Config decides (log entry 15). -/
def tiny (f : Fmt) (m : Nat) (e : Int) : Bool :=
  let emin : Int := 1 - f.bias
  let before := decide (lead m e < emin)
  let q := (roundUnits .rne m e (lead m e - f.fb)).1
  let after := decide ((if q = 2 ^ (f.fb + 1) then lead m e + 1 else lead m e) < emin)
  if before == after then before else Config.tinyBefore

/-- An exact result rounded to nearest even into a format, with OF, UF and NX (R93, R103). -/
def roundFlags (f : Fmt) (v : FVal) : Nat × Nat :=
  match v with
  | .fin _ m e =>
    if m = 0 then (f.ieeeRound v, 0)
    else
      let (k, inex) := f.encMag .rne m e
      if f.maxMag < k then (f.ieeeRound v, fOF ||| fNX)
      else if inex then (f.ieeeRound v, if tiny f m e then fUF ||| fNX else fNX)
      else (f.ieeeRound v, 0)
  | _ => (f.ieeeRound v, 0)

def isNaN : FVal → Bool
  | .nan => true
  | _ => false

/-- NV of an operation whose exact result is `v`: a signalling operand, or a NaN from operands that are none. -/
def invalid (f : Fmt) (ops : List Nat) (v : FVal) : Nat :=
  if ops.any (isSNaN f) || (isNaN v && !(ops.any fun n => isNaN (f.decode n))) then fNV else 0

/-- An operation on binary32 operands with the exact result `v`. -/
def f32Op (ops : List Nat) (v : FVal) : Nat × Nat :=
  let (r, fl) := roundFlags f32 v
  (r, fl ||| invalid f32 ops v)

def fadd (a b : Nat) : Nat × Nat := f32Op [a, b] ((f32.decode a).add (f32.decode b))
def fsub (a b : Nat) : Nat × Nat := f32Op [a, b] ((f32.decode a).add (f32.decode b).neg)
def fmul (a b : Nat) : Nat × Nat := f32Op [a, b] ((f32.decode a).mul (f32.decode b))

/-- d + a × b in a format, exact before its one rounding, with the NV rule of a fused multiply-add. -/
def fmaIn (src dst : Fmt) (d a b : Nat) : Nat × Nat :=
  let p := (src.decode a).mul (src.decode b)
  let v := (src.decode d).add p
  let (r, fl) := roundFlags dst v
  let quiet := isNaN (src.decode d) && isNaN p && !isNaN (src.decode a) && !isNaN (src.decode b)
  (r, fl ||| invalid src [d, a, b] v ||| (if quiet && Config.fmaNanInvalid then fNV else 0))

def ffma (d a b : Nat) : Nat × Nat := fmaIn f32 f32 d a b

def fdiv (a b : Nat) : Nat × Nat :=
  let x := f32.decode a
  let y := f32.decode b
  let (r, fl) := f32Op [a, b] (x.div y)
  (r, if x.isFin && !x.isZero && y.isZero then fDZ else fl)

def fsqrt (a : Nat) : Nat × Nat :=
  let x := f32.decode a
  let (r, fl) := f32Op [a] x.sqrt
  (r, fl &&& (fNV ||| fNX))

/-- Whether `a` is taken as the lesser: −0 is less than +0 (R93). -/
def lesser (f : Fmt) (a b : Nat) : Bool :=
  let x := f.decode a
  let y := f.decode b
  x.lt y || (x.eq y && x.isNeg)

/-- FMIN and FMAX (R93, R94) in a format; `mx` for the greater. -/
def fminmax (f : Fmt) (mx : Bool) (a b : Nat) : Nat × Nat :=
  let na := isNaN (f.decode a)
  let nb := isNaN (f.decode b)
  let r := if na && nb then f.nanBits else if na then b else if nb then a
    else if lesser f a b != mx then a else b
  (r, if isSNaN f a || isSNaN f b then fNV else 0)

/-- A value rounded to a signed integer of `w` bits, saturated: NaN gives 0 (R93, R107). `sat` is the flag of
saturation: NV for FCVTI, OF for vectors. -/
def toIntFlags (w : Nat) (sat : Nat) (v : FVal) : Int × Nat :=
  let lo : Int := -(2 ^ (w - 1) : Nat)
  let hi : Int := (2 ^ (w - 1) : Nat) - 1
  match v with
  | .nan => (0, fNV)
  | .inf n => (if n then lo else hi, sat)
  | .fin n m e =>
    let (z, inex) := roundInt .rne n m e
    if z < lo then (lo, sat) else if hi < z then (hi, sat) else (z, if inex then fNX else 0)

/-- FCVTI: 64 bits (R93). -/
def fcvti (a : Nat) : Nat × Nat :=
  let (z, fl) := toIntFlags 64 fNV (f32.decode a)
  (ofSigned 64 z, fl)

/-- FCVTF of a signed 64-bit integer (R93). -/
def fcvtf (a : Int) : Nat × Nat := roundFlags f32 (ofIntF a)

end Sys2Proof.Machine
end

