-- ==== Sys2Proof/Machine/FabricOps.lean ====
section
/-!
DEFINITION. Barrier objects and fabric barrier trees (R60 to R65, R112 to R115, R439, R440), and the completion of a ring
command (R556, R557).
-/

namespace Sys2Proof.Machine

/-! Ring commands. -/

def cmdHdr (c : Cmd) : Nat := leAt c.raw 0 8
def cmdOp (c : Cmd) : Nat := bits (cmdHdr c) 7 0

/-- A command completes: its counter, then its COMPLETE event (R556, R557). -/
def completeCmd (s : State) (c slot : Nat) : State :=
  match (getCtx s c).cmds.find? fun m => m.slot == slot with
  | none => s
  | some m =>
    let h := cmdHdr m
    let s := updCtx s c fun x => { x with
      cmds := x.cmds.filter fun m => m.slot != slot
      counters := if bitB h 20 then SMap.upd 0 x.counters (bits h 19 16) (· + 1) else x.counters }
    if bitB h 21 then postEvent s c 0x01 slot [] else s

/-! Barrier objects. -/

/-- Key of a barrier object. -/
def barKey (scope owner idx : Nat) : Nat := scope * 2 ^ 32 + owner * 2 ^ 16 + idx

/-- A fabric barrier that the plan configures, for a context whose JOB_START has completed (R112, R562). -/
def fabricBarOk (s : State) (c b : Nat) : Bool :=
  decide (b < 16) && s.links.planLoaded && bitB (leAt s.links.idPart 14 2) b && (getCtx s c).jobStarted

/-- The object that a handle names for a thread of context `c` on jet `j`; none outside its scope (R112). -/
def handleKey (s : State) (c j h : Nat) : Option Nat :=
  let idx := bits h 15 0
  let scope := bits h 17 16
  if 2 ^ 18 ≤ h then none
  else match scope with
    | 0 => if idx < 32 then some (barKey 0 j idx) else none
    | 1 => if idx < 64 then some (barKey 1 (j / 512) idx) else none
    | 2 => if idx < 16 then some (barKey 2 c idx) else none
    | _ => if fabricBarOk s c idx then some (barKey 3 0 idx) else none

/-- Largest member count of a scope (R60); R60 gives none for the local threads of a fabric object (log entry 140). -/
def maxMembers (scope : Nat) : Nat :=
  if scope = 0 then 256 else if scope = 1 then 131072 else if scope = 2 then 1048576 else 1048576

/-- The generation of a barrier object; a fabric one has the device's (R63, R440). -/
def barGen (s : State) (k : Nat) : BitVec 16 :=
  if k / 2 ^ 32 = 3 then (getFBar s (k % 2 ^ 16)).gen else (getBar s k).gen

/-- A thread's waiting instruction ends: register writes, then the next instruction (R35, R84); on a terrace that is stopped, the
thread stops before it (R71). -/
def endWait (s : State) (j t : Nat) (ws : List (Nat × Word)) : State :=
  let stop := (getTerrace s (j / 512)).stopped
  updThread s j t fun x => { x with
    st := if stop then .stopped else .ready, back := if stop then .ready else x.back
    wait := .none, pc := x.pc + 8, stalled := false
    regs := ws.foldl (fun r w => if w.1 = 0 then r else SMap.put 0 r w.1 w.2) x.regs }

/-- The threads that wait in BARWAIT on an object: jet, thread, token, destination register. -/
def barWaiters (s : State) (k : Nat) : List (Nat × Nat × Nat × Nat) :=
  s.jets.threads.filterMap fun e =>
    let j := e.1 / 256
    match e.2.st, e.2.wait with
    | .waitBar, .barwait h tok d =>
      if handleKey s ((ctxOfJet s j).getD 0) j h = some k then some (j, e.1 % 256, tok, d) else none
    | _, _ => none

/-- A token that a generation has passed (R113). -/
def passed (gen : BitVec 16) (tok : Nat) : Bool :=
  let n := (gen - BitVec.ofNat 16 tok).toNat
  decide (1 ≤ n) && decide (n ≤ 32767)

/-- Every waiter of a passed generation returns OK (R63). -/
def wakePassed (s : State) (k : Nat) : State :=
  ((barWaiters s k).filter fun w => passed (barGen s k) w.2.2.1).foldl
    (fun s w => endWait s w.1 w.2.1 [(w.2.2.2, resultWord stOk 0)]) s

/-- An object becomes BROKEN, and every waiter returns BROKEN (R65). -/
def breakBar (s : State) (k : Nat) : State :=
  let s := updBar s k fun b => { b with broken := true }
  (barWaiters s k).foldl (fun s w => endWait s w.1 w.2.1 [(w.2.2.2, resultWord stBroken 0)]) s

/-- A member faults or its jet is lost: every barrier it has joined breaks; `p` tells members by memberId (R65). -/
def breakBarsOf (s : State) (p : Nat → Bool) : State :=
  let ks := (s.jets.bars.filter fun e => e.2.init && !e.2.broken && e.2.joined.any p).map (·.1)
  if ks.isEmpty then s else setBit (ks.foldl breakBar s) (oJet + 0x50) 3

/-! Barrier trees. -/

/-- TREE[b] of the ID part (R425). -/
def treeParent (s : State) (b : Nat) : Nat := leAt s.links.idPart (576 + 72 * b) 2

def treeKids (s : State) (b : Nat) : List Nat :=
  (List.range (leAt s.links.idPart (576 + 72 * b + 2) 1)).map fun i => leAt s.links.idPart (576 + 72 * b + 8 + 2 * i) 2

/-- A BARRIER packet's payload (R440). -/
def barPayload (b op : Nat) (gen : BitVec 16) (mn mx fl : Nat) (ps : List (Nat × Int)) : List Byte :=
  padTo 64 (slice (toLe 1 b ++ toLe 1 op ++ toLe 2 gen.toNat ++ toLe 8 mn ++ toLe 8 mx ++ toLe 1 fl ++
    toLe 2 ps.length) 0 64 ++ (ps.map fun p => toLe 2 p.1 ++ toLe 2 (ofSigned 16 p.2)).flatten)

def barPkt (s : State) (dst : Nat) (pl : List Byte) : Pkt :=
  { hdr := ({ dstDev := dst, srcDev := s.links.devId, dstEp := 0x6000, srcEp := 0x6000, kind := 8,
              len := pl.length / 64 } : Hdr).bytes
    payload := pl }

/-- Merges (record index, amax exponent) pairs, amax by maximum (R440). -/
def mergePairs (a b : List (Nat × Int)) : List (Nat × Int) :=
  b.foldl (fun l p =>
    if l.any (·.1 == p.1) then l.map fun q => if q.1 = p.1 then (q.1, max q.2 p.2) else q
    else l.takeWhile (fun q => decide (q.1 < p.1)) ++ p :: l.dropWhile (fun q => decide (q.1 < p.1))) a

/-- Combines one arrival into a barrier (R440). -/
def combine (x : FBar) (mn mx fl : Nat) (ps : List (Nat × Int)) : FBar :=
  { x with
    stepMin := if x.any then Nat.min x.stepMin mn else mn
    stepMax := if x.any then Nat.max x.stepMax mx else mx
    flags := x.flags ||| fl, pairs := mergePairs x.pairs ps, any := true }

/-- The device leaves the barrier with the combined values (R439): RELEASE to its children, waiters return, and the arrivals that
it stood for are used up (R63). -/
def fbarLeave (s : State) (b mn mx fl : Nat) (ps : List (Nat × Int)) : State :=
  let gen := (getFBar s b).gen
  let s := (treeKids s b).foldl (fun s d => inject s (barPkt s d (barPayload b 1 gen mn mx fl ps))) s
  let s := updFBar s b fun x => { x with
    gen := x.gen + 1, here := false, kids := [], up := false, stepMin := 0, stepMax := 0, flags := 0, pairs := []
    any := false, relFlags := fl, relMin := mn, relMax := mx, relPairs := ps, released := true }
  let k := barKey 3 0 b
  let s := updBar s k fun x => { x with arrivals := x.arrivals - x.used, inTree := false, used := 0 }
  wakePassed s k

/-- A device whose local arrivals and children are complete arrives: to its parent, or at the root it releases (R439). -/
def fbarAdvance (s : State) (b : Nat) : State :=
  let x := getFBar s b
  if x.here && !x.up && (treeKids s b).all (x.kids.contains ·) then
    if treeParent s b = 0xFFFF then fbarLeave s b x.stepMin x.stepMax x.flags x.pairs
    else
      let s := inject s (barPkt s (treeParent s b) (barPayload b 0 x.gen x.stepMin x.stepMax x.flags x.pairs))
      updFBar s b fun x => { x with up := true }
  else s

/-- The device's own arrival at a fabric barrier with what it carries. -/
def fbarArrive (s : State) (b mn mx fl : Nat) (ps : List (Nat × Int)) : State :=
  fbarAdvance (updFBar s b fun x => { combine x mn mx fl ps with here := true, since := s.ticks, stalled := false, released := false }) b

/-- The member count is reached (R63): the generation advances, or on a fabric object the device arrives (R115). -/
def barFull (s : State) (k : Nat) : State :=
  if k / 2 ^ 32 = 3 then
    fbarArrive (updBar s k fun b => { b with inTree := true, used := b.arrivals }) (k % 2 ^ 16) 0 0 0 []
  else wakePassed (updBar s k fun b => { b with arrivals := 0, gen := b.gen + 1 }) k

/-- A fabric object whose next generation is complete already when the device leaves the one before (R63, R64, R115). -/
def fbarAgain (s : State) (b : Nat) : State :=
  let x := getBar s (barKey 3 0 b)
  if x.init && !x.broken && !x.inTree && decide (0 < x.members) && decide (x.members ≤ x.arrivals) then barFull s (barKey 3 0 b)
  else s

/-- The device is released from a barrier (R63, R439). -/
def fbarRelease (s : State) (b mn mx fl : Nat) (ps : List (Nat × Int)) : State := fbarAgain (fbarLeave s b mn mx fl ps) b

/-- What an arrival or a release that came while nothing of a context ran has done to its waiters (R63, R65, R70). -/
def wakeBar (s : State) (k : Nat) : State :=
  if (getBar s k).broken then breakBar s k else wakePassed s k

/-- A member thread leaves a barrier (R64). -/
def leaveBar (s : State) (who k : Nat) : State :=
  let b := getBar s k
  let m := b.members - 1
  let s := updBar s k fun b => { b with members := m, joined := b.joined.filter (· != who) }
  if m = 0 then updBar s k fun b => { b with init := false, arrivals := 0 }
  else if b.arrivals = m && !b.broken && !b.inTree then barFull s k
  else s

end Sys2Proof.Machine
end

