-- ==== Sys2Proof/Machine/MemCheck.lean ====
section
/-!
DEFINITION. The checks of memory reads: the SECDED words of jet-local memory and the cistern, the symbol code of HBM, and the
retirement of a pseudo-channel (R343, R345, R349 to R358).
-/

namespace Sys2Proof.Machine

/-! Retirement (R355 to R358). -/

/-- Lines of a pseudo-channel below the spare area (R357). -/
def pcLines : Nat := 23592960

/-- A spare is left in a stack: none has been retired, and the spare area is withheld (R357). -/
def spareLeft (s : State) (n : Nat) : Bool :=
  spareWithheld s && (getStack s n).retiredPc.isNone && (getStack s n).pendingRetire.isNone

/-- The `o`-th spare line of a stack whose pseudo-channel `pc` is retired: ascending offset, then ascending pseudo-channel (R357). -/
def spareLine (pc o : Nat) : Nat × Nat :=
  let q := o % 31
  (if q < pc then q else q + 1, pcLines + o / 31)

/-- Pseudo-channel and line offset that hold the line of an HBM address: a copied line of a retired pseudo-channel lies at its spare
location (R349, R355, R357). -/
def linePlace (s : State) (a : Nat) : Nat × Nat :=
  let x := getStack s (bits a 13 11)
  let pc := bits a 10 6
  let o := bits a 38 14
  if x.retiredPc = some pc && decide (o < x.copied) then spareLine pc o else (pc, o)

/-- Retires a pseudo-channel by copy, or finds no spare; one that is being retired already goes on (R355, R356, R358). -/
def retirePc (s : State) (stack pc : Nat) : State :=
  if (getStack s stack).retiredPc = some pc then s
  else if spareLeft s stack then
    let s := updStack s stack fun x => { x with retiredPc := some pc, migrating := true, copied := 0 }
    let s := { s with mem := { s.mem with migrateStack := stack, migrateLines := 0 } }
    raise s 0x042 4 stack .all
  else raise (setBit s (oHbm + 0x30) 5) 0x063 4 stack .all

/-- Corrections of the present interval on the lanes of a pseudo-channel. -/
def pcCorrections (x : Stack) (pc : Nat) : Nat := ((x.corr.filter fun e => e.1 / 128 == pc).map (·.2)).sum

/-- A correction falls on one of the 32 data lanes: the limits of R355 and R356. -/
def laneCorrected (s : State) (stack pc lane : Nat) : State :=
  let limit := regOf s (oHbm + 0x28) % 65536
  let k := pc * 128 + lane
  let s := updStack s stack fun x => { x with corr := SMap.upd 0 x.corr k (· + 1) }
  let x := getStack s stack
  if x.retiredPc = some pc then s
  else if SMap.get 0 x.corr k = limit && !x.marked.contains k then
    let s := setBit (updStack s stack fun x => { x with marked := x.marked ++ [k] }) (oHbm + 0x30) 2
    retirePc s stack pc
  else if pcCorrections x pc = 2 * limit then retirePc s stack pc
  else s

/-- An uncorrectable HBM read (R354): S3, and its pseudo-channel is retired before the device rejoins (R356). -/
def hbmLost (s : State) (stack pc : Nat) : State :=
  let s := if spareLeft s stack then updStack s stack fun x => { x with pendingRetire := some pc } else s
  raise (setBit s (oHbm + 0x30) 4) 0x062 4 stack .all

/-! The outcomes of a check. -/

/-- What the decoder makes of the wrong symbols of a line: how many it corrects, none when it cannot. With a marked lane it corrects
both symbols of that lane and up to 2 others, else up to 3 (R351; more than it detects: log entry 127). -/
def decodes (marked : Option Nat) (wrong : List Nat) : Option Nat :=
  let ws := (wrong.filter (· < 72)).eraseDups
  let others := match marked with
    | none => ws
    | some l => ws.filter fun e => e / 2 != l
  if others.length ≤ (if marked.isSome then 2 else 3) then some ws.length else none

/-- The marked data lane of a pseudo-channel (R355). -/
def markedLane (x : Stack) (pc : Nat) : Option Nat := (x.marked.find? fun k => k / 128 == pc).map (· % 128)

/-- A read of an HBM line with wrong symbols: corrected ones are counted, and those of data lanes by lane (R351, R353 to R356). -/
def hbmFault (s : State) (a : Nat) (wrong : List Nat) : Bool × State :=
  let n := bits a 13 11
  let pc := (linePlace s a).1
  match decodes (markedLane (getStack s n) pc) wrong with
  | none => (false, hbmLost s n pc)
  | some 0 => (true, s)
  | some k =>
    let s := raise (bump (setBit s (oHbm + 0x30) 0) (oHbm + 0x40) k) 0x004 4 n .all
    (true, ((wrong.filter (· < 64)).eraseDups).foldl (fun s e => laneCorrected s n pc (e / 2)) s)

/-- A read of a word of slice `n` with wrong bits: one is corrected, two are not (R345). -/
def sliceFault (s : State) (n : Nat) (wrong : List Nat) : Bool × State :=
  let k := ((wrong.filter (· < 72)).eraseDups).length
  if k = 0 then (true, s)
  else if k = 1 then (true, raise (bump (setBit s (oCis + 0x100) 0) (oCis + 0x108) 1) 0x003 3 n (.slice n))
  else (false, raise (setBit s (oCis + 0x100) 1) 0x061 3 n (.slice n))

/-- A read of a word of jet `j`'s memory with wrong bits (R343). -/
def jlmFault (s : State) (j : Nat) (wrong : List Nat) : Bool × State :=
  let k := ((wrong.filter (· < 72)).eraseDups).length
  if k = 0 then (true, s)
  else if k = 1 then (true, raise s 0x002 0 (physJet s j) (.terrace (j / 512)))
  else (false, raise s 0x060 0 (physJet s j) (.terrace (j / 512)))

/-- The slice that holds a copy of the line of an HBM address (R347). -/
def holdingSlice (s : State) (a : Nat) : Option Nat := (SMap.get none s.mem.cache (a / 128)).map (·.slice)

/-- What a read finds wrong, and whether its data can be used. A line that a CACHE slice holds is read from that slice. -/
def memFault (s : State) (f : MemFault) : Bool × State :=
  if f.addr < 0x6000000000 then
    match holdingSlice s f.addr with
    | some n => sliceFault s n f.wrong
    | none => hbmFault s f.addr f.wrong
  else if sliceBase 0 ≤ f.addr && f.addr < sliceBase 64 then sliceFault s ((f.addr - sliceBase 0) / 0x2000000) f.wrong
  else if jlmBase 0 ≤ f.addr && f.addr < jlmBase 4096 && f.addr % 0x100000 < 0x80000 then
    jlmFault s ((f.addr - jlmBase 0) / 0x100000) f.wrong
  else (true, s)

/-- The checks of the reads of one step, as far as the first uncorrectable one. -/
def memChecks : List MemFault → State → Bool × State
  | [], s => (true, s)
  | f :: fs, s =>
    match memFault s f with
    | (true, s) => memChecks fs s
    | (false, s) => (false, s)

/-- The events of the checks have neither started a recovery nor stopped a context. -/
def undisturbed (s r : State) : Bool :=
  r.recov.st == s.recov.st && r.recov.epoch == s.recov.epoch && (created s).all fun c => (getCtx r c).st == (getCtx s c).st

/-- A step that reads memory: with an uncorrectable read the unit uses none of its data (R343, R345, R354), and it goes no further
where an event of the checks has stopped it. -/
def memFaults (fs : List MemFault) (s : State) (k : State → State) : State :=
  match memChecks fs s with
  | (true, r) => if undisturbed s r then k r else r
  | (false, r) => r

/-- With nothing wrong, a step that reads memory is that step. -/
theorem memFaults_nil (s : State) (k : State → State) : memFaults [] s k = k s := by
  simp [memFaults, memChecks, undisturbed]

/-- The faults in the jet-local memories, and those elsewhere. -/
def jlmFaults (fs : List MemFault) : List MemFault := fs.filter fun f => decide (jlmBase 0 ≤ f.addr)
def farFaults (fs : List MemFault) : List MemFault := fs.filter fun f => decide (f.addr < jlmBase 0)

end Sys2Proof.Machine
end

