-- ==== Sys2Proof/Machine/Operands.lean ====
section
/-!
DEFINITION. The jet instruction word: its fields, and which words are reserved (R77 to R79 and the operand rules of chapter
03).
-/

namespace Sys2Proof.Machine

/-- The fields of R77. -/
structure Fields where
  op : Nat
  ge : Bool
  gn : Bool
  gp : Nat
  d : Nat
  a : Nat
  b : Nat
  fn : Nat
  imm : Nat
  deriving DecidableEq, Repr

def fieldsOf (w : Word) : Fields :=
  let n := w.toNat
  { op := bits n 63 58, ge := bitB n 57, gn := bitB n 56, gp := bits n 55 53, d := bits n 52 49,
    a := bits n 48 45, b := bits n 44 41, fn := bits n 40 32, imm := bits n 31 0 }

/-- The word that carries the fields. -/
def wordOf (f : Fields) : Word :=
  BitVec.ofNat 64 (f.op * 2 ^ 58 + b2n f.ge * 2 ^ 57 + b2n f.gn * 2 ^ 56 + f.gp * 2 ^ 53 + f.d * 2 ^ 49
    + f.a * 2 ^ 45 + f.b * 2 ^ 41 + f.fn * 2 ^ 32 + f.imm)

/-- IMM sign-extended to 64 bits. -/
def Fields.simm (f : Fields) : Int := toSigned 32 f.imm

/-- IMM subfields of vector instructions (R101). -/
def Fields.count (f : Fields) : Nat := bits f.imm 15 0
def Fields.creg (f : Fields) : Nat := bits f.imm 19 16
def Fields.vty (f : Fields) : Nat := bits f.imm 22 20

/-- A WOP's operation, type and mode agree (R100). -/
def wopOk (fn : Nat) : Bool :=
  let o := bits fn 1 0
  let t := bits fn 4 2
  let m := bits fn 6 5
  decide (fn < 128) && decide (o ≤ 2) && decide (t ≤ 5) && decide (m ≤ 2) &&
  ((m == 2) == decide (4 ≤ t)) && (m != 2 || o == 0)

/-- The rules of one class on its own fields: OP and FN defined, unused fields and reserved IMM subfields zero (R79). -/
def classOk (f : Fields) : Bool :=
  let z (l : List Nat) : Bool := l.all (· == 0)
  match f.op with
  | 0x01 => decide (f.fn ≤ 0x13) && f.imm == 0 && (decide (f.fn < 0x12) || f.b == 0)
  | 0x02 => decide (f.fn ≤ 0x13) && f.b == 0 && (decide (f.fn < 0x12) || f.imm == 0)
  | 0x03 => decide (f.fn ≤ 1) && z [f.a, f.b]
  | 0x04 => (decide (f.fn ≤ 5) || (decide (0x10 ≤ f.fn) && decide (f.fn ≤ 0x13))) && decide (f.d < 8) && f.imm == 0
  | 0x05 => decide (f.fn ≤ 5) && decide (f.d < 8) && f.b == 0
  | 0x06 =>
    f.imm == 0 &&
    (if f.fn ≤ 2 then decide (f.d < 8) && decide (f.a < 8) && decide (f.b < 8)
     else if f.fn = 3 then decide (f.d < 8) && decide (f.a < 8) && f.b == 0
     else if f.fn = 4 then decide (f.d < 8) && f.b == 0
     else f.fn == 5 && z [f.a, f.b])
  | 0x07 => decide (f.fn ≤ 0x0B) && f.imm == 0 && (!([5, 8, 9, 10, 11].contains f.fn) || f.b == 0)
  | 0x08 => decide (f.fn ≤ 1) && z [f.a, f.b] && (f.fn == 1 || f.d == 0)
  | 0x09 => z [f.fn, f.b]
  | 0x0A => decide (f.fn ≤ 6) && f.b == 0
  | 0x0B => decide (f.fn ≤ 3) && f.d == 0
  | 0x0C => decide (f.fn < 32) && decide (f.fn % 16 ≤ 8)
  | 0x0D => decide (f.fn ≤ 1) && z [f.d, f.a, f.b, f.imm]
  | 0x0E => decide (f.fn ≤ 1) && f.b == 0 && decide (1 ≤ f.imm) && decide (f.imm ≤ 4096)
  | 0x0F => wopOk f.fn && f.d == 0 && decide (f.imm < 2 ^ 16) && (bits f.fn 6 5 == 1 || f.imm == 0)
  | 0x10 =>
    decide (f.fn ≤ 8) && decide (f.imm < 2 ^ 23) && decide (f.vty ≤ 4) && decide (1 ≤ f.count) &&
    (f.fn == 4 || f.fn == 8 || f.creg == 0) && (f.fn != 7 || f.b == 0) && (f.fn != 8 || z [f.a, f.b])
  | 0x11 =>
    decide (f.fn ≤ 3) && decide (f.imm < 2 ^ 23) && decide (f.vty ≤ 4) && decide (1 ≤ f.count) && z [f.d, f.b] &&
    (f.fn != 2 || decide (f.vty ≤ 2))
  | 0x12 =>
    decide (f.fn ≤ 4) && decide (f.imm < 2 ^ 23) && decide (f.vty ≤ 4) && decide (1 ≤ f.count) && f.b == 0 &&
    f.creg == 0 && f.fn != f.vty
  | 0x18 =>
    match f.fn with
    | 0x0 => f.d == 0 && decide (f.imm < 2 ^ 21)
    | 0x1 => z [f.d, f.b, f.imm]
    | 0x2 => f.imm == 0
    | 0x3 => z [f.d, f.b, f.imm]
    | 0x4 => decide (f.imm < 2 ^ 20)
    | 0x5 => decide (f.imm < 2 ^ 20)
    | 0x6 => f.imm == 0
    | 0x7 => f.imm == 0
    | 0x8 => f.d % 2 == 0 && z [f.b, f.imm]
    | 0x9 => f.d % 2 == 0 && z [f.b, f.imm]
    | 0xA => f.d % 2 == 0 && f.imm == 0
    | 0xB => f.d % 2 == 0 && f.imm == 0
    | 0xC => z [f.d, f.imm]
    | _ => false
  | 0x19 =>
    match f.fn with
    | 0 => z [f.d, f.imm]
    | 1 => z [f.b, f.imm]
    | 2 => f.imm == 0
    | _ => false
  | 0x1A =>
    match f.fn with
    | 0 => f.imm == 0
    | 1 => f.imm == 0
    | 2 => z [f.d, f.a, f.b, f.imm]
    | 3 => z [f.a, f.b, f.imm]
    | 4 => z [f.d, f.a, f.b, f.imm]
    | _ => false
  | 0x1B =>
    match f.fn with
    | 0 => z [f.a, f.b, f.imm]
    | 2 => z [f.d, f.a, f.b, f.imm]
    | _ => false
  | _ => false

/-- A word that R79 does not reserve. -/
def legal (f : Fields) : Bool := (f.ge || (!f.gn && f.gp == 0)) && classOk f

end Sys2Proof.Machine
end

