-- ==== Sys2Proof/WellFormed.lean ====
section
/-!
DEFINITION. The operand ranges of a command: a unit it names exists. A meaning leaves the state unchanged for a
unit that does not exist (log entry 1), so no rule rests on these checks.
-/

namespace Sys2Proof

/-- An operand that numbers one of `n` units. -/
def inRange (x n : Nat) : Bool := decide (x < n)

/-- A jet, a thread and at least one issue slot. -/
def Issue.wf (i : Issue) : Bool := inRange i.jet 4096 && inRange i.thread 256 && decide (0 < i.parts)

/-- Every unit that the command names exists (R32, R34, R44, R532). -/
def Instr.wf : Instr → Bool
  | .add i => i.wf
  | .sub i => i.wf
  | .andI i => i.wf
  | .orI i => i.wf
  | .xorI i => i.wf
  | .shl i => i.wf
  | .shr i => i.wf
  | .sra i => i.wf
  | .mul i => i.wf
  | .mulhu i => i.wf
  | .div i => i.wf
  | .divu i => i.wf
  | .rem i => i.wf
  | .remu i => i.wf
  | .min i => i.wf
  | .max i => i.wf
  | .minu i => i.wf
  | .maxu i => i.wf
  | .clz i => i.wf
  | .popc i => i.wf
  | .liz i => i.wf
  | .lih i => i.wf
  | .eqI i => i.wf
  | .neI i => i.wf
  | .ltI i => i.wf
  | .ltu i => i.wf
  | .geI i => i.wf
  | .geu i => i.wf
  | .feq i => i.wf
  | .flt i => i.wf
  | .fle i => i.wf
  | .funCmp i => i.wf
  | .pand i => i.wf
  | .por i => i.wf
  | .pxor i => i.wf
  | .pnot i => i.wf
  | .pset i => i.wf
  | .pget i => i.wf
  | .fadd i => i.wf
  | .fsub i => i.wf
  | .fmul i => i.wf
  | .ffma i => i.wf
  | .fdiv i => i.wf
  | .fsqrt i => i.wf
  | .fmin i => i.wf
  | .fmax i => i.wf
  | .fcvti i => i.wf
  | .fcvtf i => i.wf
  | .fabs i => i.wf
  | .fneg i => i.wf
  | .br i => i.wf
  | .jal i => i.wf
  | .ld i => i.wf
  | .st i => i.wf
  | .aadd i => i.wf
  | .aswap i => i.wf
  | .acas i => i.wf
  | .amin i => i.wf
  | .amax i => i.wf
  | .aminu i => i.wf
  | .amaxu i => i.wf
  | .aand i => i.wf
  | .aor i => i.wf
  | .fence i => i.wf
  | .iflush i => i.wf
  | .bulk i => i.wf
  | .wop i => i.wf
  | .vadd i => i.wf
  | .vsub i => i.wf
  | .vmul i => i.wf
  | .vfma i => i.wf
  | .vaxpy i => i.wf
  | .vmax i => i.wf
  | .vmin i => i.wf
  | .vcopy i => i.wf
  | .vfill i => i.wf
  | .vsum i => i.wf
  | .vamax i => i.wf
  | .vchk i => i.wf
  | .vztest i => i.wf
  | .vcvt i => i.wf
  | .chopen i => i.wf
  | .chclose i => i.wf
  | .conn i => i.wf
  | .disc i => i.wf
  | .send i => i.wf
  | .sendNb i => i.wf
  | .feed i => i.wf
  | .feedNb i => i.wf
  | .recv i => i.wf
  | .recvNb i => i.wf
  | .recvs i => i.wf
  | .recvsNb i => i.wf
  | .msgfree i => i.wf
  | .barinit i => i.wf
  | .bararr i => i.wf
  | .barwait i => i.wf
  | .spawnNormal i => i.wf
  | .spawnFeed i => i.wf
  | .exitThread i => i.wf
  | .getst i => i.wf
  | .clrflg i => i.wf
  | .rdtime i => i.wf
  | .poison i => i.wf
  | .memAccessComplete jet thread _ _ => inRange jet 4096 && inRange thread 256
  | .fenceComplete jet thread => inRange jet 4096 && inRange thread 256
  | .hopRetransmit _ _ => true
  | .messageArrival _ slot => inRange slot 2
  | .connectionRequest _ _ => true
  | .connectionGrant _ => true
  | .creditReturn _ => true
  | .waitStall jet thread => inRange jet 4096 && inRange thread 256
  | .jetSubstitution jet _ => inRange jet 4096
  | .launchStart ctx => inRange ctx 1024
  | .terracePreempt ctx => inRange ctx 1024
  | .contextResume ctx => inRange ctx 1024
  | .basinItemCheck b => inRange b 6
  | .passItem b _ => inRange b 6
  | .loadItem b => inRange b 6
  | .loadComplete b _ _ => inRange b 6
  | .signalMark b => inRange b 6
  | .waitMark b => inRange b 6
  | .exchange b => inRange b 6
  | .rootWindow b _ => inRange b 6
  | .rowSegmentArrival _ => true
  | .rowAccept b _ => inRange b 6
  | .zeroRowMarker b _ => inRange b 6
  | .outputRowAtSpout b _ => inRange b 6
  | .rowChecked b _ _ => inRange b 6
  | .rowReplay b _ => inRange b 6
  | .segmentReplay b _ _ => inRange b 6
  | .tokenExit b => inRange b 6
  | .drain b => inRange b 6
  | .drainComplete b => inRange b 6
  | .bankReload b _ => inRange b 6
  | .basinSubstitution b _ => inRange b 6
  | .basinPreempt b => inRange b 6
  | .basinResume b => inRange b 6
  | .feedStall b => inRange b 6
  | .passComplete b _ => inRange b 6
  | .sideRowRead b _ _ => inRange b 6
  | .rowStoreAcquire b => inRange b 6
  | .rowKernelPhase2 b _ _ => inRange b 6
  | .spoutDelivery b _ => inRange b 6
  | .profileApplied b _ => inRange b 6
  | .routeApplied b _ => inRange b 6
  | .weirPlainRequest _ _ _ => true
  | .weirOrderedRequest _ _ _ => true
  | .weirExactPartial _ _ _ => true
  | .notifyDelivery _ => true
  | .jlmScrub _ _ => true
  | .cisternScrub _ _ => true
  | .hbmScrub _ _ _ => true
  | .pcRetirementComplete stack _ => inRange stack 8
  | .hbmParityRetry stack _ _ _ => inRange stack 8
  | .ecsRead _ => true
  | .hbmTempRead stack _ _ => inRange stack 8
  | .rfmRequest stack => inRange stack 8
  | .commitBarrierRelease ctx _ _ => inRange ctx 1024
  | .operandReady _ _ => true
  | .snapshot _ _ => true
  | .checkpointRequest => true
  | .buddyCopy _ => true
  | .linkTrainingComplete port _ => inRange port 32
  | .downRetry port => inRange port 32
  | .discoverySend port => inRange port 32
  | .discoveryRec port => inRange port 32
  | .discoveryTimeout port => inRange port 32
  | .signalLoss port => inRange port 32
  | .linkBlockReceive port _ => inRange port 32
  | .replayTimeout port => inRange port 32
  | .linkRetrain port _ => inRange port 32
  | .creditStall port vc _ => inRange port 32 && inRange vc 16
  | .packetRoute _ => true
  | .messagePkt _ => true
  | .connReq _ => true
  | .connGrant _ => true
  | .msgCredit _ => true
  | .writePkt _ _ => true
  | .weirStream _ => true
  | .collReady _ => true
  | .barrierPkt _ => true
  | .fabricBarrierTimeout _ => true
  | .collectiveComplete ctx => inRange ctx 1024
  | .recoveryNotice _ => true
  | .s2Record _ => true
  | .quiesceComplete => true
  | .repairComplete _ => true
  | .rejoinReady _ _ => true
  | .draftWaitExpiry => true
  | .recoveryBarrierRelease _ => true
  | .restoreComplete _ => true
  | .rollbackReported => true
  | .mgmtWatchdog _ => true
  | .timebaseLost => true
  | .timebaseRestored => true
  | .bellowsUpdate _ => true
  | .currentSample _ _ => true
  | .calibration _ => true
  | .calCompare _ _ => true
  | .opChange => true
  | .rampComplete => true
  | .capGovernorLower => true
  | .capGovernorRaise => true
  | .pwrCap port _ => inRange port 5
  | .droopEnter region => inRange region 14
  | .droopRelease region => inRange region 14
  | .thermalUpdate _ => true
  | .thermalOpLimit => true
  | .thermalTrip _ _ _ => true
  | .currentTrip rail => inRange rail 7
  | .brakeFall => true
  | .brakeQualified => true
  | .brakeRelease => true
  | .brakeHeld => true
  | .energyAttribution _ => true
  | .pldmEffecterWrite _ => true
  | .inputUndervoltage => true
  | .inputOvervoltage => true
  | .inputInRange => true
  | .modRst => true
  | .internalResetRelease => true
  | .configurationLock => true
  | .perst port => inRange port 4
  | .updBegin _ slot => inRange slot 2
  | .updateWrite _ _ _ => true
  | .updFinish _ => true
  | .updateAbort _ => true
  | .svnCommit _ _ => true
  | .getVersion _ => true
  | .getCapabilities _ => true
  | .negotiateAlgorithms _ => true
  | .getDigests _ => true
  | .getCertificate _ => true
  | .chunkGet _ => true
  | .challenge _ => true
  | .getMeasurements _ => true
  | .spdmUnsupported _ => true
  | .readHeader => true
  | .readSlots _ _ => true
  | .ledgerUnsupported _ => true
  | .ledgerFlush _ => true
  | .ledgerLoad _ _ _ _ => true
  | .ldgReadIndex port _ => inRange port 5
  | .counterLowRead port _ _ => inRange port 5
  | .registerWrite port _ _ _ => inRange port 5
  | .bar4Access port _ _ _ _ => inRange port 4
  | .ctxTail port ctx _ => inRange port 4 && inRange ctx 1024
  | .chanterDoorbell _ => true
  | .ctxEvqHead port ctx _ => inRange port 4 && inRange ctx 1024
  | .commandFetched ctx _ _ _ => inRange ctx 1024
  | .ctxCreate port => inRange port 4
  | .ctxDestroy port => inRange port 4
  | .lease port => inRange port 4
  | .frames port => inRange port 4
  | .hostWindow port => inRange port 4
  | .invalidate port => inRange port 4
  | .suspend port => inRange port 4
  | .restart port => inRange port 4
  | .ctxAbort port => inRange port 4
  | .draft port => inRange port 4
  | .contextSchedule ctx => inRange ctx 1024
  | .quantumExpiry ctx => inRange ctx 1024
  | .hostAccessTimeout ctx => inRange ctx 1024
  | .commandStall ctx => inRange ctx 1024
  | .nopCmd ctx => inRange ctx 1024
  | .basinItems ctx => inRange ctx 1024
  | .launchCmd ctx => inRange ctx 1024
  | .profileWrite ctx => inRange ctx 1024
  | .routeWrite ctx => inRange ctx 1024
  | .setCmd ctx => inRange ctx 1024
  | .phaseCmd ctx => inRange ctx 1024
  | .regionDeclare ctx => inRange ctx 1024
  | .regionRelease ctx => inRange ctx 1024
  | .blockInit ctx => inRange ctx 1024
  | .blockRelease ctx => inRange ctx 1024
  | .schedule ctx => inRange ctx 1024
  | .commit ctx _ => inRange ctx 1024
  | .collective ctx _ => inRange ctx 1024
  | .evalOpen ctx => inRange ctx 1024
  | .evalClose ctx => inRange ctx 1024
  | .copyCmd ctx _ _ _ => inRange ctx 1024
  | .waitCmd ctx => inRange ctx 1024
  | .signalCommand ctx => inRange ctx 1024
  | .jobStart ctx => inRange ctx 1024
  | .ovlSelChange level => inRange level 16
  | .brakeRise _ => true
  | .droopEnd region _ => inRange region 14
  | .linkUp port _ _ _ => inRange port 4
  | .hbmTrain stack => inRange stack 8
  | .pcLineCopy stack _ => inRange stack 8

end Sys2Proof
end

