-- ==== Sys2Proof/Machine/JetOps.lean ====
section
/-!
DEFINITION. How a jet issues an instruction: fetch, reserved words, guard, parity, parts; registers, faults and the jet's
own memory (R34 to R42, R73, R74, R77 to R85).
-/

namespace Sys2Proof.Machine

/-- A scalar register; s0 reads as zero (R34). -/
def Thread.reg (x : Thread) (r : Nat) : Word := if r = 0 then 0 else SMap.get 0 x.regs r

/-- Writes a scalar register; s0 ignores it (R34). -/
def Thread.setReg (x : Thread) (r : Nat) (v : Word) : Thread :=
  if r = 0 then x else { x with regs := SMap.put 0 x.regs r v }

def Thread.pred (x : Thread) (p : Nat) : Bool := x.preds.getLsbD p

def Thread.setPred (x : Thread) (p : Nat) (v : Bool) : Thread :=
  { x with preds := if v then x.preds ||| BitVec.ofNat 8 (2 ^ p) else x.preds &&& ~~~ BitVec.ofNat 8 (2 ^ p) }

/-- Sets sticky flags (R117). -/
def Thread.raiseFlags (x : Thread) (fl : Nat) : Thread := { x with flags := x.flags ||| BitVec.ofNat 5 fl }

/-- The instruction completes: the next one, no part left over (R84, R85). -/
def Thread.next (x : Thread) : Thread := { x with pc := x.pc + 8, parts := 0, latch := [] }

/-- Completes the instruction of a thread with changes to its registers. -/
def retire (s : State) (j t : Nat) (f : Thread → Thread) : State := updThread s j t fun x => (f x).next

/-- A thread fault (R73): the code, its event, the barriers it breaks (R65), and at once the abort of the kernel (R541). -/
def threadFault (s : State) (c j t code : Nat) : State :=
  let s := breakBarsOf s fun w => w == memberId c j t
  let s := updThread s j t fun x =>
    { x with st := .faulted, fault := code, wait := .none, parts := 0, latch := [] }
  let s := setBit s (oJet + 0x50) 0
  let s := postEvent s c 0x04 0xFFFFFFFF (toLe 1 code ++ [0] ++ toLe 2 j ++ toLe 1 t)
  abortKernel s c

def fIllegal : Nat := 0x01
def fAccess : Nat := 0x02
def fAlign : Nat := 0x03
def fLease : Nat := 0x04
def fChMode : Nat := 0x05
def fChState : Nat := 0x06
def fMsgLen : Nat := 0x07
def fBarState : Nat := 0x08
def fParity : Nat := 0x09

/-! The issue stage (R36, R37). -/

def getSched (s : State) (j : Nat) : Sched := SMap.get {} s.jets.sched j

/-- The READY threads of a jet in one class, ascending. -/
def readyThreads (s : State) (j : Nat) (feed : Bool) : List Nat :=
  s.jets.threads.filterMap fun e =>
    if e.1 / 256 = j && e.2.st == .ready && e.2.feed == feed then some (e.1 % 256) else none

/-- The lowest-numbered one above the thread that last issued in its class, wrapping from 255 to 0. -/
def nextAbove (ts : List Nat) (last : Nat) : Option Nat := (ts.find? fun t => decide (last < t)).or ts.head?

/-- READY threads exist in both classes: FEED threads get the first three of every four such slots. -/
def contested (s : State) (j : Nat) : Bool := !(readyThreads s j true).isEmpty && !(readyThreads s j false).isEmpty

/-- The thread that the next issue slot of a jet goes to (R36). -/
def nextThread (s : State) (j : Nat) : Option Nat :=
  let q := getSched s j
  let feed := nextAbove (readyThreads s j true) q.lastFeed
  let normal := nextAbove (readyThreads s j false) q.lastNormal
  if contested s j && q.turn == 3 then normal else feed.or normal

/-- An issue slot goes to thread `t` of jet `j` (R36). -/
def takeSlot (s : State) (j t : Nat) : State :=
  let feed := (getThread s j t).feed
  let turn := if contested s j then ((getSched s j).turn + 1) % 4 else (getSched s j).turn
  { s with jets := { s.jets with sched := SMap.upd {} s.jets.sched j fun q =>
    { lastFeed := if feed then t else q.lastFeed, lastNormal := if feed then q.lastNormal else t, turn } } }

/-- Consecutive issue slots that an issue takes: those that the command gives it where no other thread of the jet is READY, else
one (R36, R85). -/
def issueSlots (s : State) (i : Issue) : Nat :=
  if (readyThreads s i.jet true).length + (readyThreads s i.jet false).length ≤ 1 then i.parts else Nat.min i.parts 1

/-- The context whose READY thread issues; none when the slot is not the thread's (R35, R36, R67, R466). -/
def canIssue (s : State) (i : Issue) : Option Nat :=
  if inRange i.jet 4096 && inRange i.thread 256 && decide (0 < i.parts) && unitsRun s &&
      (getThread s i.jet i.thread).st == .ready && nextThread s i.jet == some i.thread &&
      !(getTerrace s (i.jet / 512)).stopped then
    match ctxOfJet s i.jet with
    | some c => if (getCtx s c).st == .running then some c else none
    | none => none
  else none

/-- Key of a jet's cached instruction word. -/
def icKey (j pc : Nat) : Nat := j * 2 ^ 48 + pc

/-- A word enters a jet's instruction cache of 4,096 words; a full one gives up a word (R80; which: log entry 124). -/
def cacheWord (s : State) (j pc : Nat) (w : Word) : State :=
  let mine := s.jets.icache.filter fun e => e.1 / 2 ^ 48 == j && e.1 != icKey j pc
  let m := if mine.length < 4096 then s.jets.icache
    else SMap.put none s.jets.icache ((mine.map (·.1)).getD (Config.icacheVictim j pc % 4096) 0) none
  { s with jets := { s.jets with icache := SMap.put none m (icKey j pc) (some w) } }

/-- What a fetch can return (R80): the cached word, or the memory's word, which is then cached. The issued word must be one
of the two. None for any other word. -/
def fetched (s : State) (c j pc : Nat) (w : Word) : Option State :=
  if SMap.get none s.jets.icache (icKey j pc) == some w then some s
  else
    match ctxRead s c pc 8 with
    | none => none
    | some (bs, s) =>
      if leNat bs = w.toNat then some (cacheWord s j pc w) else none

/-- A fetch address that R80 permits: in cistern or HBM, mapped. -/
def fetchable (s : State) (c pc : Nat) : Bool :=
  match locate s c pc false with
  | some (.jlm _) => false
  | some _ => true
  | none => false

/-- ACCESS for an access of `n` bytes at an address (R342); one that R340 does not permit is noted at the cistern. -/
def accessFault (s : State) (c j t a n : Nat) (write : Bool) : State :=
  threadFault (if reachable s c a n write then s else cisRefused s) c j t fAccess

/-- The guard lets the instruction take effect (R78). -/
def guardOn (x : Thread) (f : Fields) : Bool := !f.ge || (x.pred f.gp != f.gn)

/-- A second parity error on an instruction: DATA_PARITY, and the jet is one that R71 substitutes (R74). -/
def parityFault (s : State) (c j t : Nat) : State :=
  threadFault { s with jets := { s.jets with failed := if s.jets.failed.contains j then s.jets.failed else s.jets.failed ++ [j] } }
    c j t fParity

/-- The issue of one instruction of a row (its OP and FN values) that needs `cost` issue slots, with its effect. The order is
issue slot, fetch, reserved word, row, guard, parity, parts, effect. -/
def issue (row : Nat → Nat → Bool) (cost : Nat) (i : Issue) (s : State)
    (body : State → Nat → Fields → State) : State :=
  match canIssue s i with
  | none => s
  | some c =>
    let j := i.jet
    let t := i.thread
    let x := getThread s j t
    let pc := x.pc.toNat
    let f := fieldsOf i.word
    let q := takeSlot s j t
    if pc % 8 ≠ 0 then threadFault q c j t fAlign
    else if !fetchable s c pc then accessFault q c j t pc 8 false
    else
      match fetched q c j pc i.word with
      | none => s
      | some s' =>
        if legal f && !row f.op f.fn then s
        else memFaults (farFaults i.faults) s' fun s' =>
          if !legal f then threadFault s' c j t fIllegal
          else if !guardOn x f then retire s' j t id
          else
            let s' := if i.parity = 0 then s'
              else setBit (raise s' 0x021 0 (physJet s' j) (.terrace (j / 512))) (oJet + 0x50) 4
            let n := issueSlots s i
            if 2 ≤ i.parity then parityFault s' c j t
            else if x.parts + n < cost then updThread s' j t fun y => { y with parts := y.parts + n }
            else body s' c f

/-- A row of one OP and FN, and one that has a register and an immediate form. -/
def row1 (op fn : Nat) : Nat → Nat → Bool := fun o n => o == op && n == fn
def row2 (op op' fn : Nat) : Nat → Nat → Bool := fun o n => (o == op || o == op') && n == fn

/-- The address A + IMM of a memory instruction, modulo 2^64 (R96, R97). -/
def effAddr (x : Thread) (f : Fields) : Nat := (x.reg f.a + BitVec.ofInt 64 f.simm).toNat

/-- A range wholly inside jet `j`'s own 512 KiB (R41). -/
def ownRange (j a n : Nat) : Bool := decide (jlmBase j ≤ a) && decide (a + n ≤ jlmBase j + 0x80000)

/-- A thread starts to wait. -/
def startWait (s : State) (j t : Nat) (st : ThreadState) (w : Wait) : State :=
  let n := s.jets.waits
  let s := { s with jets := { s.jets with waits := n + 1 } }
  updThread s j t fun x =>
    { x with st, wait := w, since := s.ticks, stalled := false, order := n, parts := 0, latch := [] }

end Sys2Proof.Machine
end

