-- ==== Sys2Proof/Machine/JetScalar.lean ====
section
/-!
DEFINITION. Scalar integer, predicate, binary32 and control-flow instructions of a jet (R88 to R95).
-/

namespace Sys2Proof.Machine

abbrev Res := Host.Outcome State Fault Refusal

/-- Second operand: register B, or IMM extended by the function's rule (R88). -/
def operandB (x : Thread) (f : Fields) : Word :=
  if f.op = 0x02 then (if 2 ≤ f.fn ∧ f.fn ≤ 4 then BitVec.ofNat 64 f.imm else BitVec.ofInt 64 f.simm)
  else if f.op = 0x05 then BitVec.ofInt 64 f.simm
  else x.reg f.b

/-- D = A op B (R88). -/
def alu (fn cost : Nat) (g : Word → Word → Word) (i : Issue) (s : State) : State :=
  issue (row2 0x01 0x02 fn) cost i s fun s _ f =>
    retire s i.jet i.thread fun x => x.setReg f.d (g (x.reg f.a) (operandB x f))

/-- p[D] = A cmp B (R91). -/
def compare (fn : Nat) (g : Word → Word → Bool) (i : Issue) (s : State) : State :=
  issue (row2 0x04 0x05 fn) 1 i s fun s _ f =>
    retire s i.jet i.thread fun x => x.setPred f.d (g (x.reg f.a) (operandB x f))

/-- p[D] = A cmp B on binary32 (R91); no flag. -/
def fcompare (fn : Nat) (g : FVal → FVal → Bool) (i : Issue) (s : State) : State :=
  issue (row1 0x04 fn) 1 i s fun s _ f =>
    retire s i.jet i.thread fun x =>
      x.setPred f.d (g (f32.decode ((x.reg f.a).toNat % 2 ^ 32)) (f32.decode ((x.reg f.b).toNat % 2 ^ 32)))

/-- Predicate logic (R92). -/
def predOp (fn : Nat) (g : Thread → Fields → Thread) (i : Issue) (s : State) : State :=
  issue (row1 0x06 fn) 1 i s fun s _ f => retire s i.jet i.thread fun x => g x f

/-- A binary32 function of D, A and B with its flags (R93). -/
def fop (fn cost : Nat) (g : Nat → Nat → Nat → Nat × Nat) (i : Issue) (s : State) : State :=
  issue (row1 0x07 fn) cost i s fun s _ f =>
    retire s i.jet i.thread fun x =>
      let r := g ((x.reg f.d).toNat % 2 ^ 32) ((x.reg f.a).toNat % 2 ^ 32) ((x.reg f.b).toNat % 2 ^ 32)
      (x.setReg f.d (BitVec.ofNat 64 r.1)).raiseFlags r.2

/-- Shift amount B[5:0]. -/
def shamt (b : Word) : Nat := b.toNat % 64

/-- Signed quotient and remainder (R89). -/
def sdivq (a b : Word) : Word := if b = 0 then BitVec.allOnes 64 else BitVec.ofInt 64 (a.toInt.tdiv b.toInt)
def sremr (a b : Word) : Word := if b = 0 then a else BitVec.ofInt 64 (a.toInt.tmod b.toInt)

/-- Leading zeros of a 64-bit value. -/
def clz64 (a : Word) : Nat := if a = 0 then 64 else 63 - Nat.log2 a.toNat

/-- Set bits. -/
def popc64 (a : Word) : Nat := ((List.range 64).filter fun i => a.getLsbD i).length

/-- ADD (R88, R87). -/
def execAdd (i : Issue) (s : State) : Res := .next (alu 0 1 (fun a b => a + b) i s)

/-- SUB (R88, R87). -/
def execSub (i : Issue) (s : State) : Res := .next (alu 1 1 (fun a b => a - b) i s)

/-- AND (R88, R87). -/
def execAndI (i : Issue) (s : State) : Res := .next (alu 2 1 (fun a b => a &&& b) i s)

/-- OR (R88, R87). -/
def execOrI (i : Issue) (s : State) : Res := .next (alu 3 1 (fun a b => a ||| b) i s)

/-- XOR (R88, R87). -/
def execXorI (i : Issue) (s : State) : Res := .next (alu 4 1 (fun a b => a ^^^ b) i s)

/-- SHL (R88, R87). -/
def execShl (i : Issue) (s : State) : Res := .next (alu 5 1 (fun a b => a <<< shamt b) i s)

/-- SHR (R88, R87). -/
def execShr (i : Issue) (s : State) : Res := .next (alu 6 1 (fun a b => a >>> shamt b) i s)

/-- SRA (R88, R87). -/
def execSra (i : Issue) (s : State) : Res := .next (alu 7 1 (fun a b => a.sshiftRight (shamt b)) i s)

/-- MUL, in two issues (R88, R87). -/
def execMul (i : Issue) (s : State) : Res := .next (alu 8 2 (fun a b => a * b) i s)

/-- MULHU, in two issues (R88, R87). -/
def execMulhu (i : Issue) (s : State) : Res := .next (alu 9 2 (fun a b => BitVec.ofNat 64 (a.toNat * b.toNat / 2 ^ 64)) i s)

/-- DIV, in 16 issues (R88, R89, R87). -/
def execDiv (i : Issue) (s : State) : Res := .next (alu 10 16 (sdivq) i s)

/-- DIVU, in 16 issues (R88, R89, R87). -/
def execDivu (i : Issue) (s : State) : Res := .next (alu 11 16 (fun a b => if b = 0 then BitVec.allOnes 64 else BitVec.ofNat 64 (a.toNat / b.toNat)) i s)

/-- REM, in 16 issues (R88, R89, R87). -/
def execRem (i : Issue) (s : State) : Res := .next (alu 12 16 (sremr) i s)

/-- REMU, in 16 issues (R88, R89, R87). -/
def execRemu (i : Issue) (s : State) : Res := .next (alu 13 16 (fun a b => if b = 0 then a else BitVec.ofNat 64 (a.toNat % b.toNat)) i s)

/-- MIN (R88, R87). -/
def execMin (i : Issue) (s : State) : Res := .next (alu 14 1 (fun a b => if a.toInt < b.toInt then a else b) i s)

/-- MAX (R88, R87). -/
def execMax (i : Issue) (s : State) : Res := .next (alu 15 1 (fun a b => if a.toInt < b.toInt then b else a) i s)

/-- MINU (R88, R87). -/
def execMinu (i : Issue) (s : State) : Res := .next (alu 16 1 (fun a b => if a.toNat < b.toNat then a else b) i s)

/-- MAXU (R88, R87). -/
def execMaxu (i : Issue) (s : State) : Res := .next (alu 17 1 (fun a b => if a.toNat < b.toNat then b else a) i s)

/-- CLZ (R88, R87). -/
def execClz (i : Issue) (s : State) : Res := .next (alu 18 1 (fun a _ => BitVec.ofNat 64 (clz64 a)) i s)

/-- POPC (R88, R87). -/
def execPopc (i : Issue) (s : State) : Res := .next (alu 19 1 (fun a _ => BitVec.ofNat 64 (popc64 a)) i s)

/-- Load immediate (R90). -/
def loadImm (fn : Nat) (g : Word → Nat → Word) (i : Issue) (s : State) : State :=
  issue (row1 0x03 fn) 1 i s fun s _ f =>
    retire s i.jet i.thread fun x => x.setReg f.d (g (x.reg f.d) f.imm)

/-- LIZ (R90). -/
def execLiz (i : Issue) (s : State) : Res := .next (loadImm 0 (fun _ n => BitVec.ofNat 64 n) i s)

/-- LIH (R90). -/
def execLih (i : Issue) (s : State) : Res := .next (loadImm 1 (fun d n => BitVec.ofNat 64 (d.toNat % 2 ^ 32 + 2 ^ 32 * n)) i s)

/-- EQ (R91). -/
def execEqI (i : Issue) (s : State) : Res := .next (compare 0 (fun a b => a == b) i s)

/-- NE (R91). -/
def execNeI (i : Issue) (s : State) : Res := .next (compare 1 (fun a b => a != b) i s)

/-- LT (R91). -/
def execLtI (i : Issue) (s : State) : Res := .next (compare 2 (fun a b => decide (a.toInt < b.toInt)) i s)

/-- LTU (R91). -/
def execLtu (i : Issue) (s : State) : Res := .next (compare 3 (fun a b => decide (a.toNat < b.toNat)) i s)

/-- GE (R91). -/
def execGeI (i : Issue) (s : State) : Res := .next (compare 4 (fun a b => decide (b.toInt ≤ a.toInt)) i s)

/-- GEU (R91). -/
def execGeu (i : Issue) (s : State) : Res := .next (compare 5 (fun a b => decide (b.toNat ≤ a.toNat)) i s)

/-- FEQ (R91). -/
def execFeq (i : Issue) (s : State) : Res := .next (fcompare 16 (fun a b => a.eq b) i s)

/-- FLT (R91). -/
def execFlt (i : Issue) (s : State) : Res := .next (fcompare 17 (fun a b => a.lt b) i s)

/-- FLE (R91). -/
def execFle (i : Issue) (s : State) : Res := .next (fcompare 18 (fun a b => a.lt b || a.eq b) i s)

/-- FUN (R91). -/
def execFunCmp (i : Issue) (s : State) : Res := .next (fcompare 19 (fun a b => isNaN a || isNaN b) i s)

/-- PAND (R92). -/
def execPand (i : Issue) (s : State) : Res := .next (predOp 0 (fun x f => x.setPred f.d (x.pred f.a && x.pred f.b)) i s)

/-- POR (R92). -/
def execPor (i : Issue) (s : State) : Res := .next (predOp 1 (fun x f => x.setPred f.d (x.pred f.a || x.pred f.b)) i s)

/-- PXOR (R92). -/
def execPxor (i : Issue) (s : State) : Res := .next (predOp 2 (fun x f => x.setPred f.d (x.pred f.a != x.pred f.b)) i s)

/-- PNOT (R92). -/
def execPnot (i : Issue) (s : State) : Res := .next (predOp 3 (fun x f => x.setPred f.d (!x.pred f.a)) i s)

/-- PSET (R92). -/
def execPset (i : Issue) (s : State) : Res := .next (predOp 4 (fun x f => x.setPred f.d ((x.reg f.a).getLsbD 0)) i s)

/-- PGET (R92). -/
def execPget (i : Issue) (s : State) : Res := .next (predOp 5 (fun x f => x.setReg f.d (x.preds.setWidth 64)) i s)

/-- FADD (R93, R87). -/
def execFadd (i : Issue) (s : State) : Res := .next (fop 0 1 (fun _ a b => fadd a b) i s)

/-- FSUB (R93, R87). -/
def execFsub (i : Issue) (s : State) : Res := .next (fop 1 1 (fun _ a b => fsub a b) i s)

/-- FMUL (R93, R87). -/
def execFmul (i : Issue) (s : State) : Res := .next (fop 2 1 (fun _ a b => fmul a b) i s)

/-- FFMA (R93, R87). -/
def execFfma (i : Issue) (s : State) : Res := .next (fop 3 1 (fun d a b => ffma d a b) i s)

/-- FDIV, in 12 issues (R93, R87). -/
def execFdiv (i : Issue) (s : State) : Res := .next (fop 4 12 (fun _ a b => fdiv a b) i s)

/-- FSQRT, in 12 issues (R93, R87). -/
def execFsqrt (i : Issue) (s : State) : Res := .next (fop 5 12 (fun _ a _ => fsqrt a) i s)

/-- FMIN (R94) (R93, R87). -/
def execFmin (i : Issue) (s : State) : Res := .next (fop 6 1 (fun _ a b => fminmax f32 false a b) i s)

/-- FMAX (R94) (R93, R87). -/
def execFmax (i : Issue) (s : State) : Res := .next (fop 7 1 (fun _ a b => fminmax f32 true a b) i s)

/-- FCVTI (R93, R87). -/
def execFcvti (i : Issue) (s : State) : Res := .next (fop 8 1 (fun _ a _ => fcvti a) i s)

/-- FCVTF (R93): the whole of A is a signed 64-bit integer. -/
def execFcvtf (i : Issue) (s : State) : Res :=
  .next (issue (row1 0x07 9) 1 i s fun s _ f =>
    retire s i.jet i.thread fun x =>
      let r := fcvtf (x.reg f.a).toInt
      (x.setReg f.d (BitVec.ofNat 64 r.1)).raiseFlags r.2)

/-- FABS (R93). -/
def execFabs (i : Issue) (s : State) : Res := .next (fop 10 1 (fun _ a _ => (a % 2 ^ 31, 0)) i s)

/-- FNEG (R93). -/
def execFneg (i : Issue) (s : State) : Res := .next (fop 11 1 (fun _ a _ => (a ^^^ 2 ^ 31, 0)) i s)

/-- BR (R95): PC + 8 × IMM, with a link when FN[0] is 1. -/
def execBr (i : Issue) (s : State) : Res :=
  .next (issue (fun o n => o == 0x08 && n ≤ 1) 1 i s fun s _ f =>
    updThread s i.jet i.thread fun x =>
      let y := if f.fn = 1 then x.setReg f.d (x.pc + 8) else x
      { y with pc := x.pc + BitVec.ofInt 64 (8 * f.simm), parts := 0, latch := [] })

/-- JAL (R95): A + IMM, with a link in D. -/
def execJal (i : Issue) (s : State) : Res :=
  .next (issue (row1 0x09 0) 1 i s fun s _ f =>
    updThread s i.jet i.thread fun x =>
      let y := x.setReg f.d (x.pc + 8)
      { y with pc := x.reg f.a + BitVec.ofInt 64 f.simm, parts := 0, latch := [] })

end Sys2Proof.Machine
end

