-- ==== Sys2Proof/Machine/PowerRows.lean ====
section
/-!
DEFINITION. The events of the bellows: controllers, measurement and calibration, operating point, cap, droop, thermal control, BRAKE# and
energy (R472 to R503).
-/

namespace Sys2Proof.Machine

/-- An event of the bellows: nothing while the internal reset is asserted; the reasons follow. -/
def bellows (s : State) (f : State → State) : State := if s.boot.inReset then s else settle (f s)

/-! Controllers and the cap governor (R478, R484, R488). -/

/-- The droop demand of a region that no longer responds falls by 1/64 (R488). -/
def releaseZone (s : State) (n : Nat) : State :=
  let z := getZone s n
  if z.inDroop || z.held || z.demand = 0 then s
  else updPower s fun p => { p with regions := SMap.upd {} p.regions n fun z => { z with demand := z.demand - 1 } }

/-- The governor's counts of 100-ns updates (R484). -/
def governorCounts (s : State) : State :=
  let d := ctlDemand s 5
  let low := d == 0 && decide (4 * s.power.watts ≤ 3 * (1000 * capWatts s))
  updPower s fun p => { p with
    capHigh := if 8 ≤ d then p.capHigh + 1 else 0
    capLow := if low then p.capLow + 1 else 0 }

/-- BELLOWS_UPDATE (R474, R478, R488): the estimates of rails 0 to 4, then of module input power, each with its fixed part. -/
def execBellowsUpdate (est : List Estimate) (s : State) : Res :=
  .next <| bellows s fun s =>
    let s := (est.zipIdx.filter fun e => decide (e.2 < 6)).foldl (fun s e => ctlUpdate s e.2 e.1) s
    governorCounts ((List.range 14).foldl releaseZone s)

/-- Samples in succession above 1.15 × the fused limit (R473). -/
def overCounts (p : Power) (amps : List Nat) : SMap Nat :=
  tabulate 0 7 fun r =>
    if 115 * fusedLimit r < 100 * amps.getD r 0 then SMap.get 0 p.trips r + 1 else 0

/-- CURRENT_SAMPLE (R474, R481, R494): rail currents in mA and input power in mW; once a microsecond. -/
def execCurrentSample (amps : List Nat) (watts : Nat) (s : State) : Res :=
  .next <| bellows s fun s =>
    updPower s fun p =>
      let full := p.wattN + 1 == 1000
      { p with
        amps := tabulate 0 7 fun r => amps.getD r 0
        trips := overCounts p amps
        watts
        wattSum := if full then 0 else p.wattSum + watts
        wattN := if full then 0 else p.wattN + 1
        inputMean := if full then (p.wattSum + watts) / 1000000 else p.inputMean
        opAge := if p.ramping then p.opAge else p.opAge + 1
        brakeDemand := if p.brakeOn then p.brakeDemand else p.brakeDemand - 1 }

/-- CURRENT_TRIP (R473). -/
def execCurrentTrip (rail : Nat) (s : State) : Res :=
  .next <| bellows s fun s =>
    if rail < 7 && 5 ≤ SMap.get 0 s.power.trips rail then raiseS4 s 0x081 10 rail else s

/-- CAP_GOVERNOR_LOWER (R484). -/
def execCapGovernorLower (s : State) : Res :=
  .next <| bellows s fun s =>
    if 10000 ≤ s.power.capHigh then updPower s fun p => { p with govCap := p.govCap - 1, capHigh := 0 } else s

/-- CAP_GOVERNOR_RAISE (R484). -/
def execCapGovernorRaise (s : State) : Res :=
  .next <| bellows s fun s =>
    if 100000 ≤ s.power.capLow then updPower s fun p => { p with govCap := Nat.min 7 (p.govCap + 1), capLow := 0 } else s

/-! Calibration (R475, R476). -/

/-- CALIBRATION (R475): static terms in mA, rail by rail, at boot, and where no basin has accepted a row for 20 ms, 10 s after the last. -/
def execCalibration (fit : List Int) (s : State) : Res :=
  .next <| bellows s fun s =>
    let idle := allBelow 6 fun b => decide (1000000 ≤ s.ticks - (getBasin s b).rowAt)
    if s.boot.locked && (!idle || decide (s.ticks - s.power.calAt < 500000000)) then s
    else updPower s fun p => { p with
      static := tabulate 0 7 fun r => fit.getD r (SMap.get 0 p.static r)
      calAt := s.ticks
      recal := tabulate false 7 fun r => SMap.get false p.stale r }

/-- The deviation of an estimate in units of 0.1 % of the measurement; of a measurement of 0 the manual gives none (log entry 32). -/
def deviation (s : State) (e m : Nat) : Nat :=
  if m = 0 then Config.zeroDeviation s.free else (if e < m then m - e else e - m) * 1000 / m

/-- One rail's comparison. -/
def compareRail (s : State) (r e m : Nat) : State :=
  let off := if e < m then m - e else e - m
  if 8 * m < 100 * off then
    let s := ledgerRecord s 0x030 (deviation s e m) (toLe 1 r)
    let s := if m = 0 then fresh s else s
    let s := if isStale s r then s else emit s (.pldmEvent (16 + r) true)
    updPower s fun p => { p with stale := SMap.put false p.stale r true, recal := SMap.put false p.recal r false }
  else if isStale s r && SMap.get false s.power.recal r then
    emit (updPower s fun p => { p with stale := SMap.put false p.stale r false, recal := SMap.put false p.recal r false })
      (.pldmEvent (16 + r) false)
  else s

/-- CAL_COMPARE (R476): the 1-second means of estimate and measurement, rail by rail. -/
def execCalCompare (est meas : List Nat) (s : State) : Res :=
  .next <| bellows s fun s =>
    (List.range (Nat.min 7 (Nat.min est.length meas.length))).foldl
      (fun s r => compareRail s r (est.getD r 0) (meas.getD r 0)) s

/-! Operating point (R481, R483). -/

/-- OP_CHANGE (R483): a lower target takes effect at once, a higher one after 20 µs at the current point; a ramp turns toward any new
target. -/
def execOpChange (s : State) : Res :=
  .next <| bellows s fun s =>
    let t := targetOp s
    let p := s.power
    let now := if p.ramping then p.target else p.op
    if t < now || (now < t && (p.ramping || 20 ≤ p.opAge)) then
      updPower s fun p => { p with target := t, ramping := t != p.op || p.ramping }
    else s

/-- RAMP_COMPLETE (R481, R488): not while a droop freezes the command. -/
def execRampComplete (s : State) : Res :=
  .next <| bellows s fun s =>
    if s.power.ramping && !frozenCmd s then
      updPower s fun p => { p with op := p.target, ramping := false, opAge := 0 }
    else s

/-! The cap (R486, R502). -/

/-- A cap write: clamped to 600 W and to the ceiling. -/
def writeCap (s : State) (w : Nat) : State :=
  let v := Nat.min (ceiling s) (Nat.max 600 w)
  let s := setReg s (oPwr + 0x0C) v
  if v = w then s else setBit s (oPwr + 0x08) 14

/-- The platform view of a requester: a port that has it, or 4 for I3C (R501, R539). -/
def platformView (s : State) (port : Nat) : Bool := port == 4 || (decide (port < 4) && (getPort s port).created && (getPort s port).platform)

/-- PWR_CAP (R486): a BAR0 write of the register by a requester with the platform view. -/
def execPwrCap (port value : Nat) (s : State) : Res :=
  .next <| bellows s fun s => if platformView s port then writeCap s (bits value 10 0) else s

/-- PLDM_EFFECTER_WRITE (R502). -/
def execPldmEffecterWrite (value : Nat) (s : State) : Res := .next <| bellows s fun s => writeCap s value

/-! Droop (R487 to R489). -/

def updZone (s : State) (n : Nat) (f : Region14 → Region14) : State :=
  updPower s fun p => { p with regions := SMap.upd {} p.regions n f }

/-- DROOP_ENTER (R488). -/
def execDroopEnter (region : Nat) (s : State) : Res :=
  .next <| bellows s fun s =>
    if 14 ≤ region || (getZone s region).inDroop then s
    else bump (updZone s region fun z => { z with inDroop := true, held := true, demand := Nat.max z.demand 32 }) (oPwr + 0x60) 1

/-- DROOP_END (R487, R489): the droop lasted `ns`; its response holds for 2 µs more. -/
def execDroopEnd (region ns : Nat) (s : State) : Res :=
  .next <| bellows s fun s =>
    if region < 14 && (getZone s region).inDroop then
      ledgerRecord (updZone s region fun z => { z with inDroop := false, since := s.ticks }) 0x02E ns (toLe 1 region)
    else s

/-- DROOP_RELEASE (R488): 2 µs out of droop. -/
def execDroopRelease (region : Nat) (s : State) : Res :=
  .next <| bellows s fun s =>
    if region < 14 && !(getZone s region).inDroop && decide (100 ≤ s.ticks - (getZone s region).since) then updZone s region fun z => { z with held := false } else s

/-! Thermal control (R490 to R492). -/

/-- One group's update: the hottest junction of the group and its stack's temperature. -/
def groupUpdate (s : State) (g : Nat) (junction : Int) : State :=
  let j := junction - (tjTarget s : Int)
  let k := ((getStack s g).temp : Int) - (hbmTarget s : Int)
  let most := max j k
  updPower s fun p => { p with groups := SMap.upd {} p.groups g fun x =>
    let d := if 0 < most then Nat.min 56 (x.demand + (min most 8).toNat) else if most ≤ -2 then x.demand - 1 else x.demand
    { demand := d, junctionOver := j, stackOver := k, junction
      atMax := if d = 56 && 0 < most then x.atMax + 1 else 0 } }

/-- The regions of thermal group `g` (R371), numbered as the junction sensors are: terraces 0 to 7, basins from 8, slices from 14. -/
def groupRegions (g : Nat) : List Nat :=
  [g] ++ ((List.range 6).filter fun b => (basinGroups b).contains g).map (8 + ·) ++ (List.range 8).map fun i => 14 + 8 * g + i

/-- The hottest junction of a group's regions; 0 where no sensor reads. -/
def groupJunction (junctions : List Int) (g : Nat) : Int := ((groupRegions g).filterMap fun r => junctions[r]?).max?.getD 0

/-- THERMAL_UPDATE (R371, R490): once a millisecond, the junction sensors of the 8 terraces, 6 basins and 64 slices. -/
def execThermalUpdate (junctions : List Int) (s : State) : Res :=
  .next <| bellows s fun s =>
    let s := (List.range 8).foldl (fun s g => groupUpdate s g (groupJunction junctions g)) s
    let cool := allBelow 8 fun g => (getGroup s g).demand == 0
    updPower s fun p => { p with coolFor := if cool then p.coolFor + 1 else 0 }

/-- THERMAL_OP_LIMIT (R491). -/
def execThermalOpLimit (s : State) : Res :=
  .next <| bellows s fun s =>
    if (List.range 8).any fun g => decide (10 ≤ (getGroup s g).atMax) then
      updPower s fun p => { p with
        govTherm := p.govTherm - 1
        groups := p.groups.map fun e => (e.1, { e.2 with atMax := if 10 ≤ e.2.atMax then 0 else e.2.atMax }) }
    else if 100 ≤ s.power.coolFor then updPower s fun p => { p with govTherm := Nat.min 7 (p.govTherm + 1), coolFor := 0 }
    else s

/-- THERMAL_TRIP (R492): a junction sensor of a group reads `temp`, or a stack does. -/
def execThermalTrip (stack : Bool) (unit : Nat) (temp : Int) (s : State) : Res :=
  .next <| bellows s fun s =>
    if unit < 8 && (if stack then 105 else 125) ≤ temp then raiseS4 s 0x082 (if stack then 4 else 10) unit else s

/-! BRAKE# (R493 to R495). -/

/-- BRAKE_IE of the PINS record: BRAKE# acts from the configuration lock (R589, R591). -/
def brakeEnabled (s : State) : Bool := s.boot.locked && bitB s.boot.pins 2

/-- A qualified assertion begins. -/
def assertBrake (s : State) (high : Bool) : State :=
  updPower s fun p => { p with brakeLow := false, brakeOn := true, brakeHigh := high, brakeDemand := 56, brakeSince := s.ticks }

/-- An assertion ends, and the ledger records it (R494, R495). -/
def endBrake (s : State) : State :=
  ledgerRecord (updPower s fun p => { p with brakeOn := false, brakeHigh := false, brakeHeld := false }) 0x027
    ((s.ticks - s.power.brakeSince) / 50) []

/-- BRAKE_FALL (R493, R494): qualification starts; a high interval within an assertion ends as chatter, one of 50 µs has ended it. -/
def execBrakeFall (s : State) : Res :=
  .next <|
    let high := s.ticks - s.power.brakeEdge
    let s := { s with boot := { s.boot with brakeLevel := false }, power := { s.power with brakeEdge := s.ticks } }
    bellows s fun s =>
      if !brakeEnabled s then s
      else if !s.power.brakeOn then updPower s fun p => { p with brakeLow := true }
      else if !s.power.brakeHigh then s
      else if high < 2500 then bump (updPower s fun p => { p with brakeHigh := false }) (oPwr + 0x70) 1
      else updPower (endBrake s) fun p => { p with brakeLow := true }

/-- BRAKE_QUALIFIED (R493): the low level has lasted 200 ns. -/
def execBrakeQualified (s : State) : Res :=
  .next <| bellows s fun s =>
    if s.power.brakeLow && decide (10 ≤ s.ticks - s.power.brakeEdge) then assertBrake s false else s

/-- BRAKE_RISE (R493, R494): the level was low for `ns`; a pulse shorter than 200 ns is filtered. -/
def execBrakeRise (ns : Nat) (s : State) : Res :=
  .next <|
    let s := { s with boot := { s.boot with brakeLevel := true }, power := { s.power with brakeEdge := s.ticks } }
    bellows s fun s =>
      if s.power.brakeLow then
        if ns < 200 then bump (updPower s fun p => { p with brakeLow := false }) (oPwr + 0x68) 1 else assertBrake s true
      else if s.power.brakeOn then updPower s fun p => { p with brakeHigh := true }
      else s

/-- BRAKE_RELEASE (R494, R495): BRAKE# has been high for 50 µs; the ledger records the assertion. -/
def execBrakeRelease (s : State) : Res :=
  .next <| bellows s fun s =>
    if s.power.brakeOn && s.power.brakeHigh && decide (2500 ≤ s.ticks - s.power.brakeEdge) then endBrake s else s

/-- BRAKE_HELD (R495). -/
def execBrakeHeld (s : State) : Res :=
  .next <| bellows s fun s =>
    let limit := bits (regOf s (oPwr + 0x44)) 11 0 * 50000000
    if s.power.brakeOn && limit ≤ s.ticks - s.power.brakeSince then updPower s fun p => { p with brakeHeld := true } else s

/-! Energy (R499). -/

def addEnergy (s : State) (c n : Nat) : State := updCtx s c fun x => { x with energy := x.energy + BitVec.ofNat 64 n }
def addPlatform (s : State) (n : Nat) : State := bump s (oPwr + 0x58) n

/-- Energy of a leased unit goes to its context, of any other to the platform. -/
def leasedEnergy (s : State) (l : Option Nat) (n : Nat) : State :=
  match l with
  | some c => addEnergy s c n
  | none => addPlatform s n

/-- Shared energy: each context's part by its share of the accesses, rounded down; the rest to the platform (log entry 33). -/
def sharedEnergy (s : State) (e : Nat) (ws : List (Nat × Nat)) : State :=
  let total := (ws.map (·.2)).sum
  let part (w : Nat) : Nat := if total = 0 then 0 else e * w / total
  let s' := ws.foldl (fun s w => if (getCtx s w.1).st == .free then addPlatform s (part w.2) else addEnergy s w.1 (part w.2)) s
  addPlatform s' (e - (ws.map fun w => part w.2).sum)

def unitEnergy (s : State) (x : EnergyOf) : State :=
  match x with
  | .basin b e => leasedEnergy s (getBasin s b).lease e
  | .terrace t e => leasedEnergy s (getTerrace s t).lease e
  | .slice n e => leasedEnergy s (getSlice s n).lease e
  | .shared e ws => sharedEnergy s e ws
  | .other e => addPlatform s e

/-- ENERGY_ATTRIBUTION (R499): once a millisecond, the energy of each unit in µJ. -/
def execEnergyAttribution (energies : List EnergyOf) (s : State) : Res :=
  .next <| bellows s fun s => energies.foldl unitEnergy s

end Sys2Proof.Machine
end

