-- ==== Sys2Proof/Machine/JetMemory.lean ====
section
/-!
DEFINITION. Loads, stores, atomics, fences, bulk transfers and weir requests of a jet, and the completion of an access
(R41, R42, R96 to R100).
-/

namespace Sys2Proof.Machine

/-- Bytes of a value extended to a register (R96). -/
def extend (size : Nat) (signed : Bool) (n : Nat) : Word :=
  if signed then BitVec.ofInt 64 (toSigned (8 * size) n) else BitVec.ofNat 64 n

/-- Where an address in cistern or HBM that the context may access lies (R41). -/
def external (s : State) (c a : Nat) (write : Bool) : Option Loc :=
  match locate s c a write with
  | some (.jlm _) => none
  | l => l

/-- A thread's request of `out` flits leaves for cistern or HBM on plane 0, and an answer of `back` flits will come on plane 1 (R45;
log entry 125). -/
def memFlits (s : State) (out back : Nat) : State := bump (bump s (oRun + 0x10) out) (oRun + 0x18) back

/-- LD (R96). -/
def execLd (i : Issue) (s : State) : Res :=
  .next (issue (fun o _ => o == 0x0A) 1 i s fun s c f =>
    let j := i.jet
    let x := getThread s j i.thread
    let a := effAddr x f
    let n := 2 ^ (f.fn % 4)
    if a % n ≠ 0 then threadFault s c j i.thread fAlign
    else if ownRange j a n then
      memFaults (jlmFaults i.faults) s fun s =>
        retire s j i.thread fun x => x.setReg f.d (extend n (bitB f.fn 2) (leNat (readPhys s a n)))
    else match external s c a false with
      | some l => startWait (memFlits s 1 1) j i.thread .waitMem (.load l n (bitB f.fn 2) f.d)
      | none => accessFault s c j i.thread a n false)

/-- ST (R96). -/
def execSt (i : Issue) (s : State) : Res :=
  .next (issue (fun o _ => o == 0x0B) 1 i s fun s c f =>
    let j := i.jet
    let x := getThread s j i.thread
    let a := effAddr x f
    let n := 2 ^ (f.fn % 4)
    let bs := toLe n (x.reg f.b).toNat
    if a % n ≠ 0 then threadFault s c j i.thread fAlign
    else if ownRange j a n then retire (writePhys s a bs) j i.thread id
    else match external s c a true with
      | some l => startWait (memFlits s 1 1) j i.thread .waitMem (.store l bs)
      | none => accessFault s c j i.thread a n true)

/-- ATOM (R97): the old word at the operand's size, D's incoming value and B give the new one. -/
def atom (op : Nat) (g : Nat → Nat → Nat → Nat → Nat) (i : Issue) (s : State) : State :=
  issue (fun o n => o == 0x0C && n % 16 == op) 2 i s fun s c f =>
    let j := i.jet
    let x := getThread s j i.thread
    let a := effAddr x f
    let n := if bitB f.fn 4 then 8 else 4
    let w := 8 * n
    if a % n ≠ 0 then threadFault s c j i.thread fAlign
    else if ownRange j a n then
      memFaults (jlmFaults i.faults) s fun s =>
        let old := leNat (readPhys s a n)
        let new := g w old ((x.reg f.d).toNat % 2 ^ w) ((x.reg f.b).toNat % 2 ^ w)
        retire (writePhys s a (toLe n new)) j i.thread fun x => x.setReg f.d (extend n true old)
    else threadFault s c j i.thread fAccess

/-- AADD (R97). -/
def execAadd (i : Issue) (s : State) : Res := .next (atom 0 (fun w o _ b => (o + b) % 2 ^ w) i s)
/-- ASWAP (R97). -/
def execAswap (i : Issue) (s : State) : Res := .next (atom 1 (fun _ _ _ b => b) i s)
/-- ACAS (R97): stores B only when the word equals the incoming D. -/
def execAcas (i : Issue) (s : State) : Res := .next (atom 2 (fun _ o d b => if o = d then b else o) i s)
/-- AMIN (R97). -/
def execAmin (i : Issue) (s : State) : Res :=
  .next (atom 3 (fun w o _ b => if toSigned w o < toSigned w b then o else b) i s)
/-- AMAX (R97). -/
def execAmax (i : Issue) (s : State) : Res :=
  .next (atom 4 (fun w o _ b => if toSigned w o < toSigned w b then b else o) i s)
/-- AMINU (R97). -/
def execAminu (i : Issue) (s : State) : Res := .next (atom 5 (fun _ o _ b => Nat.min o b) i s)
/-- AMAXU (R97). -/
def execAmaxu (i : Issue) (s : State) : Res := .next (atom 6 (fun _ o _ b => Nat.max o b) i s)
/-- AAND (R97). -/
def execAand (i : Issue) (s : State) : Res := .next (atom 7 (fun _ o _ b => o &&& b) i s)
/-- AOR (R97). -/
def execAor (i : Issue) (s : State) : Res := .next (atom 8 (fun _ o _ b => o ||| b) i s)

/-- FENCE (R98, R42): every earlier load, store and BULK of the thread has completed before it issues (R84), so it waits for
its weir requests only. -/
def execFence (i : Issue) (s : State) : Res :=
  .next (issue (row1 0x0D 0) 1 i s fun s _ _ =>
    if (getThread s i.jet i.thread).wops = 0 then retire s i.jet i.thread id
    else startWait s i.jet i.thread .waitMem .fence)

/-- IFLUSH (R98, R80). -/
def execIflush (i : Issue) (s : State) : Res :=
  .next (issue (row1 0x0D 1) 1 i s fun s _ _ =>
    retire { s with jets := { s.jets with icache := SMap.clear (fun k => k / 2 ^ 48 == i.jet) s.jets.icache } }
      i.jet i.thread id)

/-- BULK (R99). -/
def execBulk (i : Issue) (s : State) : Res :=
  .next (issue (fun o _ => o == 0x0E) 1 i s fun s c f =>
    let j := i.jet
    let x := getThread s j i.thread
    let a := (x.reg f.a).toNat
    let d := (x.reg f.d).toNat
    let n := 128 * f.imm
    if a % 128 ≠ 0 ∨ d % 128 ≠ 0 then threadFault s c j i.thread fAlign
    else
      let ps := (partsOf 0x80000 a n).map fun p => (external s c p.1 (f.fn == 1), p.2)
      if ownRange j d n && ps.all (·.1.isSome) then
        let s := if f.fn = 0 then memFlits s f.imm (2 * f.imm) else memFlits s (2 * f.imm) f.imm
        startWait s j i.thread .waitMem (.bulk (f.fn == 0) (ps.filterMap fun p => p.1.map fun l => (l, p.2)) d)
      else accessFault s c j i.thread a n (f.fn == 1))

/-- WOP (R100): the request leaves the jet for the weir. -/
def execWop (i : Issue) (s : State) : Res :=
  .next (issue (fun o _ => o == 0x0F) 1 i s fun s c f =>
    let j := i.jet
    let x := getThread s j i.thread
    let a := (x.reg f.a).toNat
    let b := (x.reg f.b).toNat
    if a % 64 ≠ 0 ∨ b % 64 ≠ 0 then threadFault s c j i.thread fAlign
    else match locate s c a true with
      | some (.hbm pa _) =>
        if ownRange j b 64 then
          memFaults (jlmFaults i.faults) s fun s =>
            let r : WReq := { ctx := c, src := j, thread := some (j * 256 + i.thread), addr := pa, va := a,
                              op := bits f.fn 1 0, ty := bits f.fn 4 2, mode := bits f.fn 6 5, tag := f.imm,
                              data := readPhys s b 64 }
            let s := { s with mem := { s.mem with weirReqs := s.mem.weirReqs ++ [r] } }
            retire (memFlits s 1 1) j i.thread fun x => { x with wops := x.wops + 1 }
        else threadFault s c j i.thread fAccess
      | _ => accessFault s c j i.thread a 64 true)

/-- A location further on in the same part of a range. -/
def Loc.skip (l : Loc) (n : Nat) : Loc :=
  match l with
  | .hbm pa k => .hbm (pa + n) k
  | .cistern pa => .cistern (pa + n)
  | .jlm pa => .jlm (pa + n)

/-- One 128-byte chunk of a BULK (R99). -/
def bulkChunk (s : State) (ns : List Nat) (toJlm : Bool) (ext : Loc) (loc : Nat) : State :=
  if toJlm then let (bs, s) := readLoc s ns ext 128; writePhys s loc bs
  else writeLoc s ns ext (readPhys s loc 128)

/-- The next chunks of a BULK, at most `n`: what is left of its locations, and where in jet-local memory it goes on. -/
def bulkChunks (ns : List Nat) (toJlm : Bool) : Nat → State → List (Loc × Nat) → Nat → State × List (Loc × Nat) × Nat
  | 0, s, ext, loc => (s, ext, loc)
  | n + 1, s, ext, loc =>
    match ext with
    | [] => (s, [], loc)
    | (l, len) :: rest =>
      let s := bulkChunk s ns toJlm l loc
      bulkChunks ns toJlm n s (if len ≤ 128 then rest else (l.skip 128, len - 128) :: rest) (loc + 128)

/-- MEM_ACCESS_COMPLETE (R42, R96, R99): the access of a waiting thread is performed, or the next `chunks` chunks of a
BULK, at the locations that its addresses translated to when it issued (R551); `fs` is what its reads find wrong. -/
def execMemAccessComplete (jet thread chunks : Nat) (fs : List MemFault) (s : State) : Res :=
  .next <|
    let x := getThread s jet thread
    match ctxOfJet s jet with
    | none => s
    | some c =>
      if x.st != .waitMem then s
      else match x.wait with
        | .load l n sg d =>
          memFaults fs s fun s =>
            let (bs, s) := readLoc s (cacheSlices s c) l n
            endWait s jet thread [(d, extend n sg (leNat bs))]
        | .store l bs => endWait (writeLoc s (cacheSlices s c) l bs) jet thread []
        | .bulk toJlm ext loc =>
          memFaults fs s fun s =>
            let (s, ext, loc) := bulkChunks (cacheSlices s c) toJlm chunks s ext loc
            if ext.isEmpty then endWait s jet thread []
            else updThread s jet thread fun x => { x with wait := .bulk toJlm ext loc }
        | _ => s

/-- Every message of a thread is in its destination buffer, here or on another device (R62, R419). -/
def messagesIn (s : State) (j t : Nat) : Bool :=
  !(s.jets.msgs.any fun m => m.src == j && m.thread == t) && !(s.jets.conns.any fun e => e.1 / 65536 == j && e.2.out.contains t)

/-- The arrival of BARARR (R62 to R65, R113, R115): a BROKEN object answers at once. On a fabric object the token is the device's present
generation until the release (log entry 141). -/
def barArrive (s : State) (c j t h d : Nat) : State :=
  match handleKey s c j h with
  | none => threadFault s c j t fBarState
  | some k =>
    let b := getBar s k
    let who := memberId c j t
    if b.broken then endWait s j t [(d, resultWord stBroken 0)]
    else if !b.init then threadFault s c j t fBarState
    else
      let tok := (barGen s k).toNat
      let s := endWait s j t [(d, resultWord stOk tok)]
      let s := updBar s k fun b => { b with
        arrivals := b.arrivals + 1, joined := if b.joined.contains who then b.joined else b.joined ++ [who] }
      if b.arrivals + 1 = b.members then barFull s k else s

/-- FENCE_COMPLETE (R98, R62): what a fenced or arriving thread waits for has been performed. -/
def execFenceComplete (jet thread : Nat) (s : State) : Res :=
  .next <|
    let x := getThread s jet thread
    match ctxOfJet s jet with
    | none => s
    | some c =>
      if x.st == .waitMem && x.wops == 0 then
        match x.wait with
        | .fence => endWait s jet thread []
        | .bararr h d => if messagesIn s jet thread then barArrive s c jet thread h d else s
        | _ => s
      else s

end Sys2Proof.Machine
end

