-- ==== Sys2Proof/Machine/JetMessage.lean ====
section
/-!
DEFINITION. Messages, channels and connections: the message instructions and what the runnel delivers (R47 to R58, R108 to
R111, R419, R607).
-/

namespace Sys2Proof.Machine

/-- The entry is in use for SEND, FEED and DISC: its CONN has been granted (R108, R111; log entry 144). -/
def connUsable (x : Conn) : Bool := x.used && !x.pending

/-- R607 opens endpoint `d` to a jet of the context. -/
def opens (s : State) (c d : Nat) : Bool :=
  let i := d % 4096
  if d / 4096 = 0 then holdsJet s c i
  else if d / 4096 = 1 then decide (i < 96) && (getBasin s (i / 16)).lease == some c
  else if d / 4096 = 4 then decide (i < 32) && (getCtx s c).fabric && (getCtx s c).jobStarted
  else if d / 4096 = 5 then portOf s c == some i
  else false

def countP0 (s : State) (n : Nat) : State := bump s (oRun + 0x10) n
def countP1 (s : State) (n : Nat) : State := bump s (oRun + 0x18) n

/-! Threads that wait. -/

/-- The threads of a jet whose wait satisfies `p`, with the order in which they began to wait. -/
def waiting (s : State) (j : Nat) (st : ThreadState) (p : Wait → Bool) : List (Nat × Nat) :=
  s.jets.threads.filterMap fun e =>
    if e.1 / 256 = j && e.2.st == st && p e.2.wait then some (e.2.order, e.1 % 256) else none

/-- The one that began to wait first. -/
def firstWaiting (s : State) (j : Nat) (st : ThreadState) (p : Wait → Bool) : Option Nat :=
  ((waiting s j st p).foldl (fun (b : Option (Nat × Nat)) e =>
    match b with
    | none => some e
    | some b => some (if e.1 < b.1 then e else b)) none).map (·.2)

/-! Sending. -/

/-- Sends on a connection that holds a credit: the credit is used and the message enters the runnel (R51). -/
def sendNow (s : State) (j t idx : Nat) (data : List Byte) (tag : Nat) : State :=
  let x := getConn s j idx
  let m : Msg := { src := j, srcIdx := idx, dst := x.dst, ch := x.ch, tag, thread := t, data }
  let s := updConn s j idx fun x => { x with credits := x.credits - 1 }
  countP0 { s with jets := { s.jets with msgs := s.jets.msgs ++ [m] } } (data.length / 64)

/-- Whether a wait is for a credit of connection `idx`. -/
def waitsCredit (idx : Nat) : Wait → Bool
  | .send i _ _ _ => i == idx
  | .feed i _ _ => i == idx
  | _ => false

/-- A credit reaches a connection; the SEND or FEED that has waited longest takes it (R51, R54). -/
def creditIn (s : State) (ep idx n : Nat) : State :=
  let s := updConn s ep idx fun x => { x with credits := x.credits + n }
  if ep < 4096 && 0 < (getConn s ep idx).credits then
    match firstWaiting s ep .waitCredit (waitsCredit idx) with
    | none => s
    | some t =>
      match (getThread s ep t).wait with
      | .send i bs tag d => endWait (sendNow s ep t i bs tag) ep t [(d, resultWord stOk 0)]
      | .feed i bs d => endWait (sendNow s ep t i bs 0) ep t [(d, resultWord stOk 0)]
      | _ => s
  else s

/-! Receiving. -/

/-- A held message that no RECV has returned yet: the oldest one, from one source or from any (R55, R56). -/
def oldestMsg (x : Channel) (src : Option Nat) : Option (Nat × Slot) :=
  x.msgs.foldl (fun (b : Option (Nat × Slot)) e =>
    match e.2 with
    | none => b
    | some m =>
      if m.returned || (src.isSome && src != some m.src) then b
      else match b with
        | none => some (e.1, m)
        | some w => some (if m.order < w.2.order then (e.1, m) else w)) none

/-- Address of a slot (R47). -/
def slotAddr (x : Channel) (k : Nat) : Nat := x.base + k * x.largest * 64

/-- The register pair of RECV and RECVS (R109). -/
def recvPair (x : Channel) (ch k : Nat) (m : Slot) (d : Nat) : List (Nat × Word) :=
  [(d, resultWord stOk (k + 256 * slotAddr x k)),
   (d + 1, BitVec.ofNat 64 (m.src + 2 ^ 16 * ch + 2 ^ 24 * (m.len - 1) + 2 ^ 28 * m.tag))]

/-- Marks a message returned (R52). -/
def takeMsg (s : State) (j ch k : Nat) : State :=
  updChan s j ch fun x => { x with msgs := SMap.upd none x.msgs k fun m => m.map fun m => { m with returned := true } }

/-- A message of a channel goes to the thread that has waited longest for it. -/
def wakeReceiver (s : State) (j ch : Nat) (src : Nat) : State :=
  let hits (w : Wait) : Bool := match w with
    | .recv c _ => c == ch
    | .recvs c r _ => c == ch && r == src
    | _ => false
  match firstWaiting s j .waitMsg hits with
  | none => s
  | some t =>
    let go (d : Nat) (from' : Option Nat) : State :=
      let x := getChan s j ch
      match oldestMsg x from' with
      | none => s
      | some (k, m) => endWait (takeMsg s j ch k) j t (recvPair x ch k m d)
    match (getThread s j t).wait with
    | .recv _ d => go d none
    | .recvs _ r d => go d (some r)
    | _ => s

/-! Grants and closing. -/

/-- Queues a grant or a refusal on plane 1 (R45, R49). -/
def grantBack (s : State) (g : Grant) : State :=
  countP1 { s with jets := { s.jets with grants := s.jets.grants ++ [g] } } 1

/-- A packet of kind `kind` between a jet here and one of another device, on a channel there or here (R417, R419). -/
def remotePkt (s : State) (kind j dev ep ch tag seqtag coll : Nat) : Pkt :=
  { hdr := ({ dstDev := dev, srcDev := s.links.devId, dstEp := ep, srcEp := j, kind
              job := match ctxOfJet s j with | some c => (getCtx s c).job | none => 0
              tag, channel := ch, seqtag, coll } : Hdr).bytes
    payload := [] }

/-- Answers a request on plane 1, or by a CONN_GRANT packet to a remote sender: TAG is 0 for a refusal, SEQTAG the largest message
of the channel in flits (R53, R417 to R419; log entry 31). -/
def answer (s : State) (r : ConnReq) (granted : Bool) (credits largest : Nat) : State :=
  if 2 ^ 16 ≤ r.srcIdx then
    inject s (remotePkt s 3 r.dst (r.srcIdx - 2 ^ 16) r.src r.ch (if granted then credits else 0) (if granted then largest else 0) 0)
  else grantBack s { ep := r.src, idx := r.srcIdx, granted, credits, largest }

/-- What a channel requires of a source beyond R49: spouts (R196), stack units (R609). -/
def sourceOk (x : Channel) (src : Nat) : Bool :=
  if src / 4096 = 7 then !x.any && x.largest == 16 else if src / 4096 = 3 then !x.any else true

/-- A request at a channel that is open or closing (R49, R50). -/
def decideReq (s : State) (r : ConnReq) : State :=
  let x := getChan s r.dst r.ch
  if x.st == .opened && decide (x.conns.length < x.sources) && sourceOk x r.src then
    answer (updChan s r.dst r.ch fun x => { x with conns := x.conns ++ [(r.src, r.srcIdx)] }) r true
      (x.slots / x.sources) x.largest
  else answer s r false 0 0

/-- A closing channel whose sources have all disconnected closes: its messages are discarded (R58). -/
def closeIfDone (s : State) (j ch : Nat) : State :=
  let x := getChan s j ch
  if x.st == .closing && x.conns.isEmpty then
    let n := x.msgs.length
    let s := updChan s j ch fun _ => {}
    let s := if n = 0 then s else setBit (bump s (oJet + 0x58) n) (oJet + 0x50) 1
    (waiting s j .waitCredit fun w => w == .chclose ch).foldl (fun s e => endWait s j e.2 []) s
  else s

/-- Messages of a connection that are not in their destination buffer, or not yet known to be there on another device. -/
def inFlight (s : State) (ep idx : Nat) : Bool :=
  (s.jets.msgs.any fun m => m.src == ep && m.srcIdx == idx) || !(getConn s ep idx).out.isEmpty

/-- A source disconnects from a channel: held messages lose their connection, and a closing channel may close (R57, R58). -/
def leaveChan (s : State) (j ch ep idx : Nat) : State :=
  let s := updChan s j ch fun c => { c with
    conns := c.conns.erase (ep, idx)
    msgs := c.msgs.map fun e =>
      (e.1, e.2.map fun m => if m.src = ep && m.srcIdx = idx then { m with srcIdx := goneIdx } else m) }
  closeIfDone s j ch

/-- Frees a connection: the credits it holds go back, held data loses its connection (R57, R188). To another device an MSG_CREDIT of
COLL_ID 1 returns the credits and says so (R419, log entry 31). -/
def dropConn (s : State) (ep idx : Nat) : State :=
  let x := getConn s ep idx
  let s := updConn s ep idx fun _ => {}
  let s := { s with jets := { s.jets with credits := s.jets.credits.filter fun e => e != (ep, idx) } }
  if x.dst / 4096 = 0 then leaveChan s x.dst x.ch ep idx
  else if x.dst / 4096 = 1 then
    updRowPort s (x.dst % 4096) fun q => { q with
      conns := q.conns.filter fun e => e != (ep, idx)
      held := q.held.map fun h => if h.jet = ep && h.idx = idx then { h with idx := goneIdx } else h }
  else if x.dst / 4096 = 5 then
    updPort s (x.dst % 4096) fun q => { q with conns := q.conns.filter fun e => e != (ep, idx) }
  else if x.dst / 4096 = 4 then
    match x.remote with
    | some (dev, e, ch) => inject s (remotePkt s 4 ep dev e ch x.credits 0 1)
    | none => s
  else s

/-- A DISC that waits on a connection completes once its messages are in their buffer; SENDs and FEEDs that wait on it
return DISCONNECTED (R57). -/
def finishDisc (s : State) (j idx : Nat) : State :=
  let ds := waiting s j .waitCredit fun w => w == .disc idx
  if ds.isEmpty || inFlight s j idx then s
  else
    let s := dropConn s j idx
    let s := (waiting s j .waitCredit (waitsCredit idx)).foldl (fun s e =>
      match (getThread s j e.2).wait with
      | .send _ _ _ d => endWait s j e.2 [(d, resultWord stDisconnected 0)]
      | .feed _ _ d => endWait s j e.2 [(d, resultWord stDisconnected 0)]
      | _ => s) s
    ds.foldl (fun s e => endWait s j e.2 []) s

/-! The instructions. -/

/-- CHOPEN (R48, R108). -/
def execChopen (i : Issue) (s : State) : Res :=
  .next (issue (row1 0x18 0x0) 1 i s fun s c f =>
    let j := i.jet
    let x := getThread s j i.thread
    let ch := (x.reg f.a).toNat
    let base := (x.reg f.b).toNat
    let slots := bits f.imm 7 0 + 1
    let largest := bits f.imm 11 8 + 1
    let l := bits f.imm 19 12 + 1
    let top := jlmBase j + 65536 * (getCtx s c).lease.extent
    if 256 ≤ ch || slots < l || base % 64 ≠ 0 || base < jlmBase j || top < base + slots * largest * 64 ||
        (getChan s j ch).st != .closed then threadFault s c j i.thread fChState
    else
      let s := retire s j i.thread id
      let s := updChan s j ch fun _ =>
        { st := .opened, any := bitB f.imm 20, base, slots, largest, sources := l }
      let mine (r : ConnReq) : Bool := r.dst == j && r.ch == ch
      let rs := s.jets.held.filter mine
      rs.foldl decideReq { s with jets := { s.jets with held := s.jets.held.filter fun r => !mine r } })

/-- CHCLOSE (R58, R108); of a channel that is closed already it completes at once (log entry 143). -/
def execChclose (i : Issue) (s : State) : Res :=
  .next (issue (row1 0x18 0x1) 1 i s fun s c f =>
    let j := i.jet
    let ch := ((getThread s j i.thread).reg f.a).toNat
    if 256 ≤ ch then threadFault s c j i.thread fChState
    else if (getChan s j ch).st == .closed then retire s j i.thread id
    else
      let s := updChan s j ch fun x => { x with st := .closing }
      closeIfDone (startWait s j i.thread .waitCredit (.chclose ch)) j ch)

/-- CONN (R49, R108, R111, R607). -/
def execConn (i : Issue) (s : State) : Res :=
  .next (issue (row1 0x18 0x2) 1 i s fun s c f =>
    let j := i.jet
    let x := getThread s j i.thread
    let dst := (x.reg f.a).toNat
    let ch := (x.reg f.b).toNat
    let free (n : Nat) : Bool := !(getConn s j n).used
    if 256 ≤ ch then threadFault s c j i.thread fChState
    else if !opens s c dst then threadFault (setBit s oRun 2) c j i.thread fLease
    else match (if i.entry < 64 && free i.entry then some i.entry else leastBelow 64 free) with
      | none => retire s j i.thread fun x => x.setReg f.d (resultWord stFull 0)
      | some n =>
        let s := updConn s j n fun _ => { used := true, pending := true, dst, ch }
        let r : ConnReq := { src := j, srcIdx := n, dst, ch }
        let s := countP0 { s with jets := { s.jets with reqs := s.jets.reqs ++ [r] } } 1
        startWait s j i.thread .waitCredit (.conn n f.d))

/-- DISC (R57, R108, R111). -/
def execDisc (i : Issue) (s : State) : Res :=
  .next (issue (row1 0x18 0x3) 1 i s fun s c f =>
    let j := i.jet
    let n := ((getThread s j i.thread).reg f.a).toNat
    if 64 ≤ n || !connUsable (getConn s j n) then threadFault s c j i.thread fChState
    else finishDisc (startWait s j i.thread .waitCredit (.disc n)) j n)

/-- SEND and FEED: the checks of R108, R110, R111 and R53, in that order, then the payload is read, and the credit of R51 lets it go
(log entry 126: a SEND that waits has read its payload). -/
def sendOp (fn : Nat) (nb toPort : Bool) (i : Issue) (s : State) : State :=
  issue (row1 0x18 fn) 1 i s fun s c f =>
    let j := i.jet
    let t := i.thread
    let x := getThread s j t
    let n := (x.reg f.a).toNat
    let a := (x.reg f.b).toNat
    let tag := if toPort then 0 else bits f.imm 15 0
    let len := if toPort then 1 else bits f.imm 19 16 + 1
    let k := getConn s j n
    if 64 ≤ n || !connUsable k || (k.dst / 4096 == 1) != toPort then threadFault s c j t fChState
    else if a % 64 ≠ 0 then threadFault s c j t fAlign
    else if !ownRange j a (64 * len) then threadFault s c j t fAccess
    else if k.largest < len then threadFault s c j t fMsgLen
    else if nb && k.credits = 0 then retire s j t fun x => x.setReg f.d (resultWord stNoCredit 0)
    else memFaults (jlmFaults i.faults) s fun s =>
      let bs := readPhys s a (64 * len)
      if 0 < k.credits then retire (sendNow s j t n bs tag) j t fun x => x.setReg f.d (resultWord stOk 0)
      else startWait (bump s (oRun + 0x20) 1) j t .waitCredit (if toPort then .feed n bs f.d else .send n bs tag f.d)

/-- SEND (R51, R108). -/
def execSend (i : Issue) (s : State) : Res := .next (sendOp 0x4 false false i s)
/-- SEND.NB (R51, R108). -/
def execSendNb (i : Issue) (s : State) : Res := .next (sendOp 0x5 true false i s)
/-- FEED (R59, R108, R110). -/
def execFeed (i : Issue) (s : State) : Res := .next (sendOp 0x6 false true i s)
/-- FEED.NB (R59, R108, R110). -/
def execFeedNb (i : Issue) (s : State) : Res := .next (sendOp 0x7 true true i s)

/-- RECV and RECVS (R52, R55, R56, R109). -/
def recvOp (fn : Nat) (nb named : Bool) (i : Issue) (s : State) : State :=
  issue (row1 0x18 fn) 1 i s fun s c f =>
    let j := i.jet
    let t := i.thread
    let y := getThread s j t
    let ch := (y.reg f.a).toNat
    let src := (y.reg f.b).toNat
    let x := getChan s j ch
    if 256 ≤ ch || x.st == .closed then threadFault s c j t fChState
    else if !named && !x.any then threadFault s c j t fChMode
    else
      let sel := if named then some src else none
      match oldestMsg x sel with
      | some (k, m) =>
        retire (takeMsg s j ch k) j t fun y =>
          (recvPair x ch k m f.d).foldl (fun y w => y.setReg w.1 w.2) y
      | none =>
        if nb then retire s j t fun y => (y.setReg f.d (resultWord stNoMsg 0)).setReg (f.d + 1) 0
        else startWait s j t .waitMsg (if named then .recvs ch src f.d else .recv ch f.d)

/-- RECV (R55, R56, R108). -/
def execRecv (i : Issue) (s : State) : Res := .next (recvOp 0x8 false false i s)
/-- RECV.NB (R55, R56, R108). -/
def execRecvNb (i : Issue) (s : State) : Res := .next (recvOp 0x9 true false i s)
/-- RECVS (R55, R56, R108). -/
def execRecvs (i : Issue) (s : State) : Res := .next (recvOp 0xA false true i s)
/-- RECVS.NB (R55, R56, R108). -/
def execRecvsNb (i : Issue) (s : State) : Res := .next (recvOp 0xB true true i s)

/-- Returns the credit of a freed slot to the connection that filled it (R52, R417). -/
def slotCredit (s : State) (j ch : Nat) (m : Slot) : State :=
  if m.srcIdx = goneIdx then s
  else if 2 ^ 16 ≤ m.srcIdx then
    inject s (remotePkt s 4 j (m.srcIdx - 2 ^ 16) m.src ch 1 0 0)
  else countP1 { s with jets := { s.jets with credits := s.jets.credits ++ [(m.src, m.srcIdx)] } } 1

/-- MSGFREE (R52, R108, R111). -/
def execMsgfree (i : Issue) (s : State) : Res :=
  .next (issue (row1 0x18 0xC) 1 i s fun s c f =>
    let j := i.jet
    let y := getThread s j i.thread
    let ch := (y.reg f.a).toNat
    let k := bits (y.reg f.b).toNat 15 8
    let x := getChan s j ch
    if 256 ≤ ch || x.st == .closed then threadFault s c j i.thread fChState
    else match SMap.get none x.msgs k with
      | none => threadFault s c j i.thread fChState
      | some m =>
        let s := retire s j i.thread id
        let s := updChan s j ch fun x => { x with msgs := SMap.put none x.msgs k none }
        slotCredit s j ch m)

end Sys2Proof.Machine
end

