-- ==== Sys2Proof/Machine/JetThread.lean ====
section
/-!
DEFINITION. Barrier, thread-control and system instructions of a jet (R61 to R65, R112 to R118).
-/

namespace Sys2Proof.Machine

/-- BARINIT (R61, R114). -/
def execBarinit (i : Issue) (s : State) : Res :=
  .next (issue (row1 0x19 0) 1 i s fun s c f =>
    let j := i.jet
    let x := getThread s j i.thread
    let h := (x.reg f.a).toNat
    let n := (x.reg f.b).toNat
    match handleKey s c j h with
    | none => threadFault s c j i.thread fBarState
    | some k =>
      let b := getBar s k
      if n = 0 || maxMembers (k / 2 ^ 32) < n || (!b.broken && b.arrivals != 0) then
        threadFault s c j i.thread fBarState
      else
        updBar (retire s j i.thread id) k fun b =>
          { b with init := true, broken := false, members := n, arrivals := 0, joined := [], inTree := false, used := 0 })

/-- BARARR (R62 to R65, R113): it waits in WAIT_MEM for the thread's earlier requests and messages. -/
def execBararr (i : Issue) (s : State) : Res :=
  .next (issue (row1 0x19 1) 1 i s fun s c f =>
    let j := i.jet
    let t := i.thread
    let x := getThread s j t
    let h := (x.reg f.a).toNat
    match handleKey s c j h with
    | none => threadFault s c j t fBarState
    | some k =>
      let b := getBar s k
      if !b.broken && !b.init then threadFault s c j t fBarState
      else
        let s := startWait s j t .waitMem (.bararr h f.d)
        if b.broken || (x.wops == 0 && messagesIn s j t) then barArrive s c j t h f.d else s)

/-- BARWAIT (R61, R63, R65, R113). -/
def execBarwait (i : Issue) (s : State) : Res :=
  .next (issue (row1 0x19 2) 1 i s fun s c f =>
    let j := i.jet
    let t := i.thread
    let x := getThread s j t
    let h := (x.reg f.a).toNat
    let tok := (x.reg f.b).toNat
    match handleKey s c j h with
    | none => threadFault s c j t fBarState
    | some k =>
      let b := getBar s k
      if b.broken then retire s j t fun x => x.setReg f.d (resultWord stBroken 0)
      else if !b.init then threadFault s c j t fBarState
      else if passed (barGen s k) tok then retire s j t fun x => x.setReg f.d (resultWord stOk 0)
      else startWait s j t .waitBar (.barwait h tok f.d))

/-- A thread as R38 starts it. -/
def newThread (pc arg : Word) (jet thread : Nat) (feed : Bool) : Thread :=
  { st := .ready, feed, pc
    regs := SMap.put 0 (SMap.put 0 (SMap.put 0 [] 1 (BitVec.ofNat 64 thread)) 2 (BitVec.ofNat 64 jet)) 3 arg }

/-- SPAWN (R39, R116). -/
def spawn (fn : Nat) (feed : Bool) (i : Issue) (s : State) : State :=
  issue (row1 0x1A fn) 1 i s fun s _ f =>
    let j := i.jet
    let x := getThread s j i.thread
    match leastBelow 256 fun t => (getThread s j t).st == .free with
    | none => retire s j i.thread fun x => x.setReg f.d (resultWord stNoThread 0)
    | some t =>
      let s := updThread s j t fun _ => newThread (x.reg f.a) (x.reg f.b) j t feed
      retire s j i.thread fun x => x.setReg f.d (resultWord stOk t)

/-- SPAWN of a NORMAL thread (R39, R116). -/
def execSpawnNormal (i : Issue) (s : State) : Res := .next (spawn 0 false i s)
/-- SPAWN of a FEED thread (R39, R116). -/
def execSpawnFeed (i : Issue) (s : State) : Res := .next (spawn 1 true i s)

/-- A launched thread has exited: a LAUNCH whose threads have all exited completes (R558). -/
def launchedExit (s : State) (c who : Nat) : State :=
  match (getCtx s c).cmds.find? fun m => m.threads.contains who with
  | none => s
  | some m =>
    let s := updCtx s c fun x => { x with
      cmds := x.cmds.map fun n => { n with threads := n.threads.filter (· != who) } }
    if m.threads.all (· == who) then completeCmd s c m.slot else s

/-- EXIT (R40, R64, R116). -/
def execExitThread (i : Issue) (s : State) : Res :=
  .next (issue (row1 0x1A 2) 1 i s fun s c _ =>
    let who := i.jet * 256 + i.thread
    let me := memberId c i.jet i.thread
    let ks := (s.jets.bars.filter fun e => e.2.joined.contains me).map (·.1)
    let s := orphanWops s (· == who)
    let s := updThread s i.jet i.thread fun _ => {}
    launchedExit (ks.foldl (fun s k => leaveBar s me k) s) c who)

/-- The state word (R117). -/
def stateWord (x : Thread) : Nat :=
  b2n x.feed + 2 * x.flags.toNat + 2 ^ 8 * x.fault + 2 ^ 16 * x.parts

/-- GETST (R117): FAULT and PARTS of the issuing thread are 0. -/
def execGetst (i : Issue) (s : State) : Res :=
  .next (issue (row1 0x1A 3) 1 i s fun s _ f =>
    retire s i.jet i.thread fun x => x.setReg f.d (BitVec.ofNat 64 (stateWord { x with fault := 0, parts := 0 })))

/-- CLRFLG (R116). -/
def execClrflg (i : Issue) (s : State) : Res :=
  .next (issue (row1 0x1A 4) 1 i s fun s _ _ => retire s i.jet i.thread fun x => { x with flags := 0 })

/-- RDTIME (R118). -/
def execRdtime (i : Issue) (s : State) : Res :=
  .next (issue (row1 0x1B 0) 1 i s fun s _ f =>
    retire s i.jet i.thread fun x => x.setReg f.d (BitVec.ofNat 64 s.ticks))

/-- POISON (R118, R18). -/
def execPoison (i : Issue) (s : State) : Res :=
  .next (issue (row1 0x1B 2) 1 i s fun s c _ =>
    updCtx (retire s i.jet i.thread id) c fun x => { x with poison := true })

end Sys2Proof.Machine
end

