-- ==== Sys2Proof/Machine/UnitConn.lean ====
section
/-!
DEFINITION. Connections of spouts (endpoint 0x7000 + b) and of the stack units (0x3000) to jets. A pass opens its own and closes them
when it completes (R194, R206); the stack units hold one for each jet and channel while a message needs it (R609).
-/

namespace Sys2Proof.Machine

/-- Endpoint of spout `b`, and the one that weirs and sluices send from. -/
def spoutEp (b : Nat) : Nat := 0x7000 + b
def stackEp : Nat := 0x3000

/-- Index of a unit's connection to a jet's channel. -/
def unitIdx (s : State) (ep jet ch : Nat) : Option Nat :=
  (s.jets.conns.find? fun e => e.1 / 65536 == ep && e.2.used && e.2.dst == jet && e.2.ch == ch).map (·.1 % 65536)

/-- A context that does not run keeps a connection of this index. -/
def reservedIdx (s : State) (ep i : Nat) : Bool :=
  let has (v : Option Save) : Bool := v.any fun v => v.conns.any fun e => e.1 == ep * 65536 + i
  s.host.ctxs.any fun e => has e.2.save || has e.2.kept

/-- Sends a request for a connection on the lowest free index (R49). -/
def unitConnect (s : State) (ep jet ch : Nat) : Option Nat × State :=
  match leastBelow 65536 fun i => !(getConn s ep i).used && !reservedIdx s ep i with
  | none => (none, s)
  | some i =>
    let s := updConn s ep i fun _ => { used := true, pending := true, dst := jet, ch }
    (some i, countP0 { s with jets := { s.jets with reqs := s.jets.reqs ++ [{ src := ep, srcIdx := i, dst := jet, ch }] } } 1)

/-- Opens the connection, or keeps the one that exists (R609). -/
def unitOpen (s : State) (ep jet ch : Nat) : State :=
  match unitIdx s ep jet ch with
  | some i => updConn s ep i fun x => { x with closing := false }
  | none => (unitConnect s ep jet ch).2

/-- A credit is at hand on a connection. -/
def connReady (s : State) (ep i : Nat) : Bool := let x := getConn s ep i; x.used && !x.pending && decide (0 < x.credits)

/-- Sends one message on a connection, using a credit (R51); the caller has checked `connReady`. -/
def connSend (s : State) (ep i tag : Nat) (data : List Byte) : State :=
  let x := getConn s ep i
  let m : Msg := { src := ep, srcIdx := i, dst := x.dst, ch := x.ch, tag, thread := 0, data }
  let s := updConn s ep i fun x => { x with credits := x.credits - 1 }
  countP0 { s with jets := { s.jets with msgs := s.jets.msgs ++ [m] } } (data.length / 64)

/-- The same for the connection to a jet's channel. -/
def unitReady (s : State) (ep jet ch : Nat) : Bool := (unitIdx s ep jet ch).any (connReady s ep)

def unitSend (s : State) (ep jet ch tag : Nat) (data : List Byte) : State :=
  match unitIdx s ep jet ch with
  | none => s
  | some i => connSend s ep i tag data

/-- A closing connection is freed once every message is in its buffer (R57). -/
def unitFree (s : State) (ep i : Nat) : State :=
  let x := getConn s ep i
  if x.used && x.closing && !x.pending && !inFlight s ep i then dropConn s ep i else s

/-- The unit needs a connection no more. -/
def connClose (s : State) (ep i : Nat) : State := unitFree (updConn s ep i fun x => { x with closing := true }) ep i

def unitClose (s : State) (ep jet ch : Nat) : State :=
  match unitIdx s ep jet ch with
  | none => s
  | some i => connClose s ep i

end Sys2Proof.Machine
end

