-- ==== Sys2Proof/Machine/JetEvents.lean ====
section
/-!
DEFINITION. What the runnel and the terraces do between instructions: hops, messages, requests, credits, stalls, spare jets
and launches (R38, R46 to R58, R66, R71, R72, R419).
-/

namespace Sys2Proof.Machine

/-- HOP_RETRANSMIT (R46): the flit's consecutive failures on hop `hop`. -/
def execHopRetransmit (hop failures : Nat) (s : State) : Res :=
  .next <|
    if failures = 0 then s
    else if failures < 3 then raise (setBit (bump s (oRun + 0x08) 1) oRun 0) 0x001 7 hop .all
    else raise (setBit s oRun 1) 0x064 7 hop .all

/-- No earlier message of the same source, destination and channel is still in flight (R54). -/
def inTurn (s : State) (k : Nat) (m : Msg) : Bool :=
  !((s.jets.msgs.take k).any fun e => e.src == m.src && e.dst == m.dst && e.ch == m.ch)

/-- A message has reached its buffer: the acknowledgement goes back on plane 1 (R45). -/
def acked (s : State) : State := countP1 s 1

def dropMsg (s : State) (k : Nat) : State := { s with jets := { s.jets with msgs := s.jets.msgs.eraseIdx k } }

/-- A message that no channel takes is counted (R58, R606). -/
def discardMsg (s : State) : State := setBit (bump s (oJet + 0x58) 1) (oJet + 0x50) 1

/-- A message enters slot `k` of its channel (R47, R52, R54, R56). -/
def storeMsg (s : State) (m : Msg) (k : Nat) : State :=
  let x := getChan s m.dst m.ch
  let s := writePhys s (slotAddr x k) m.data
  let s := updChan s m.dst m.ch fun x => { x with
    next := x.next + 1
    msgs := SMap.put none x.msgs k (some { src := m.src, srcIdx := m.srcIdx, len := m.data.length / 64,
                                            tag := m.tag, order := x.next, returned := false }) }
  wakeReceiver s m.dst m.ch m.src

/-- The packet of a message to another device (R417, R419). -/
def messagePkt (s : State) (m : Msg) (job : Nat) (r : Nat × Nat × Nat) : Pkt :=
  { hdr := ({ dstDev := r.1, srcDev := s.links.devId, dstEp := r.2.1, srcEp := m.src, kind := 1
              len := m.data.length / 64, job, tag := m.tag, channel := r.2.2 } : Hdr).bytes
    payload := m.data }

/-- MESSAGE_ARRIVAL (R47, R52, R54, R57, R419): message `k` in flight reaches its channel, in slot `slot` where that is
free, else in the lowest free one; or the link port that carries it on. -/
def execMessageArrival (k slot : Nat) (s : State) : Res :=
  .next <|
    match s.jets.msgs[k]? with
    | none => s
    | some m =>
      if !inTurn s k m || !unitsRun s then s
      else if m.dst / 4096 = 4 then
        match (getConn s m.src m.srcIdx).remote, ctxOfJet s m.src with
        | some r, some c =>
          let s := updConn (dropMsg s k) m.src m.srcIdx fun x => { x with out := x.out ++ [m.thread] }
          inject s (messagePkt s m (getCtx s c).job r)
        | _, _ => discardMsg (dropMsg s k)
      else if m.dst / 4096 = 0 then
        let x := getChan s m.dst m.ch
        let free (n : Nat) : Bool := SMap.get none x.msgs n == none
        if x.st == .closed || !x.conns.contains (m.src, m.srcIdx) || decide (64 * x.largest < m.data.length) then
          discardMsg (dropMsg s k)
        else match (if slot < x.slots && free slot then some slot else leastBelow x.slots free) with
          | none => s
          | some n => unitFree (finishDisc (acked (storeMsg (dropMsg s k) m n)) m.src m.srcIdx) m.src m.srcIdx
      else s

/-- The entry of a context's remote channel map (R419). -/
def remoteEntry (s : State) (c ch : Nat) : Option (Nat × Nat × Nat) :=
  match ctxRead s c ((getCtx s c).remoteBase + 8 * ch) 8 with
  | none => none
  | some (bs, _) =>
    let e := leNat bs
    if bitB e 40 then some (bits e 14 0, bits e 31 16, bits e 39 32) else none

/-- A request at a basin row port (R110, R189). -/
def rowPortReq (s : State) (r : ConnReq) : State :=
  let q := getRowPort s (r.dst % 4096)
  let l := 2 ^ (getBasin s (r.dst % 4096 / 16)).feedSources
  if r.ch = 0 && decide (q.conns.length < l) then
    answer (updRowPort s (r.dst % 4096) fun q => { q with conns := q.conns ++ [(r.src, r.srcIdx)] }) r true (32 / l) 1
  else answer s r false 0 0

/-- A request at the chanter of a port: 4 credits on channel 0, one flit (R555). -/
def chanterReq (s : State) (r : ConnReq) : State :=
  if r.ch = 0 then
    answer (updPort s (r.dst % 4096) fun q => { q with conns := q.conns ++ [(r.src, r.srcIdx)] }) r true 4 1
  else answer s r false 0 0

/-- A request at a link port: to the entry of the remote channel map, or refused (R419). -/
def linkReq (s : State) (r : ConnReq) : State :=
  match ctxOfJet s r.src with
  | none => answer s r false 0 0
  | some c =>
    match remoteEntry s c r.ch with
    | none => answer s r false 0 0
    | some e =>
      inject (updConn s r.src r.srcIdx fun x => { x with remote := some e })
        { hdr := ({ dstDev := e.1, srcDev := s.links.devId, dstEp := e.2.1, srcEp := r.src, kind := 2
                    job := (getCtx s c).job, channel := e.2.2 } : Hdr).bytes, payload := [] }

/-- A request reaches a jet's channel: decided, or held until the channel opens (R49). -/
def jetReq (s : State) (r : ConnReq) : State :=
  if (getChan s r.dst r.ch).st == .closed then
    { s with jets := { s.jets with held := s.jets.held ++ [r] } }
  else decideReq s r

/-- CONNECTION_REQUEST (R49, R50, R189, R419, R555): request `k` in flight reaches its destination. -/
def execConnectionRequest (k : Nat) (s : State) (fs : List MemFault := []) : Res :=
  .next <|
    match s.jets.reqs[k]? with
    | none => s
    | some r => memFaults fs s fun s =>
      let s := { s with jets := { s.jets with reqs := s.jets.reqs.eraseIdx k } }
      if r.dst / 4096 = 0 then jetReq s r
      else if r.dst / 4096 = 1 then rowPortReq s r
      else if r.dst / 4096 = 4 then linkReq s r
      else if r.dst / 4096 = 5 then chanterReq s r
      else answer s r false 0 0

/-- A grant or a refusal reaches a jet: the CONN that waits for it ends (R49). -/
def jetGrant (s : State) (g : Grant) : State :=
  let s := if g.granted then
      updConn s g.ep g.idx fun x => { x with pending := false, credits := g.credits, largest := g.largest }
    else setBit (updConn s g.ep g.idx fun _ => {}) oRun 3
  let v := if g.granted then resultWord stOk g.idx else resultWord stRefused 0
  let hits : Wait → Bool := fun w => match w with
    | .conn n _ => n == g.idx
    | _ => false
  match firstWaiting s g.ep .waitCredit hits with
  | none => s
  | some t =>
    match (getThread s g.ep t).wait with
    | .conn _ d => endWait s g.ep t [(d, v)]
    | _ => s

/-- CREDIT_RETURN (R51, R52): credit `k` on its way reaches its connection. -/
def execCreditReturn (k : Nat) (s : State) : Res :=
  .next <|
    match s.jets.credits[k]? with
    | none => s
    | some (ep, idx) =>
      let s := { s with jets := { s.jets with credits := s.jets.credits.eraseIdx k } }
      if connUsable (getConn s ep idx) then creditIn s ep idx 1 else s

/-- The wait limit of R66, in timebase ticks. -/
def waitLimit (s : State) : Nat := regOf s (oJet + 0x48) % 1024 * 50000000

/-- Reports a thread that has waited beyond the limit, once for a wait (R66). -/
def reportWait (jet thread : Nat) (s : State) : State :=
  let x := getThread s jet thread
  let waits := x.st == .waitMsg || x.st == .waitCredit || x.st == .waitBar
  if waits && !x.stalled && decide (waitLimit s < s.ticks - x.since) then
    match ctxOfJet s jet with
    | none => s
    | some c =>
      let kind := match x.wait with
        | .barwait h _ _ => if bits h 17 16 = 3 then 3 else 0
        | _ => 0
      let s := updThread s jet thread fun x => { x with stalled := true }
      let s := setBit s (oJet + 0x50) 2
      let s := postEvent s c 0x08 0xFFFFFFFF (toLe 1 kind ++ [0] ++ toLe 2 jet)
      ledgerRecord s 0x019 ((s.ticks - x.since) / 50000000) (toLe 2 jet ++ toLe 1 thread)
  else s

/-- WAIT_STALL (R66). -/
def execWaitStall (jet thread : Nat) (s : State) : Res := .next (reportWait jet thread s)

/-- Moves a logical jet to the lowest-numbered spare of its terrace (R32, R71); it has not failed any more. -/
def moveToSpare (s : State) (jet : Nat) : State :=
  let t := jet / 512
  let p := 520 * t + 512 + (getTerrace s t).sparesUsed
  updTerrace { s with jets := { s.jets with
    map := SMap.put none s.jets.map jet (some p), failed := s.jets.failed.filter (· != jet) } } t
    fun x => { x with sparesUsed := x.sparesUsed + 1 }

/-- Every outstanding memory access of a thread is complete. -/
def accessesDone (x : Thread) : Bool :=
  x.wops == 0 && match x.wait with
    | .load _ _ _ _ => false
    | .store _ _ => false
    | .bulk _ _ _ => false
    | _ => true

/-- Every message of or to the terrace has arrived, and every access of its threads is complete (R68, R71). -/
def terraceQuiet (s : State) (t : Nat) : Bool :=
  let on (ep : Nat) : Bool := ep / 512 == t
  s.jets.msgs.all (fun m => !on m.src && !on m.dst)
  && s.jets.conns.all (fun e => !on (e.1 / 65536) || e.2.out.isEmpty)
  && s.jets.threads.all (fun e => !on (e.1 / 256) || accessesDone e.2)
  && s.mem.weirReqs.all fun r => !on r.src

/-- The threads of a terrace that are at an instruction boundary stop, and those that wait stop when their access is complete (R71
step 1); and they go on (step 5). -/
def stopTerrace (s : State) (t : Nat) : State :=
  let s := updTerrace s t fun x => { x with stopped := true, substituting := true }
  { s with jets := { s.jets with threads := s.jets.threads.map fun e =>
    (e.1, if e.1 / 256 / 512 = t ∧ e.2.st = .ready then stopThread e.2 else e.2) } }

def resumeTerrace (s : State) (t : Nat) : State :=
  if (getTerrace s t).substituting then
    let s := updTerrace s t fun x => { x with stopped := false, substituting := false }
    { s with jets := { s.jets with threads := s.jets.threads.map fun e =>
      (e.1, if e.1 / 256 / 512 = t then resumeThread e.2 else e.2) } }
  else s

/-- Every barrier that a thread of jet `jet` has joined breaks (R72). -/
def breakJet (s : State) (jet : Nat) : State :=
  match ctxOfJet s jet with
  | none => s
  | some c => breakBarsOf s fun w => w / 2 ^ 20 == c && w % 2 ^ 20 / 256 == jet

/-- A jet that could not be copied is retired: its logical number moves to the spare, whose memory holds nothing that the manual
states (R72; log entry 3). -/
def retireJet (s : State) (jet : Nat) : State :=
  let s := moveToSpare (breakJet s jet) jet
  fresh (writePhys s (jlmBase jet) ((List.range 0x80000).map fun i => Config.freeByte s.free (jlmBase jet + i)))

/-- JET_SUBSTITUTION (R71, R72, R74, R75): a jet that has failed is substituted once its terrace has come to rest, and the terrace
stops until then; `good` says whether the checks of its state pass. -/
def execJetSubstitution (jet : Nat) (good : Bool) (s : State) : Res :=
  .next <|
    let t := jet / 512
    let p := physJet s jet
    if 4096 ≤ jet || !unitsRun s || !s.jets.failed.contains jet then s
    else if !terraceQuiet s t then stopTerrace s t
    else
      let s := resumeTerrace s t
      if 8 ≤ (getTerrace s t).sparesUsed then raise (setBit (breakJet s jet) (oJet + 0x50) 6) 0x066 0 p (.terrace t)
      else if good then raise (setBit (moveToSpare s jet) (oJet + 0x50) 5) 0x040 0 p (.terrace t)
      else raise (retireJet s jet) 0x065 0 p (.terrace t)

/-! Launches (R38, R558). -/

/-- Logical jets of a terrace mask. -/
def jetsOf (mask : Nat) : List Nat := (List.range 4096).filter fun j => bitB mask (j / 512)

/-- Threads that a LAUNCH names, jet × 256 + thread. -/
def launchThreads (raw : List Byte) : List Nat :=
  (jetsOf (leAt raw 8 1)).flatMap fun j => (List.range (leAt raw 9 1 + 1)).map fun t => j * 256 + t

/-- Starts the threads of a LAUNCH when all of them are FREE (R38). -/
def tryLaunch (s : State) (c : Nat) (m : Cmd) : State :=
  let ts := launchThreads m.raw
  if ts.all fun k => (getThread s (k / 256) (k % 256)).st == .free then
    let pc := BitVec.ofNat 64 (leAt m.raw 16 8)
    let arg := BitVec.ofNat 64 (leAt m.raw 24 8)
    let s := ts.foldl (fun s k =>
      updThread s (k / 256) (k % 256) fun _ => newThread pc arg (k / 256) (k % 256) (bitB (leAt m.raw 10 1) 0)) s
    updCtx s c fun x => { x with
      cmds := x.cmds.map fun n => if n.slot = m.slot then { n with threads := ts } else n }
  else s

/-- LAUNCH_START (R38): the oldest LAUNCH of the context that waits starts, if it can. -/
def execLaunchStart (ctx : Nat) (s : State) : Res :=
  .next <|
    let waits (m : Cmd) : Bool := m.started && cmdOp m == 0x02 && m.threads.isEmpty
    match (getCtx s ctx).cmds.find? waits with
    | some m => if (getCtx s ctx).st == .running && !(getCtx s ctx).saved && unitsRun s then tryLaunch s ctx m else s
    | none => s

end Sys2Proof.Machine
end

