-- ==== Sys2Proof/Machine/WeirMath.lean ====
section
/-!
DEFINITION. Lines, elements and declarations of a weir, as functions of values (R359 to R368).
-/

namespace Sys2Proof.Machine

/-! Fields of a declaration (R361). -/

def rgEntry (r : List Byte) : Nat := wfld r 0 9 0
def rgMode (r : List Byte) : Nat := wfld r 0 11 10
def rgOp (r : List Byte) : Nat := wfld r 0 13 12
def rgType (r : List Byte) : Nat := wfld r 0 16 14
def rgIdentity (r : List Byte) : Bool := wfld r 0 17 17 == 1
def rgSr (r : List Byte) : Bool := wfld r 0 18 18 == 1
def rgOut (r : List Byte) : Nat := wfld r 0 23 19
def rgNotify (r : List Byte) : Bool := wfld r 0 24 24 == 1
def rgJet (r : List Byte) : Nat := wfld r 0 36 25
def rgChan (r : List Byte) : Nat := wfld r 0 44 37
def rgBase (r : List Byte) : Nat := wfld r 1 47 0
def rgLines (r : List Byte) : Nat := wfld r 2 31 0
def rgContrib (r : List Byte) : Nat := wfld r 2 63 32
def rgWork (r : List Byte) : Nat := wfld r 3 47 0
def rgResult (r : List Byte) : Nat := wfld r 4 47 0
def rgTensor (r : List Byte) : Nat := wfld r 5 23 0
def rgE0 (r : List Byte) : Nat := wfld r 6 47 0

/-- Bytes of an element, and elements of a line (R359). -/
def elemSize (ty : Nat) : Nat := if ty = 1 then 2 else if ty = 3 then 8 else if 4 ≤ ty then 5 else 4
def elemCount (ty : Nat) : Nat := if ty = 1 then 32 else if ty = 3 then 8 else if 4 ≤ ty then 12 else 16

def lineElems (ty : Nat) (line : List Byte) : List Nat :=
  (List.range (elemCount ty)).map fun e => leAt line (elemSize ty * e) (elemSize ty)

def elemsLine (ty : Nat) (es : List Nat) : List Byte := slice (es.flatMap (toLe (elemSize ty))) 0 64

/-- Bytes of a result element of OUT_FMT (R367); 0 where the result stays at the target. -/
def resultSize (out : Nat) : Nat := if out = 0x18 then 4 else if out = 0x01 then 2 else if out = 0x1A then 8 else 0

/-- Bytes of a target line's work area (R363). -/
def workSize (r : List Byte) : Nat :=
  let n := rgContrib r
  if rgMode r = 0 then 8 else if rgMode r = 1 then 64 * (1 + n) else 64 * (1 + ceilDiv n 512 + n)

def workAt (r : List Byte) (i : Nat) : Nat := rgWork r + workSize r * i

/-- Slot `p` of an exact-partial line's work area (R363). -/
def slotAt (r : List Byte) (i p : Nat) : Nat := workAt r i + 64 * (1 + ceilDiv (rgContrib r) 512 + p)

/-- The combinations, the reserved bits and the fields that must be 0 of R361, R362 and R100. -/
def declOk (r : List Byte) : Bool :=
  let m := rgMode r
  let o := rgOut r
  let w40 := rgType r == 4
  let n := rgContrib r
  decide (m ≤ 2) && decide (rgOp r ≤ 2) && decide (rgType r ≤ 5)
  && (m == 2) == decide (4 ≤ rgType r) && (m != 2 || rgOp r == 0)
  && (!rgSr r || (m == 1 && rgOp r == 0 && decide (rgType r ≤ 1)))
  && (if m == 2 then (if w40 then o == 0x1B || o == 0x18 || o == 0x01 else o == 0x1B || o == 0x1A) else o == 0)
  && (resultSize o != 0 || rgResult r == 0)
  && rgBase r % 64 == 0 && rgWork r % 64 == 0
  && rgLines r != 0 && n != 0 && (m != 1 || decide (n ≤ 256))
  && onlyBits (leAt r 0 8) 0x1FFFFFFFFFFF && onlyBits (leAt r 8 8) 0xFFFFFFFFFFFF
  && onlyBits (leAt r 24 8) 0xFFFFFFFFFFFF && onlyBits (leAt r 32 8) 0xFFFFFFFFFFFF
  && onlyBits (leAt r 40 8) 0xFFFFFF && onlyBits (leAt r 48 8) 0xFFFFFFFFFFFF && leAt r 56 8 == 0

/-! Elements. -/

def tyFmt (ty : Nat) : Fmt := if ty = 1 then bf16 else f32
def tyIsF (ty : Nat) : Bool := decide (ty ≤ 1)
def tyWidth (ty : Nat) : Nat := 8 * elemSize ty

/-- The identity of an operation in a type (R359). -/
def identityOf (op ty : Nat) : Nat :=
  let w := tyWidth ty
  if op = 0 then 0
  else if tyIsF ty then (tyFmt ty).ieeeRound (.inf (op == 2))
  else if op = 1 then 2 ^ (w - 1) - 1 else 2 ^ (w - 1)

/-- x ← op(x, c) of R364 and R365, `rm` the rounding of a floating-point add. -/
def weirElem (op ty : Nat) (rm : Rnd) (x c : Nat) : Nat :=
  let w := tyWidth ty
  if tyIsF ty then
    let f := tyFmt ty
    let a := f.decode x
    let b := f.decode c
    if op = 0 then (narrowF f rm (a.add b)).1
    else f.ieeeRound (if op = 1 then a.minNan b else a.maxNan b)
  else if op = 0 then (x + c) % 2 ^ w
  else if (toSigned w x < toSigned w c) == (op == 1) then x else c

/-- A whole line; `rnd` rounds element e. -/
def weirLine (op ty : Nat) (rnd : Nat → Rnd) (x c : List Byte) : List Byte :=
  let cs := lineElems ty c
  elemsLine ty ((lineElems ty x).mapIdx fun e v => weirElem op ty (rnd e) v (cs.getD e 0))

def identityLine (op ty : Nat) : List Byte := elemsLine ty (List.replicate (elemCount ty) (identityOf op ty))

/-- Class of a final floating-point element (R368). -/
def finalCls (f : Fmt) (n : Nat) : Cls :=
  match f.decode n with
  | .fin _ m _ =>
    let mag := n % 2 ^ (f.width - 1)
    if m = 0 then .zero else if mag = f.maxMag then .ovf else if mag < 2 ^ f.fb then .sub else .normal
  | _ => .nonfinite

/-- Class of a final element of a plain or ordered line (R368). -/
def lineCls (ty n : Nat) : Cls :=
  if tyIsF ty then finalCls (tyFmt ty) n else if n = 0 then .zero else .normal

/-- The result of an exact-partial element in OUT_FMT, and its class (R367, R368). -/
def partialOut (out : Nat) (isInt : Bool) (v : W40) : Nat × Option Cls :=
  if out = 0x1B then
    (v.toNat, if !isInt && !(w40Val v).isFin then some .nonfinite else none)
  else if out = 0x1A then
    (ofSigned 64 v.toInt, some (if int40Sat v then .ovf else if v.toInt = 0 then .zero else .normal))
  else
    let f := if out = 0x01 then bf16 else f32
    let (n, c) := narrowF f .rne (w40Val v)
    (n, some (if c = .normal && n % 2 ^ (f.width - 1) = f.maxMag then .ovf else c))

def addCls (counts : List Nat) (cs : List (Option Cls)) : List Nat :=
  cs.foldl (fun l c => match c with
    | none => l
    | some c => updAt l c.idx fun n => (n + 1) % 2 ^ 64) counts

/-- The completion message of a region (R368). -/
def regionMsg (g : Region) : List Byte :=
  toLe 2 (rgEntry g.raw) ++ toLe 1 (b2n g.longsum) ++ List.replicate 5 0 ++
    g.counts.flatMap (toLe 8) ++ List.replicate 8 0

/-- Twelve values of an exact-partial line (R360). -/
def partVals (line : List Byte) : List W40 :=
  (List.range 12).map fun e => BitVec.ofNat 40 (leAt line (5 * e) 5)

def valBytes (vs : List W40) : List Byte := vs.flatMap fun v => toLe 5 v.toNat

/-- A slot's line: values, VALID and LEVEL (R363). -/
def slotLine (vs : List W40) (level : Nat) : List Byte := valBytes vs ++ toLe 4 (2 ^ 31 + level)

end Sys2Proof.Machine
end

