-- ==== Sys2Proof/Machine/Weir.lean ====
section
/-!
DEFINITION. The weirs: requests in the three modes, completion of lines and regions, rejection, declarations and release, and the
notifications of weirs and sluices (R359 to R370, R609).
-/

namespace Sys2Proof.Machine

/-! Context memory that is not CACHEABLE (R348, R363). -/

/-- Bytes within one 64-byte line of a context's memory; zeros where a page no longer translates (log entry 18). -/
def readUn (s : State) (c va n : Nat) : List Byte :=
  match physOf s c va false with
  | some p => readPhys s p n
  | none => List.replicate n 0

def writeUn (s : State) (c va : Nat) (bs : List Byte) : State :=
  match physOf s c va true with
  | some p => writePhys s p bs
  | none => s

/-- A value that can lie in two lines, byte by byte. -/
def writeAcross (s : State) (c va : Nat) (bs : List Byte) : State :=
  bs.zipIdx.foldl (fun s b => writeUn s c (va + b.2) [b.1]) s

/-- A range becomes zero, 64-byte line by 64-byte line. -/
def zeroUn (s : State) (c va n : Nat) : State :=
  (partsOf 0x80000 va n).foldl (fun s p =>
    match physOf s c p.1 true with
    | some a => zeroPhys s a p.2
    | none => s) s

/-- The step counter that keys stochastic rounding (R251). -/
def stepOf (s : State) (c : Nat) : Nat :=
  let x := getCtx s c
  if x.eval then (getCtx s x.evalOf).step.toNat else x.step.toNat

/-- A context's poison flag is set (R18, R246). -/
def poisonCtx (s : State) (c : Nat) : State := updCtx s c fun x => { x with poison := true }

/-! Regions. -/

def getRegion (s : State) (n : Nat) : Option Region := SMap.get none s.mem.regions n

def updRegion (s : State) (n : Nat) (f : Region → Region) : State :=
  { s with mem := { s.mem with regions := SMap.upd none s.mem.regions n fun g => g.map f } }

/-- The region of a context that holds a target line. -/
def regionAt (s : State) (c va : Nat) : Option Region :=
  (s.mem.regions.filterMap (·.2)).find? fun g =>
    g.ctx == c && decide (rgBase g.raw ≤ va) && decide (va < rgBase g.raw + 64 * rgLines g.raw)

def lineIndex (g : Region) (va : Nat) : Nat := (va - rgBase g.raw) / 64

/-- The PRECOND blocks of a context whose gradient region is `n` (R386). -/
def operandBlocks (s : State) (c n : Nat) : List (Nat × Nat) :=
  s.sluice.blocks.filterMap fun e =>
    match e.2 with
    | some b => if e.1 / 16384 = c && wfld b.raw 0 3 0 == 3 && wfld b.raw 7 9 0 == n then some (c, e.1 % 16384) else none
    | none => none

/-- A line has completed: classes, poison, and with the last line the region (R368). -/
def lineDone (s : State) (g : Region) (i : Nat) (cs : List (Option Cls)) : State :=
  let n := rgEntry g.raw
  let s := zeroUn s g.ctx (workAt g.raw i) (workSize g.raw)
  let s := if cs.contains (some .nonfinite) then setBit (poisonCtx s g.ctx) oWeir 9 else s
  let s := updRegion s n fun g => { g with
    done := g.done + 1, counts := addCls g.counts cs, lines := SMap.put false g.lines i true
    blocks := SMap.put 0 g.blocks i 0, complete := g.done + 1 == rgLines g.raw }
  match getRegion s n with
  | none => s
  | some g =>
    let s := if g.complete then
        { s with sluice := { s.sluice with operands := s.sluice.operands ++ operandBlocks s g.ctx n } }
      else s
    if g.complete && rgNotify g.raw then
      { s with mem := { s.mem with notes := s.mem.notes ++
        [{ ctx := g.ctx, sluice := false, jet := rgJet g.raw, ch := rgChan g.raw, data := regionMsg g }] } }
    else s

/-! Rejection (R369). -/

/-- Causes in the order of R369. -/
def cPage : Nat := 0
def cUnmapped : Nat := 1
def cNoRegion : Nat := 2
def cMismatch : Nat := 3
def cTag : Nat := 4
def cPart : Nat := 5
def cExcess : Nat := 6
def cDeclare : Nat := 7

/-- Applies nothing: status, event, ledger, and the context's kernel is aborted (R369). -/
def weirReject (s : State) (c cause stack region src : Nat) : State :=
  let s := setBit s oWeir cause
  let s := if cause = cDeclare then s else bump s (oWeir + 0x18) 1
  let s := if cause = cPage || cause = cUnmapped then cisRefused s else s
  let s := postEvent s c 0x06 0xFFFFFFFF (toLe 2 cause ++ toLe 2 region ++ toLe 2 src)
  let s := ledgerRecord s 0x018 cause (toLe 1 stack ++ toLe 2 region ++ toLe 2 src)
  abortKernel s c

/-! Requests. -/

/-- The target's physical address, and whether its page is CACHEABLE; a WOP whose page no longer translates keeps the address its
jet checked (R100, R551). -/
def weirTarget (s : State) (r : WReq) : Option (Nat × Bool) :=
  match locate s r.ctx r.va true with
  | some (.hbm pa k) => some (pa, k)
  | _ => if r.thread.isSome then some (r.addr, false) else none

/-- The request has been performed or rejected, as a FENCE sees it (R98). -/
def weirEnd (s : State) (r : WReq) : State :=
  match r.thread with
  | none => s
  | some t => if r.orphan then s else updThread s (t / 256) (t % 256) fun x => { x with wops := x.wops - 1 }

/-- x ← op(x, c) on a line of memory (R364, R365). -/
def applyLine (s : State) (pa op ty : Nat) (fromIdentity : Bool) (rnd : Nat → Rnd) (line : List Byte) : State :=
  let old := if fromIdentity then identityLine op ty else readPhys s pa 64
  bump (writePhys s pa (weirLine op ty rnd old line)) (oWeir + 0x10) 1

def lineClasses (s : State) (pa ty : Nat) : List (Option Cls) :=
  (lineElems ty (readPhys s pa 64)).map fun n => some (lineCls ty n)

/-- A plain request (R364): in a declared region it is counted. -/
def weirPlain (s : State) (r : WReq) (pa : Nat) (g : Option Region) : State :=
  match g with
  | none => applyLine s pa r.op r.ty false (fun _ => .rne) r.data
  | some g =>
    let i := lineIndex g r.va
    let w := workAt g.raw i
    let n := leNat (readUn s g.ctx w 4)
    let s := applyLine s pa r.op r.ty (rgIdentity g.raw && n == 0) (fun _ => .rne) r.data
    if n + 1 = rgContrib g.raw then lineDone s g i (lineClasses s pa r.ty)
    else writeUn s g.ctx w (toLe 4 (n + 1))

/-- Rounding of an ordered contribution (R365). -/
def orderedRnd (s : State) (g : Region) (i tag e : Nat) : Rnd :=
  let k : SrKey := { seed := (getCtx s g.ctx).seed, tensor := rgTensor g.raw, point := 2, sub := tag, step := stepOf s g.ctx }
  k.rnd (rgSr g.raw) (rgE0 g.raw + i * elemCount (rgType g.raw) + e)

/-- Applies the contribution of a tag to a line (R365). -/
def applyTag (g : Region) (i pa t : Nat) (line : List Byte) (s : State) : State :=
  applyLine s pa (rgOp g.raw) (rgType g.raw) (rgIdentity g.raw && t == 0) (orderedRnd s g i t) line

/-- Applies the staged contributions from tag `t` on, while they are consecutive (R365): the next tag due. -/
def applyStaged (g : Region) (i pa : Nat) : Nat → Nat → State → State × Nat
  | 0, t, s => (s, t)
  | f + 1, t, s =>
    let w := workAt g.raw i
    if t < rgContrib g.raw && bitB (leNat (readUn s g.ctx (w + 32) 32)) t then
      applyStaged g i pa f (t + 1) (applyTag g i pa t (readUn s g.ctx (w + 64 * (1 + t)) 64) s)
    else (s, t)

/-- An ordered request (R363, R365): the next due one is applied, and then every consecutive staged one; another one is staged. The header
counts it, and its bitmap holds the tags that are still staged. -/
def weirOrdered (s : State) (r : WReq) (pa : Nat) (g : Region) : State :=
  let i := lineIndex g r.va
  let w := workAt g.raw i
  let h := readUn s g.ctx w 64
  let h := patch h 2 (toLe 2 (leAt h 2 2 + 1))
  if r.tag = leAt h 0 2 then
    let (s, t) := applyStaged g i pa 256 (r.tag + 1) (applyTag g i pa r.tag r.data s)
    if t = rgContrib g.raw then lineDone s g i (lineClasses s pa (rgType g.raw))
    else writeUn s g.ctx w (patch (patch h 0 (toLe 2 t)) 32 (toLe 32 (leAt h 32 32 / 2 ^ t * 2 ^ t)))
  else
    let s := writeUn s g.ctx (w + 64 * (1 + r.tag)) r.data
    writeUn s g.ctx w (patch h 32 (toLe 32 (leAt h 32 32 ||| 2 ^ r.tag)))

/-- A tag has been received for a line (R369). -/
def tagSeen (s : State) (g : Region) (i tag : Nat) : Bool :=
  let h := readUn s g.ctx (workAt g.raw i) 64
  SMap.get false g.lines i || decide (tag < leAt h 0 2) || bitB (leAt h 32 32) tag

/-- A part has been received for a line (R369). -/
def partSeen (s : State) (g : Region) (i p : Nat) : Bool :=
  SMap.get false g.lines i ||
    bitB (leNat (readUn s g.ctx (workAt g.raw i + 64 * (1 + p / 512)) 64)) (p % 512)

/-- The climb of R366 from part `p` at level `l`: the state, and the top node when it is reached. -/
def climb (g : Region) (i : Nat) : Nat → Nat → Nat → List W40 → State → State × Option (Nat × List W40)
  | 0, _, p, v, s => (s, some (p, v))
  | f + 1, l, p, v, s =>
    let n := rgContrib g.raw
    let add := sumAdd (rgType g.raw == 5)
    let sib := p ^^^ 2 ^ l
    let up := if bitB p l then sib else p
    if n ≤ sib then climb g i f (l + 1) up v s
    else
      let a := slotAt g.raw i sib
      let x := readUn s g.ctx a 64
      if leAt x 60 4 = 2 ^ 31 + l then
        let y := partVals x
        let v' := if p < sib then List.zipWith add v y else List.zipWith add y v
        climb g i f (l + 1) up v' (writeUn s g.ctx (a + 60) (toLe 4 0))
      else (writeUn s g.ctx (slotAt g.raw i p) (slotLine v l), none)

/-- Levels of the padded tree, at most 16 (R366). -/
def treeHeight (n : Nat) : Nat := Nat.min (clog2 n) 16

/-- Adds block sums that lie in their slots into the sequential sum of slot 0, in ascending block (R233, R366). -/
def addBlocks (g : Region) (i : Nat) : Nat → Nat → State → State × Nat
  | 0, b, s => (s, b)
  | f + 1, b, s =>
    let a := slotAt g.raw i (65536 * b)
    let x := readUn s g.ctx a 64
    if 65536 * b < rgContrib g.raw && leAt x 60 4 == 2 ^ 31 + 16 then
      if b = 0 then addBlocks g i f 1 s
      else
        let z := partVals (readUn s g.ctx (slotAt g.raw i 0) 64)
        let v := List.zipWith (sumAdd (rgType g.raw == 5)) z (partVals x)
        let s := writeUn s g.ctx (a + 60) (toLe 4 0)
        addBlocks g i f (b + 1) (writeUn s g.ctx (slotAt g.raw i 0) (slotLine v 16))
    else (s, b)

/-- Writes a line's result according to OUT_FMT (R367) and completes the line. -/
def partialResult (s : State) (g : Region) (i : Nat) (v : List W40) : State :=
  let o := rgOut g.raw
  let es := v.map (partialOut o (rgType g.raw == 5))
  let n := resultSize o
  let s := if n = 0 then writeUn s g.ctx (rgBase g.raw + 64 * i) (valBytes v ++ toLe 4 0)
    else es.zipIdx.foldl (fun s e => writeAcross s g.ctx (rgResult g.raw + (12 * i + e.2) * n) (toLe n e.1.1)) s
  lineDone s g i (es.map (·.2))

/-- A region's first sum beyond 2^16 parts raises LONGSUM (R233, R366). -/
def raiseLongsum (s : State) (g : Region) (stack : Nat) : State :=
  if 65536 < rgContrib g.raw && !g.longsum then
    let s := setBit (updRegion s (rgEntry g.raw) fun g => { g with longsum := true }) oWeir 8
    ledgerRecord s 0x011 (rgContrib g.raw) (toLe 1 5 ++ toLe 1 stack)
  else s

/-- The values of an arriving exact-partial line: a W40 zero or NaN is read as the canonical one (R219, R257). -/
def arrivedVals (g : Region) (line : List Byte) : List W40 :=
  (partVals line).map fun v => if rgType g.raw = 5 then v else w40Canon v

/-- An exact-partial request (R366). -/
def weirExact (s : State) (r : WReq) (pa : Nat) (g : Region) : State :=
  let i := lineIndex g r.va
  let n := rgContrib g.raw
  let p := leAt r.data 60 4
  let w := workAt g.raw i
  let bm := w + 64 * (1 + p / 512)
  let s := bump s (oWeir + 0x10) 1
  let s := writeUn s g.ctx w (toLe 4 (leNat (readUn s g.ctx w 4) + 1))
  let s := writeUn s g.ctx bm (toLe 64 (leNat (readUn s g.ctx bm 64) ||| 2 ^ (p % 512)))
  match climb g i (treeHeight n) 0 p (arrivedVals g r.data) s with
  | (s, none) => s
  | (s, some (k, v)) =>
    if n ≤ 65536 then partialResult s g i v
    else
      let s := raiseLongsum s g (bits pa 13 11)
      let s := writeUn s g.ctx (slotAt g.raw i k) (slotLine v 16)
      let (s, b) := addBlocks g i (ceilDiv n 65536) (SMap.get 0 g.blocks i) s
      let s := updRegion s (rgEntry g.raw) fun g => { g with blocks := SMap.put 0 g.blocks i b }
      if b = ceilDiv n 65536 then partialResult s g i (partVals (readUn s g.ctx (slotAt g.raw i 0) 64)) else s

/-- Why a request is rejected, in the order of R369; none when it is applied. -/
def weirCause (s : State) (r : WReq) (g : Option Region) : Option Nat :=
  match weirTarget s r with
  | none => some cUnmapped
  | some (_, true) => some cPage
  | some (_, false) =>
    match g with
    | none => if r.mode = 0 then none else some cNoRegion
    | some g =>
      let i := lineIndex g r.va
      let p := leAt r.data 60 4
      if r.op ≠ rgOp g.raw || r.ty ≠ rgType g.raw || r.mode ≠ rgMode g.raw then some cMismatch
      else if r.mode = 1 && (decide (rgContrib g.raw ≤ r.tag) || tagSeen s g i r.tag) then some cTag
      else if r.mode = 2 && (decide (rgContrib g.raw ≤ p) || partSeen s g i p) then some cPart
      else if r.mode = 0 && SMap.get false g.lines i then some cExcess
      else none

/-- A request is checked, then applied or rejected (R364 to R369). -/
def weirApply (s : State) (r : WReq) : State :=
  let g := regionAt s r.ctx r.va
  let stack := bits r.addr 13 11
  match weirCause s r g, weirTarget s r with
  | some k, _ => weirEnd (weirReject s r.ctx k stack ((g.map fun g => rgEntry g.raw).getD 0) r.src) r
  | none, none => s
  | none, some (pa, _) =>
    let s := match g with
      | none => weirPlain s r pa none
      | some g => if r.mode = 0 then weirPlain s r pa (some g) else if r.mode = 1 then weirOrdered s r pa g else weirExact s r pa g
    weirEnd s r

/-- Takes request `k` out of those on their way, where it has the row's mode and no earlier one of its source and line is
waiting (R42); `fs` is what its reads find wrong. A parity failure on the weir's datapath applies it again and is S1, a second one is
S3 (R373). -/
def weirRow (mode k failures : Nat) (fs : List MemFault) (s : State) : State :=
  match s.mem.weirReqs[k]? with
  | none => s
  | some r =>
    let first := !((s.mem.weirReqs.take k).any fun q => q.ctx == r.ctx && q.src == r.src && q.va == r.va)
    if r.mode ≠ mode || !first || !unitsRun s then s
    else memFaults fs s fun s =>
      let stack := bits r.addr 13 11
      let s := { s with mem := { s.mem with weirReqs := s.mem.weirReqs.eraseIdx k } }
      if failures = 0 then weirApply s r
      else
        let again (s : State) : State := raise (setBit s oWeir 10) 0x022 5 stack .all
        if failures = 1 then again (weirApply s r) else raise (again (weirEnd s r)) 0x069 5 stack .all

/-- WEIR_PLAIN_REQUEST (R364). -/
def execWeirPlainRequest (k failures : Nat) (s : State) (fs : List MemFault := []) : Res := .next (weirRow 0 k failures fs s)
/-- WEIR_ORDERED_REQUEST (R365). -/
def execWeirOrderedRequest (k failures : Nat) (s : State) (fs : List MemFault := []) : Res := .next (weirRow 1 k failures fs s)
/-- WEIR_EXACT_PARTIAL (R366). -/
def execWeirExactPartial (k failures : Nat) (s : State) (fs : List MemFault := []) : Res := .next (weirRow 2 k failures fs s)

/-! Declarations (R361 to R363, R370). -/

/-- Every byte of a range lies in HBM pages that are not CACHEABLE, or where admitted in cistern slices or in jet-local windows; `write`
says whether it must be writable. -/
def plainRange (s : State) (c a n : Nat) (cistern jlm write : Bool) : Bool :=
  (partsOf 0x80000 a n).all fun p =>
    match locate s c p.1 write with
    | some (.hbm _ k) => !k
    | some (.cistern _) => cistern
    | some (.jlm _) => jlm
    | none => false

/-- The ranges of a declaration: target, work area and result (R342, R348, R363). -/
def declRanges (s : State) (c : Nat) (r : List Byte) : Bool :=
  plainRange s c (rgBase r) (64 * rgLines r) false false true
  && plainRange s c (rgWork r) (workSize r * rgLines r) true false true
  && (resultSize (rgOut r) == 0 || plainRange s c (rgResult r) (12 * rgLines r * resultSize (rgOut r)) true true true)

/-- The refusals of R362. -/
def declRefused (s : State) (c : Nat) (r : List Byte) : Bool :=
  let l := (getCtx s c).lease
  let n := rgEntry r
  let bytes := 64 * rgLines r
  let overlap := (s.mem.regions.filterMap (·.2)).any fun g =>
    g.ctx == c && decide (rgBase g.raw < rgBase r + bytes) && decide (rgBase r < rgBase g.raw + 64 * rgLines g.raw)
  (getRegion s n).isSome || decide (n < l.regionFirst) || decide (l.regionFirst + l.regionCount ≤ n) || overlap
  || !declOk r || !declRanges s c r

/-- A declaration takes effect in all eight weirs, or is refused with DECLARE (R361, R362); its source is the chanter of the
context's port. -/
def declareRegion (s : State) (c : Nat) (r : List Byte) : State :=
  if declRefused s c r then
    weirReject (if declRanges s c r then s else cisRefused s) c cDeclare 0 (rgEntry r) (0x5000 + (portOf s c).getD 0)
  else
    { s with mem := { s.mem with
      regions := SMap.put none s.mem.regions (rgEntry r) (some { ctx := c, raw := r }) } }

/-- Frees a region entry of a context (R370). -/
def releaseRegion (s : State) (c n : Nat) : State :=
  match getRegion s n with
  | some g => if g.ctx = c then { s with mem := { s.mem with regions := SMap.put none s.mem.regions n none } } else s
  | none => s

/-! Notifications of weirs and sluices (R399, R609). -/

def noteRefused (s : State) (sluice : Bool) : State :=
  if sluice then setBit s (oSlc + 0x04) 13 else setBit s oWeir 11

def dropNote (s : State) (k : Nat) : State := { s with mem := { s.mem with notes := s.mem.notes.eraseIdx k } }

/-- The destination refuses the connection: the message is not sent. A weir or sluice flags it (R609); the chanter of a COLLECTIVE has no
flag for it. -/
def noteLost (s : State) (k : Nat) : State :=
  match s.mem.notes[k]? with
  | none => s
  | some n => if n.ep = stackEp then noteRefused (dropNote s k) n.sluice else dropNote s k

/-- A connection of endpoint `ep` is refused: its oldest message for that channel is lost. -/
def noteGrantRefused (s : State) (ep jet ch : Nat) : State :=
  match (List.range s.mem.notes.length).find? fun i =>
      (s.mem.notes[i]?).any fun n => n.ep == ep && n.jet == jet && n.ch == ch with
  | none => s
  | some k => noteLost s k

/-- NOTIFY_DELIVERY (R561, R609): message `k` opens its connection, or is sent once that holds a credit; the last one for a
channel frees the connection. -/
def execNotifyDelivery (k : Nat) (s : State) : Res :=
  .next <|
    match s.mem.notes[k]? with
    | none => s
    | some n =>
      let same (m : Note) : Bool := m.ep == n.ep && m.jet == n.jet && m.ch == n.ch
      if (s.mem.notes.take k).any same || !unitsRun s then s
      else if 4096 ≤ n.jet || !bitB (getCtx s n.ctx).lease.terraces (n.jet / 512) then noteLost s k
      else if !holdsJet s n.ctx n.jet then s
      else if unitReady s n.ep n.jet n.ch then
        let s := dropNote (unitSend s n.ep n.jet n.ch 0x8000 n.data) k
        if s.mem.notes.any same then s else unitClose s n.ep n.jet n.ch
      else unitOpen s n.ep n.jet n.ch

end Sys2Proof.Machine
end

