-- ==== Sys2Proof/Machine/BasinOps.lean ====
section
/-!
DEFINITION. Shared operations of a basin and its spout: items, statuses and the halt of a queue, the connections of the spout,
reads of context memory (R169 to R206).
-/

namespace Sys2Proof.Machine

/-- The context that holds a basin's lease. -/
def basinCtx (s : State) (b : Nat) : Nat := ((getBasin s b).lease).getD 0

/-- The basin runs: leased, not stopped, and the device's units run (R152, R466). -/
def basinRuns (s : State) (b : Nat) : Bool :=
  let x := getBasin s b
  decide (b < 6) && x.lease.isSome && !x.stopped && unitsRun s &&
    (getCtx s (basinCtx s b)).st == .running

/-- Physical bank `k`. -/
def Basin.bank (x : Basin) (k : Nat) : Bank := if k = 0 then x.bank0 else x.bank1

def setBank (s : State) (b k : Nat) (f : Bank → Bank) : State :=
  updBasin s b fun x => if k = 0 then { x with bank0 := f x.bank0 } else { x with bank1 := f x.bank1 }

/-- The items ahead of one in its queue. -/
def itemsBefore (x : Basin) (seq : BitVec 32) : List Item := x.queue.takeWhile fun i => i.seq != seq

def findItem (x : Basin) (p : Item → Bool) : Option Item := x.queue.find? p

def isLoad (i : Item) : Bool := kindOf i.raw == 2
def isPass (i : Item) : Bool := kindOf i.raw == 1
def isMark (op : Nat) (i : Item) : Bool := kindOf i.raw == 3 && kOp i.raw == op

def updItem (s : State) (b : Nat) (seq : BitVec 32) (f : Item → Item) : State :=
  updBasin s b fun x => { x with queue := x.queue.map fun i => if i.seq = seq then f i else i }

def updRun (s : State) (b : Nat) (seq : BitVec 32) (f : PassRun → PassRun) : State :=
  updBasin s b fun x => { x with passes := x.passes.map fun p => if p.seq = seq then f p else p }

def findRun (x : Basin) (seq : BitVec 32) : Option PassRun := x.passes.find? fun p => p.seq == seq

/-- Every unit of a pass has been accepted. -/
def PassRun.full (p : PassRun) : Bool := p.units == unitsOf p.raw

/-- Every row or term has passed its checks. -/
def PassRun.allChecked (p : PassRun) : Bool := p.full && p.checked == pRows p.raw

/-- The pass that rows are being accepted for. -/
def currentRun (x : Basin) : Option PassRun := x.passes.find? fun p => !p.full

/-! Context memory as spouts and load engines reach it (R348). -/

/-- A read; zeros where the context's page no longer translates (log entry 18). -/
def rdCtx (s : State) (c va n : Nat) : List Byte × State :=
  match ctxRead s c va n with
  | some r => r
  | none => (List.replicate n 0, s)

/-- A write; nothing where the context's page no longer admits it (log entry 18). -/
def wrCtx (s : State) (c va : Nat) (bs : List Byte) : State := (ctxWrite s c va bs).getD s

/-- A reader of the bytes of one range that has been read. -/
def rangeReader (base : Nat) (bs : List Byte) (a : Nat) : Option Nat :=
  if base ≤ a && a < base + bs.length then some (leAt bs (a - base) 1) else none

/-! The spout's connections (R194, R196). -/

/-- Opens a pass's connections; each with its index. -/
def openConns (s : State) (b : Nat) : List (Nat × Nat) → List (Nat × Nat × Nat) × State
  | [] => ([], s)
  | (jet, ch) :: l =>
    let (i, s) := unitConnect s (spoutEp b) jet ch
    let (r, s) := openConns s b l
    ((i.map fun i => (jet, ch, i)).toList ++ r, s)

/-- Index of a pass's connection to a jet's channel. -/
def passConn (cs : List (Nat × Nat × Nat)) (jet ch : Nat) : Option Nat :=
  (cs.find? fun e => e.1 == jet && e.2.1 == ch).map (·.2.2)

/-- Closes connections. -/
def closeConns (s : State) (b : Nat) (cs : List (Nat × Nat × Nat)) : State := cs.foldl (fun s e => connClose s (spoutEp b) e.2.2) s

/-! Physical lines (R164). -/

/-- Physical line of logical line `i`: ascending, skipping retired ones. -/
def physLine (retired : List Nat) (i : Nat) : Nat := ((List.range 520).filter fun p => !retired.contains p).getD i 520

/-- A physical line holds a logical one. -/
def lineUsed (retired : List Nat) (p : Nat) : Bool := (((List.range 520).filter fun q => !retired.contains q).take 512).contains p

/-! Accumulations in memory (R153, R341). -/

/-- 85 B for each logical cell: accumulator, then levels 0 to 15. -/
def cellBytes (acc stack : SMap W40) : List Byte :=
  (List.range 262144).flatMap fun x =>
    toLe 5 (SMap.get 0 acc x).toNat ++ (List.range 16).flatMap fun l => toLe 5 (SMap.get 0 stack (l * 262144 + x)).toNat

/-- Where a basin's accumulations are saved: 22,282,240 B for each claimed basin, in ascending order (log entry 12). -/
def accSaveAt (s : State) (b : Nat) : Nat :=
  let l := (getCtx s (basinCtx s b)).lease
  l.accSave + 22282240 * ((List.range b).filter (bitB l.basins)).length

/-! Completion of items (R203 to R205). -/

def ItemStatus.code : ItemStatus → Nat
  | .ok => 0
  | .badDesc => 1
  | .badRow => 2
  | .sourceChanged => 3
  | .noTile => 4
  | .badMeta => 5
  | .aborted => 6

/-- The status bit, the event, the ledger record and the abort of R205. -/
def reportHalt (s : State) (b : Nat) (seq : BitVec 32) (st : ItemStatus) : State :=
  let s := setBit s (oBsn b + 0x08) (st.code - 1)
  let s := updBasin s b fun x => { x with lastStatus := st.code, lastSeq := seq, halted := true }
  let c := basinCtx s b
  let s := postEvent s c 0x05 0xFFFFFFFF (toLe 4 b ++ toLe 4 seq.toNat ++ toLe 1 st.code)
  let s := ledgerRecord s 0x017 st.code (toLe 1 b ++ toLe 4 seq.toNat)
  abortKernel s c

/-- The halt of a queue once every earlier item has completed (R205). -/
def haltQueue (s : State) (b : Nat) : State :=
  match (getBasin s b).queue.head? with
  | none => s
  | some i =>
    match i.failed with
    | none => s
    | some st => reportHalt s b i.seq st

/-- An item completes with status OK: it leaves the queue, and its counter is incremented (R203). -/
def itemOut (s : State) (b : Nat) (seq : BitVec 32) (comp : Bool) (ctr : Nat) : State :=
  updBasin s b fun x => { x with
    queue := x.queue.filter fun i => i.seq != seq
    comp := if comp then SMap.upd 0 x.comp ctr (· + 1) else x.comp }

/-- The same for an item without a message; a failed item behind it then halts the queue (R205). -/
def itemDone (s : State) (b : Nat) (seq : BitVec 32) (comp : Bool) (ctr : Nat) : State := haltQueue (itemOut s b seq comp ctr) b

/-- Drops the runs, rows and output of passes and the load that `gone` holds of. -/
def dropRuns (s : State) (b : Nat) (gone : BitVec 32 → Bool) : State :=
  let x := getBasin s b
  let cs := (x.passes.filter fun p => gone p.seq).flatMap (·.conns)
  let lost := match x.loading with
    | some q => gone q
    | none => false
  let clear (k : Bank) : Bank := if lost && k.st == .loading then {} else k
  let s := updBasin s b fun x => { x with
    passes := x.passes.filter fun p => !gone p.seq
    array := x.array.filter fun r => !gone r.seq
    replay := x.replay.filter fun r => !gone r.seq
    seg := x.seg.filter fun r => !gone r.seq
    drains := x.drains.filter fun r => !gone r.1
    loading := if lost then none else x.loading
    bank0 := clear x.bank0, bank1 := clear x.bank1 }
  let s := updSpout s b fun x => { x with
    passes := x.passes.filter fun p => !gone p.seq
    units := x.units.filter fun u => !gone u.seq }
  closeConns s b cs

/-- An item completes with a status that halts the queue: it and every later item have no further effect, earlier ones go on
(R205). -/
def itemFail (s : State) (b : Nat) (seq : BitVec 32) (st : ItemStatus) : State :=
  let x := getBasin s b
  let keep := itemsBefore x seq
  let gone (q : BitVec 32) : Bool := !(keep.any fun i => i.seq == q)
  let s := dropRuns s b fun q => gone q && x.queue.any fun i => i.seq == q
  let s := updBasin s b fun x => { x with
    queue := (x.queue.filter fun i => !gone i.seq || i.seq == seq).map fun i =>
      if i.seq = seq then { i with failed := some st } else i }
  haltQueue s b

/-- An earlier item holds every later one: a WAIT, an EXCHANGE or a ROOT_WINDOW that is not done, or a failure (R199, R205,
R307, R391). -/
def holdsLater (i : Item) : Bool := isMark 1 i || isMark 2 i || isMark 3 i || i.failed.isSome

/-- Every item ahead lets `seq` start. -/
def pathClear (x : Basin) (seq : BitVec 32) : Bool := !(itemsBefore x seq).any holdsLater

/-- Rows of every accepted part have left the array, and no replay is due. -/
def arrayIdle (x : Basin) : Bool := x.array.all (·.atSpout) && x.replay.isEmpty

/-- The completion message of R206. -/
def completionFlit (seq : BitVec 32) (st flags rows : Nat) : List Byte :=
  slice (toLe 4 seq.toNat ++ toLe 1 st ++ toLe 1 flags ++ [0, 0] ++ toLe 5 rows) 0 64

end Sys2Proof.Machine
end

