-- ==== Sys2Proof/Machine/BasinCheck.lean ====
section
/-!
DEFINITION. The check of an item at the head of its queue (R125, R171 to R180, R196 to R202, R265, R294, R307, R325, R328, R342,
R391).
-/

namespace Sys2Proof.Machine

/-! The records that the items ahead will leave in the banks (R176). -/

/-- The bank select, and each bank's record: none for a bank that will be EMPTY. -/
structure FutureBanks where
  sel : Nat
  r0 : Option BankRec
  r1 : Option BankRec
  deriving DecidableEq, Repr

def FutureBanks.get (f : FutureBanks) (k : Nat) : Option BankRec := if k = 0 then f.r0 else f.r1

/-- The record of a bank now, or that its load in progress will leave. -/
def recordNow (x : Basin) (k : Bank) : Option BankRec :=
  match k.st with
  | .empty => none
  | .ready => some k.rcd
  | .loading => (findItem x fun i => some i.seq == x.loading).map fun i => loadRec i.raw

/-- What one item ahead does to them. -/
def FutureBanks.after (f : FutureBanks) (i : Item) : FutureBanks :=
  if i.started then f
  else if isLoad i then
    (if f.sel = 0 then { f with r1 := some (loadRec i.raw) } else { f with r0 := some (loadRec i.raw) })
  else if (isPass i && pSwap i.raw) || isMark 2 i then { f with sel := 1 - f.sel }
  else f

def futureBanks (x : Basin) (seq : BitVec 32) : FutureBanks :=
  (itemsBefore x seq).foldl FutureBanks.after ⟨x.sel, recordNow x x.bank0, recordNow x x.bank1⟩

/-! Address ranges (R198, R265, R342). -/

/-- `n` rows of `len` bytes at a stride are accessible. -/
def rowsReach (s : State) (c a stride n len : Nat) (write : Bool) : Bool :=
  allBelow n fun r => reachable s c (a + r * stride) len write

/-- Delivered bytes of a row of `n` elements to MEMORY or to a weir (R269, R360). -/
def destBytes (f : List Byte) (weir : Bool) (n : Nat) : Nat :=
  if weir && fWeirMode f == 2 then 64 * ceilDiv n 12 else rowBytes (fOutFmt f) n

/-- Bytes of a top-k or dispatch record (R303, R331). -/
def recordBytes (f r : List Byte) : Nat :=
  let k := fTopkK f
  ceilDiv (if rtEnable r then 8 * k else k * (outBits (fTopkFmt f) / 8 + 4)) 64 * 64

/-- A destination of output rows or drain rows: `n` rows of `elems` elements. -/
def destOk (s : State) (c : Nat) (f rt : List Byte) (kind a stride n elems : Nat) : Bool :=
  if kind = 1 || kind = 2 then
    (kind = 1 || a % 64 == 0) &&
    rowsReach s c a stride n (if fTopkOnly f then recordBytes f rt else destBytes f (kind = 2) elems) true
  else true

/-- The record index is in the table and its record is accessible (R265). -/
def recordOk (s : State) (c i : Nat) (write : Bool) : Bool :=
  let x := getCtx s c
  i == 0xFFFF || (decide (i < x.scaleLen) && reachable s c (x.scaleBase + 2176 * i) 2176 write)

/-- Whether the pass is a member of a column group (R294). -/
def groupMember (b f : List Byte) : Bool := inColGroup f && hasOutRows b && !(pKtEn b && !pKtLast b)

/-- It delivers output rows: the last member of its K-tiling group and of its column group, and not an OUTER pass. -/
def deliversRows (b f : List Byte) : Bool :=
  hasOutRows b && !(pKtEn b && !pKtLast b) && !(groupMember b f && fColseg f + 1 < fColCount f)

/-- Elements of a full output row: of all segments in a column group. -/
def fullElems (b f : List Byte) (n : Nat) : Nat := if groupMember b f then n * fColCount f else funcElems (fFunc f) n

/-- Every address that a pass and its profile can touch (R342); `n` elements leave the array per row. -/
def passReach (s : State) (c : Nat) (b f rt : List Byte) (n : Nat) : Bool :=
  let rows := pRows b
  let kern := isKernel (fFunc f)
  let full := fullElems b f n
  let out := if deliversRows b f then rows else 0
  let drains := if pDrain b then 512 else 0
  let all := Nat.max out drains
  let ktDst (r : Nat) : Nat := r * ktSlots (fLevels f) * 5 * n
  destOk s c f rt (if out = 0 then 3 else pDestKind b) (pDestAddr b) (pDestStride b) out full
  && destOk s c f rt (if drains = 0 then 3 else pDrainKind b) (pPartial b) (pDrainStride b) drains (funcElems (fFunc f) 512)
  && (!pKtEn b || ((partsOf 0x80000 (pPartial b) (ktDst rows)).all fun p =>
        match locate s c p.1 true with
        | some (.jlm _) => false
        | some _ => true
        | none => false))
  && (!isMx (fOutFmt f) || fTopkOnly f ||
      rowsReach s c (fScaleOut f) (fScaleOutStride f) all (ceilDiv full 32) true)
  && (!readsSide (fFunc f) || rowsReach s c (fSide f) (fSideStride f) (if kern then rows else Nat.max rows drains)
        (sideBytes (fSideFmt f) (if isGatedBwd (fFunc f) then 2 * n else n)) false)
  && (!fSideOut f || !(isElementwise (fFunc f) && fFunc f < 0x10 || isGatedFwd (fFunc f)) ||
      rowsReach s c (fSideOutAddr f) (fSideOutStride f) (Nat.max rows drains) (sideBytes (fSideFmt f) n) true)
  && (!fSideOut f || !(fFunc f == 0x28 || fFunc f == 0x29) || out == 0 ||
      rowsReach s c (fSideOutAddr f) (fSideOutStride f) rows (8 * full) true)
  && (!kern || out == 0 || !(fFunc f ≤ 0x21 || fFunc f == 0x28 || fFunc f == 0x29) ||
      (reachable s c (fParam f) (if fFunc f == 0x20 then 8 * full else 4 * full) false
        && reachable s c (fRowstat f) (8 * rows) (fFunc f ≤ 0x21)))
  && (!fTopkEn f || fTopkOnly f ||
      rowsReach s c (fTopkAddr f) (fTopkStride f) all (recordBytes f rt) true)
  && (!rtEnable rt ||
      (reachable s c (rtStats rt) (64 + 2 * rtExperts rt) true
        && (rtPolicy rt != 2 || reachable s c (rtDefer rt) (8 * rtDeferMax rt) true)))
  && (!isMx (pFmtRow b) ||
      reachable s c (pAux b) ((if pMode b == 1 then 16 else 16 * epw (pFmtRow b)) * (if pSparse b == 0 then rows else rows + 1)) false)
  && (!pMask b || reachable s c (pAux b) (4 * ceilDiv rows 32) false)
  && recordOk s c (fScaleRec f) true && recordOk s c (fInA f) false && recordOk s c (fInB f) false

/-! Groups (R197, R294, R325). -/

/-- The fields that every member of a K-tiling group shares. -/
def sameGroup (a b : List Byte) : Bool :=
  pMode a == pMode b && pFmtRow a == pFmtRow b && pFmtBank a == pFmtBank b && pFmtAux a == pFmtAux b
  && pSparse a == pSparse b && pRows a == pRows b && pTensor a == pTensor b && pProfile a == pProfile b
  && pPartial a == pPartial b && pMask a == pMask b && pAux a == pAux b

def groupOk (x : Basin) (b f : List Byte) : Bool :=
  let g := SMap.get {} x.groups (pKtGroup b)
  !pKtEn b || (if pKtIndex b = 0 then !g.opened
               else g.opened && g.next == pKtIndex b && sameGroup g.raw b && g.conform == fConform f)

/-- The column group goes on with this member: 0 opens it when none is open (R294). -/
def colOk (x : Basin) (b f : List Byte) : Bool :=
  !groupMember b f ||
    (!isOuter (pMode b) &&
      match x.colOpen with
      | none => fColseg f == 0
      | some (fn, n, rows, next) => fColseg f == next && fn == fFunc f && n == fColCount f && rows == pRows b)

/-- The groups after a checked pass. -/
def groupsAfter (x : Basin) (b f : List Byte) : Basin :=
  let old := SMap.get {} x.groups (pKtGroup b)
  let new : KGroup :=
    if pKtLast b then {}
    else { opened := true, next := pKtIndex b + 1, raw := if pKtIndex b = 0 then b else old.raw, conform := fConform f }
  let x := if pKtEn b then { x with groups := SMap.put {} x.groups (pKtGroup b) new } else x
  if groupMember b f then
    { x with colOpen := if fColseg f + 1 = fColCount f then none
                        else some (fFunc f, fColCount f, pRows b, fColseg f + 1) }
  else x

/-! The checks. -/

/-- A profile or route entry of a spout; an entry not written is all zero (R262, R326). -/
def profileOf (s : State) (b p : Nat) : List Byte := slice (SMap.get [] (getSpout s b).profiles p) 0 128
def routeOf (s : State) (b p : Nat) : List Byte := slice (SMap.get [] (getSpout s b).routes p) 0 64

/-- The bank's record suits the pass (R122, R135, R176, R202, R320). -/
def bankOk (b : List Byte) (f : FutureBanks) : Bool :=
  let sel := if pSwap b then 1 - f.sel else f.sel
  let alongJ := pMode b == 1 || isFused (pMode b)
  let fits (r : BankRec) : Bool :=
    r.fmt == pFmtBank b && r.sparse == pSparse b && (!isMx r.fmt || r.mxAxis == b2n alongJ)
    && (!isFused (pMode b) || r.unpacked || epw r.fmt == 1)
    && (!(pMask b && pMode b == 1) || r.unpacked || epw r.fmt == 1)
  let ok (k : Nat) : Bool := match f.get k with
    | none => true
    | some r => fits r
  isOuter (pMode b) || (ok sel && (pSparse b == 0 || ok (1 - sel)))

/-- UNPACKED, of the bank that the pass will use. -/
def bankUnpacked (b : List Byte) (f : FutureBanks) : Bool :=
  match f.get (if pSwap b then 1 - f.sel else f.sel) with
  | none => false
  | some r => r.unpacked

/-- A PASS item at the head of basin `n`'s queue. -/
def passOk (s : State) (n : Nat) (i : Item) : Bool :=
  let x := getBasin s n
  let c := basinCtx s n
  let b := i.raw
  let f := profileOf s n (pProfile b)
  let rt := routeOf s n (pProfile b)
  let fb := futureBanks x i.seq
  let elems := outElems b (bankUnpacked b fb)
  passWordsOk b && bankOk b fb && passProfileOk b f s.boot.conform elems && routeOk f rt
  && groupOk x b f && colOk x b f && passReach s c b f rt elems

/-- A LOAD item: its words and every address of its tile (R177, R181 to R184). -/
def loadOk (s : State) (n : Nat) (b : List Byte) : Bool :=
  let c := basinCtx s n
  loadWordsOk b && rowsReach s c (lSrc b) (lStride b) 512 1024 false
  && (lSparse b == 0 || reachable s c (lMeta b) 262144 false)
  && (!isMx (lFmt b) || reachable s c (lScale b) (scaleBytes (lFmt b)) false)

/-- A MARK item (R180, R307, R391). -/
def markOk (s : State) (n : Nat) (b : List Byte) : Bool :=
  let rest (from' : Nat) : Bool := leAt b (8 * from') (128 - 8 * from') == 0
  if kOp b = 0 then
    onlyBits (leAt b 0 8) 0x1E0FF && leAt b 8 16 == 0 && onlyBits (leAt b 24 8) 0xFFFFF0000000 && rest 4
  else if kOp b = 1 then
    onlyBits (leAt b 0 8) 0xFF && onlyBits (leAt b 8 8) 0xFFFFFFFF0000001F && rest 2
    && decide (kBasin b < 6) && (getBasin s (kBasin b)).lease == (getBasin s n).lease
  else if kOp b = 2 then onlyBits (leAt b 0 8) 0xFF && rest 1
  else if kOp b = 3 then
    onlyBits (leAt b 0 8) 0xFF && onlyBits (leAt b 8 8) 0x7FFF && onlyBits (leAt b 16 8) 0xFFFFFFFFFF
    && leAt b 16 8 != 0 && rest 3
  else false

def itemOk (s : State) (n : Nat) (i : Item) : Bool :=
  let k := kindOf i.raw
  if k = 1 then passOk s n i else if k = 2 then loadOk s n i.raw else if k = 3 then markOk s n i.raw else false

/-- BASIN_ITEM_CHECK (R171): the oldest item not yet checked; nothing while an earlier one has failed (R205), or is a
ROOT_WINDOW, which changes the banks that a later item is checked against (R391). -/
def execBasinItemCheck (b : Nat) (s : State) : Res :=
  .next <|
    let x := getBasin s b
    if !basinRuns s b || x.queue.any (fun i => i.failed.isSome || (i.checked && isMark 3 i)) then s
    else match findItem x fun i => !i.checked with
      | none => s
      | some i =>
        if itemOk s b i then
          let s := updItem s b i.seq fun i => { i with checked := true, since := s.ticks }
          if isPass i then updBasin s b fun x => groupsAfter x i.raw (profileOf s b (pProfile i.raw)) else s
        else itemFail (updItem s b i.seq fun i => { i with checked := true }) b i.seq .badDesc

end Sys2Proof.Machine
end

