-- ==== Sys2Proof/Machine/SpoutOps.lean ====
section
/-!
DEFINITION. The stages of the spout as operations on the state: K-tile combination, scaling, functions, conversion, top-k,
routing and the units that wait for delivery (R254, R255, R258 to R274, R289 to R304, R329 to R333).
-/

namespace Sys2Proof.Machine

def findDrain (s : State) (b : Nat) (seq : BitVec 32) : Option PassDrain :=
  (getSpout s b).passes.find? fun d => d.seq == seq

def updDrain (s : State) (b : Nat) (seq : BitVec 32) (f : PassDrain → PassDrain) : State :=
  updSpout s b fun x => { x with passes := x.passes.map fun d => if d.seq = seq then f d else d }

/-! Classes and poison (R245, R246, R272). -/

/-- A spout poisons its context's step; it counts a step once. -/
def spoutPoison (s : State) (b c : Nat) : State :=
  let s := setBit s (oSpt b + 4) 2
  let s := if (getSpout s b).poisoned then s else bump s (oSpt b + 0x30) 1
  poisonCtx (updSpout s b fun x => { x with poisoned := true }) c

def countOf (c : Cls) (cs : List (Option Cls)) : Nat := (cs.filter (· == some c)).length

/-- Counts converted elements in the spout's counters and flags; a NONFINITE one poisons the step unless exempted. -/
def countClasses (s : State) (b c : Nat) (exempt : Bool) (cs : List (Option Cls)) : State :=
  let add (s : State) (off : Nat) (k : Cls) : State :=
    let n := countOf k cs
    if n = 0 then s else bump s (oSpt b + off) n
  let s := add (add (add (add s 0x10 .ovf) 0x18 .unf) 0x20 .sub) 0x28 .nonfinite
  let s := if countOf .ovf cs = 0 then s else setBit s (oSpt b + 4) 0
  if countOf .nonfinite cs = 0 then s
  else
    let s := setBit s (oSpt b + 4) 1
    if exempt then s else spoutPoison s b c

/-! Rounding (R247, R248, R261). -/

/-- The rounding of element `j` of output row `r` at the spout. -/
def spoutRnd (s : State) (d : PassDrain) (r j : Nat) : Rnd :=
  let k : SrKey := { seed := (getCtx s d.ctx).seed, tensor := pTensor d.raw, point := 1, sub := 0, step := stepOf s d.ctx }
  k.rnd (fSr d.prof) (elemIndex d.prof r j)

/-- Drained values: INT40 in an integer pass, W40 otherwise. -/
def svals (d : PassDrain) (out : List W40) : List SVal := if pIsInt d.raw then out.map .i else out.map .w

def scaleRow (s : State) (d : PassDrain) (r : Nat) (k : Int) (row : List SVal) : List SVal :=
  row.mapIdx fun j v => v.scale k (spoutRnd s d r j)

/-! Stage 1: K-tile partials (R198, R266 to R268, R325). -/

/-- Address of slot `l` of row `r` for rows of `w` elements (R266). -/
def partialAddr (d : PassDrain) (r l w : Nat) : Nat :=
  pPartial d.raw + (r * ktSlots (fLevels d.prof) + l) * (5 * w)

/-- Reads the bytes of a row at an address, of enabled elements only: 32 elements of 5 B for each mask bit (R325). -/
def readMasked (s : State) (c a maskE w : Nat) : List Byte × State :=
  if maskE % 65536 = 0xFFFF then rdCtx s c a (5 * w)
  else (List.range (ceilDiv w 32)).foldl (fun r m =>
    if maskE.testBit m then let (bs, s) := rdCtx r.2 c (a + 160 * m) 160; (r.1 ++ bs, s)
    else (r.1 ++ List.replicate 160 0, r.2)) ([], s)

/-- The values of a slot; a non-canonical W40 reads as zero or as the canonical NaN (R257). -/
def readSlot (s : State) (d : PassDrain) (r l w maskE : Nat) : List W40 × State :=
  let (bs, s) := readMasked s d.ctx (partialAddr d r l w) maskE w
  ((List.range w).map fun j =>
    let v := BitVec.ofNat 40 (leAt bs (5 * j) 5)
    if pIsInt d.raw then v else w40Canon v, s)

/-- Writes a slot, enabled elements only (R325). -/
def writeSlot (s : State) (d : PassDrain) (r l maskE : Nat) (vs : List W40) : State :=
  let a := partialAddr d r l vs.length
  if maskE % 65536 = 0xFFFF then wrCtx s d.ctx a (valBytes vs)
  else vs.zipIdx.foldl (fun s v =>
    if maskOn maskE v.2 then wrCtx s d.ctx (a + 5 * v.2) (toLe 5 v.1.toNat) else s) s

/-- The slots that hold something before member `t`. -/
def slotsHeld (t : Nat) : List Nat :=
  ((List.range 16).filter fun l => (t % 65536).testBit l) ++ (if 65536 ≤ t then [16] else [])

/-- The slot that member `t` writes: the level at which its carry stops (R267, R268). -/
def slotWritten (t : Nat) : Nat := (leastBelow 16 fun l => !(t % 65536).testBit l).getD 16

/-- Reads the held slots of a row, by slot. -/
def readSlots (s : State) (d : PassDrain) (r w maskE : Nat) : List (Nat × List W40) × State :=
  (slotsHeld (pKtIndex d.raw)).foldl (fun a l =>
    let (vs, s) := readSlot a.2 d r l w maskE
    (a.1 ++ [(l, vs)], s)) ([], s)

/-- The stack of element `j`. -/
def stackOf (held : List (Nat × List W40)) (j : Nat) : List W40 :=
  (List.range 17).map fun l =>
    match held.find? fun e => e.1 == l with
    | some e => e.2.getD j 0
    | none => 0

/-- A member's row enters the stack; the last member's combined row (R198, R268). -/
def ktRow (s : State) (d : PassDrain) (r maskE : Nat) (out : List W40) : State × Option (List W40) :=
  let t := pKtIndex d.raw
  let m := pMode d.raw
  let int := pIsInt d.raw
  let (held, s) := readSlots s d r out.length maskE
  if pKtLast d.raw then (s, some (out.mapIdx fun j v => ktFinish m int t v (stackOf held j)))
  else
    let l := slotWritten t
    let vs := out.mapIdx fun j v => (ktPush m int 16 0 t v (stackOf held j)).getD l 0
    (writeSlot s d r l maskE vs, none)

/-! Delivery units (R193, R195, R269, R271, R300, R303, R360). -/

/-- Bytes of a row for its destination: whole lines for memory and weirs, exact-partial lines in that mode. -/
def rowData (d : PassDrain) (kind : Nat) (es : List Nat) : List Byte :=
  let f := d.prof
  if kind = 2 && fWeirMode f == 2 then
    (List.range (ceilDiv es.length 12)).flatMap fun q =>
      slice (packRow 0x1B ((es.drop (12 * q)).take 12)) 0 60 ++ toLe 4 (fPart f)
  else if kind = 0 then packRow (fOutFmt f) es
  else padTo 64 (packRow (fOutFmt f) es)

/-- Destination of unit `u` (row `r`, byte offset `off` within it) of an output row or a drain row. -/
def destOf (d : PassDrain) (drain : Bool) (r u off : Nat) : Dest :=
  let b := d.raw
  let kind := if drain then pDrainKind b else pDestKind b
  let a := if drain then pPartial b + r * pDrainStride b else pDestAddr b + r * pDestStride b
  if kind = 0 then .jet (pDestJet b + u % pDestN b) u
  else if kind = 2 then .weir (a + off) (fOutFmt d.prof)
  else .mem (a + off)

/-- The units of a row: one, or a segment for each member of a column group (R300); exact-partial lines are packed over the whole row
(R360). -/
def rowUnits (d : PassDrain) (drain : Bool) (r segs : Nat) (es : List Nat) : List DUnit :=
  let kind := if drain then pDrainKind d.raw else pDestKind d.raw
  if segs ≤ 1 || (kind = 2 && fWeirMode d.prof == 2) then
    [{ seq := d.seq, dest := destOf d drain r r 0, data := rowData d kind es, drain }]
  else (List.range segs).map fun c =>
    { seq := d.seq, drain, dest := destOf d drain r (r * segs + c) (c * (512 * outBits (fOutFmt d.prof) / 8))
      data := rowData d kind ((es.drop (512 * c)).take 512) }

/-- The unit of a top-k or dispatch record (R303, R331). -/
def recordUnit (d : PassDrain) (drain : Bool) (r : Nat) (data : List Byte) : DUnit :=
  { seq := d.seq, topk := true, drain, data
    dest := if fTopkOnly d.prof then destOf d drain r r 0 else .mem (fTopkAddr d.prof + r * fTopkStride d.prof) }

/-! Stages 4 to 8. -/

/-- What conversion gives: encodings with classes, MX scales, amax exponent. -/
structure Converted where
  es : List (Nat × Option Cls)
  scales : List Byte
  amax : Option Int
  deriving DecidableEq, Repr

/-- The exponent of the largest finite magnitude (R274). -/
def amaxOf (vs : List FVal) : Option Int := (vs.filterMap FVal.expo).max?

def maxOpt (a b : Option Int) : Option Int :=
  match a, b with
  | none, b => b
  | a, none => a
  | some x, some y => some (max x y)

/-- Stages 4 to 6 on stage-3 values. -/
def convertStage (s : State) (d : PassDrain) (r : Nat) (row : List SVal) : Converted :=
  let (es, scales) := convertRow (fOutFmt d.prof) (spoutRnd s d r) (scaleRow s d r d.sigma row)
  ⟨es, scales, amaxOf (row.map SVal.val)⟩

/-- Position of element 0 of a full row (R301). -/
def rowPos (d : PassDrain) : Nat :=
  if fNKey d.prof = 0 then Config.posModZero (fPosBase d.prof) else fPosBase d.prof % fNKey d.prof

/-- Top-k candidates of a row whose element 0 has the given position. -/
def ranked (pos : Nat) (row : List SVal) : List Ranked := row.mapIdx fun j v => ⟨pos + j, v⟩

/-- The best 64 of a row (R301, R329). -/
def topSet (d : PassDrain) (held cs : List Ranked) : List Ranked := rankMerge (fSmallest d.prof) 64 held cs

/-- Stages 7 and 8: record or dispatch record, row, MX scales, counts; the routing state after the row. -/
def deliverRow (s : State) (b : Nat) (d : PassDrain) (drain : Bool) (r segs : Nat) (cv : Converted) (set : List Ranked)
    (rt : Routing) : State × Routing :=
  let f := d.prof
  let (rt, rec', rcls, ds) :=
    if rtEnable d.route then
      let (g, cs, ds) := routeRow d.route f r (set.take (rtDepth d.route)) rt
      let (bytes, cls) := dispatchRecord f set cs
      (g, bytes, cls, ds)
    else if fTopkEn f then
      let (bytes, cls) := topkRecord f set
      (rt, bytes, cls, [])
    else (rt, [], [], [])
  let s := ds.foldl (fun s e => wrCtx s d.ctx (rtDefer d.route + 8 * e.1) (deferEntry e.2.1 e.2.2.1 e.2.2.2)) s
  let row := !fTopkOnly f
  let cs := (if row then cv.es.map (·.2) else []) ++ rcls
  let s := countClasses s b d.ctx (fNfExempt f) cs
  let s := if row && !cv.scales.isEmpty then
      wrCtx s d.ctx (fScaleOut f + r * fScaleOutStride f) cv.scales
    else s
  let us := (if row then rowUnits d drain r segs (cv.es.map (·.1)) else []) ++
    (if fTopkEn f then [recordUnit d drain r rec'] else [])
  let s := updSpout s b fun x => { x with units := x.units ++ us }
  (updDrain s b d.seq fun d => { d with
    counts := addClasses d.counts cs, amax := if row then maxOpt d.amax cv.amax else d.amax }, rt)

/-! Stage 3. -/

/-- The side output of a forward function (R292, R272): pre-activations in SIDE_FMT, or mask bits. -/
def sideOutput (s : State) (b : Nat) (d : PassDrain) (r : Nat) (row : List SVal) : State :=
  let f := d.prof
  if fSideOut f && ((isElementwise (fFunc f) && fFunc f < 0x10) || isGatedFwd (fFunc f)) then
    let a := row.map fun v => F32.ofVal v.val
    let addr := fSideOutAddr f + r * fSideOutStride f
    if fSideFmt f = 0x1F then
      wrCtx s d.ctx addr (packRow 0x1F (a.map fun x => b2n ((FVal.fin false 0 0).lt (F32.val x))))
    else
      let cv := a.map fun x => narrowTo (fSideFmt f) .rne (.f x)
      let s := countClasses s b d.ctx (fNfExempt f) (cv.map (·.2))
      wrCtx s d.ctx addr (packRow (fSideFmt f) (cv.map (·.1)))
  else s

/-- The rows of a drained accumulation pass a row kernel unchanged: the kernel is over output rows (log entry 21). -/
def stage3 (d : PassDrain) (drain : Bool) (r : Nat) (row : List SVal) : List SVal :=
  let f := d.prof
  if drain && isKernel (fFunc f) then row
  else applyFunc (fFunc f) (fSideFmt f) (SMap.get [] d.side r) row

/-! Column groups (R294 to R302). -/

def groupIdx (s : State) (b : Nat) (seq : BitVec 32) : Option Nat :=
  (List.range (getSpout s b).groups.length).find? fun i =>
    ((getSpout s b).groups[i]?).any fun g => g.members.contains seq

def updGroup (s : State) (b i : Nat) (f : ColGroup → ColGroup) : State :=
  updSpout s b fun x => { x with groups := x.groups.modify i f }

/-- Phase 1 of a segment (R296, R302): `row` is its row after stage 2, or before it in an integer pass, where the last member's
position decides the rounding of stage 2 (R300). A row kernel holds binary32 (R295), a selection the stage-3 values (R258; log entry
129). -/
def phase1 (s : State) (b i : Nat) (d : PassDrain) (r : Nat) (row : List SVal) : State :=
  let f := d.prof
  let c := fColseg f
  let kern := isKernel (fFunc f)
  let side := SMap.get [] d.side r
  let vals := if kern then row.map fun v => .f (F32.ofVal v.val) else applyFunc (fFunc f) (fSideFmt f) side row
  updGroup s b i fun g =>
    let base := r * (512 * g.count) + 512 * c
    { g with
      vals := vals.zipIdx.foldl (fun m v => SMap.put (.f 0) m (base + v.2) v.1) g.vals
      sides := if readsSide (fFunc f) then
          (List.range 512).foldl (fun m j => SMap.put 0 m (base + j) (sideVal (fSideFmt f) side j)) g.sides
        else g.sides
      shifts := SMap.put 0 g.shifts c d.shift
      segsIn := SMap.upd 0 g.segsIn r (· + 1)
      topk := if fTopkEn f && !kern && !pIsInt d.raw then
          SMap.upd [] g.topk r fun held => topSet d held (ranked (512 * c) vals)
        else g.topk }

/-- The values of row `r` of a group: stage 2 of an integer row comes now, by the last member's positions (R300). -/
def groupRow (s : State) (g : ColGroup) (d : PassDrain) (r : Nat) : List SVal :=
  let n := 512 * g.count
  let row := (List.range n).map fun j => SMap.get (.f 0) g.vals (r * n + j)
  if pIsInt d.raw then row.mapIdx fun j v => v.scale (SMap.get 0 g.shifts (j / 512)) (spoutRnd s d r j) else row

/-- The pairs of R299 are side outputs: classed, counted and written (R272). -/
def writePairs (s : State) (b : Nat) (d : PassDrain) (r : Nat) (ps : List (F32 × F32)) : State :=
  let f := d.prof
  if fSideOut f && !ps.isEmpty then
    let cv := (ps.flatMap fun p => [p.1, p.2]).map fun x => narrowTo 0x18 .rne (.f x)
    let s := countClasses s b d.ctx (fNfExempt f) (cv.map (·.2))
    wrCtx s d.ctx (fSideOutAddr f + r * fSideOutStride f) (packRow 0x18 (cv.map (·.1)))
  else s

/-- Phase 2 of row `r` of a group, by its last member (R296 to R300). -/
def phase2 (s : State) (b i : Nat) (g : ColGroup) (d : PassDrain) (r : Nat) : State :=
  let f := d.prof
  let fn := fFunc f
  let n := 512 * g.count
  let held := groupRow s g d r
  let floats (bs : List Byte) (o k : Nat) : List F32 := (List.range k).map fun j => BitVec.ofNat 32 (leAt bs (o + 4 * j) 4)
  let usesParam := fn == 0x20 || fn == 0x21 || fn == 0x28 || fn == 0x29
  let (ps, s) := if usesParam then rdCtx s d.ctx (fParam f) (if fn = 0x20 then 8 * n else 4 * n) else ([], s)
  let (st, s) := if fn == 0x28 || fn == 0x29 then rdCtx s d.ctx (fRowstat f + 8 * r) 8 else ([], s)
  let k : KIn :=
    { side := (List.range n).map fun j => SMap.get 0 g.sides (r * n + j)
      gamma := floats ps 0 n, beta := if fn = 0x20 then floats ps (4 * n) n else []
      tau := BitVec.ofNat 32 (fScalar f), eps := BitVec.ofNat 32 (fEpsilon f)
      mu := BitVec.ofNat 32 (leAt st 0 4), rho := BitVec.ofNat 32 (leAt st 4 4) }
  let o : KOut := if isKernel fn then rowKernel fn (held.map fun v => F32.ofVal v.val) k else ⟨[], none, []⟩
  let s := match o.stat with
    | none => s
    | some (mu, rho) => wrCtx s d.ctx (fRowstat f + 8 * r) (toLe 4 mu.toNat ++ toLe 4 rho.toNat)
  let s := writePairs s b d r o.pairs
  let row := if isKernel fn then o.row.map SVal.f else held
  let set := if !fTopkEn f then []
    else if isKernel fn || pIsInt d.raw then topSet d [] (ranked (rowPos d) row)
    else (SMap.get [] g.topk r).map fun c => { c with pos := rowPos d + c.pos }
  let (s, rt) := deliverRow s b d false r g.count (convertStage s d r row) set g.routing
  updGroup s b i fun g => { g with phase2 := r + 1, routing := rt }

/-! A row at the spout. -/

/-- Stages 2 to 8 of a row after stage 1; `maskE` is its mask entry (R322). -/
def finishRow (s : State) (b : Nat) (d : PassDrain) (drain : Bool) (r maskE : Nat) (out : List W40) : State :=
  let raw := (svals d out).mapIdx fun j v => if maskOn maskE j then v else .w (maskFill maskE)
  let row := scaleRow s d r d.shift raw
  let s := sideOutput s b d r row
  match (if drain then none else groupIdx s b d.seq) with
  | some i => phase1 s b i d r (if pIsInt d.raw then raw else row)
  | none =>
    let v3 := stage3 d drain r row
    let set := if fTopkEn d.prof then topSet d [] (ranked (rowPos d) v3) else []
    let (s, rt) := deliverRow s b d drain r 1 (convertStage s d r v3) set d.routing
    updDrain s b d.seq fun d => { d with routing := rt }

/-- The side row that a row needs has been read (R292). -/
def sideReady (d : PassDrain) (drain : Bool) (r : Nat) : Bool :=
  !readsSide (fFunc d.prof) || (drain && isKernel (fFunc d.prof)) || SMap.get [] d.side r != []

/-- The mask entry of a pass row, read from AUX_ADDR (R321); wholly enabled without MASK. -/
def maskAt (s : State) (c : Nat) (raw : List Byte) (r : Nat) : Nat × State :=
  if pMask raw then
    let (bs, s) := rdCtx s c (pAux raw + 4 * (r / 32)) 4
    (leNat bs, s)
  else (0xFFFF, s)

/-- Processes the waiting rows of a pass in order, as far as their side rows have been read (R260). -/
def pumpRows (b : Nat) (seq : BitVec 32) : Nat → State → State
  | 0, s => s
  | n + 1, s =>
    match findDrain s b seq with
    | none => s
    | some d =>
      match d.waiting with
      | [] => s
      | (drain, r, out) :: rest =>
        if sideReady d drain r then
          let s := updDrain s b seq fun d => { d with waiting := rest }
          let (e, s) := if drain then (0xFFFF, s) else maskAt s d.ctx d.raw r
          pumpRows b seq n (finishRow s b { d with waiting := rest } drain r e out)
        else s

/-- A row that has passed its checks enters the stages (R259). -/
def spoutRow (s : State) (b : Nat) (seq : BitVec 32) (drain : Bool) (r : Nat) (out : List W40) : State :=
  match findDrain s b seq with
  | none => s
  | some d =>
    let (s, row) := if pKtEn d.raw && !drain then
        let (e, s) := maskAt s d.ctx d.raw r
        ktRow s d r e out
      else (s, some out)
    match row with
    | none => s
    | some v =>
      let s := updDrain s b seq fun d => { d with waiting := d.waiting ++ [(drain, r, v)] }
      pumpRows b seq (d.waiting.length + 1) s

/-! Conformance rows (R254, R255). -/

/-- The binary32 values s and t of every output element, continuing those that earlier K tiles left. -/
def confSums (raw : List Byte) (k : Bank) (data : List Byte) (ss ts : List Nat) (n : Nat) : List Conf :=
  (List.range (outElems raw k.rcd.unpacked)).map fun o =>
    (confTerms raw k data o).foldl (Conf.term (pIsInt raw)) ⟨ss.getD o 0, ts.getD o 0, n⟩

/-- Conversion of conformance sums (R255). -/
def convertConfRow (d : PassDrain) (sums : List Nat) : Converted :=
  let int := pIsInt d.raw
  ⟨sums.map (convertConf (fOutFmt d.prof) int d.sigma), [],
    amaxOf (sums.map fun x => if int then ofIntF (toSigned 32 x) else f32.decode (x % 2 ^ 32))⟩

/-- The low 32 bits of each value of a slot. -/
def slotWords (bs : List Byte) (w : Nat) : List Nat := (List.range w).map fun j => leAt bs (5 * j) 4

/-- Reads a running value of a row in conformance mode: s in slot 0, t in slot 1 where the partial area has one; without it t is 0, since a
chunk never crosses a tile (log entry 130). -/
def readConf (s : State) (d : PassDrain) (r w l : Nat) : List Nat × State :=
  if l < ktSlots (fLevels d.prof) then
    let (bs, s) := rdCtx s d.ctx (partialAddr d r l w) (5 * w)
    (slotWords bs w, s)
  else ([], s)

def writeConf (s : State) (d : PassDrain) (r w l : Nat) (vs : List Nat) : State :=
  if l < ktSlots (fLevels d.prof) then wrCtx s d.ctx (partialAddr d r l w) (vs.flatMap (toLe 5)) else s

/-- A checked conformance row: its running values go to the partial area, or the row is delivered. -/
def confRow (s : State) (b : Nat) (seq : BitVec 32) (k : Bank) (r : Nat) (data : List Byte) : State :=
  match findDrain s b seq with
  | none => s
  | some d =>
    let t := if pKtEn d.raw then pKtIndex d.raw else 0
    let w := outElems d.raw k.rcd.unpacked
    let (ss, s) := if t = 0 then ([], s) else readConf s d r w 0
    let (ts, s) := if t = 0 then ([], s) else readConf s d r w 1
    let sums := confSums d.raw k data ss ts (t * (confTerms d.raw k data 0).length)
    if pKtEn d.raw && !pKtLast d.raw then
      writeConf (writeConf s d r w 0 (sums.map (·.s))) d r w 1 (sums.map (·.t))
    else (deliverRow s b d false r 1 (convertConfRow d (sums.map (Conf.result (pIsInt d.raw)))) [] d.routing).1

/-- A drain row of a conformance accumulation. -/
def confDrainRow (s : State) (b : Nat) (seq : BitVec 32) (r : Nat) (out : List W40) : State :=
  match findDrain s b seq with
  | none => s
  | some d => (deliverRow s b d true r 1 (convertConfRow d (out.map fun x => x.toNat % 2 ^ 32)) [] d.routing).1

end Sys2Proof.Machine
end

