-- ==== Sys2Proof/Machine/BasinRun.lean ====
section
/-!
DEFINITION. Loads, pass starts, marks and the acceptance of rows (R141 to R149, R157, R158, R186 to R192, R194, R199 to R202,
R273, R277, R278, R281, R307, R308, R314 to R324).
-/

namespace Sys2Proof.Machine

/-! Loads (R141, R147, R179, R199, R308). -/

/-- Rows 0 to n − 1 at a stride, in order; none where a byte is not accessible. -/
def readRows (c a stride len : Nat) : Nat → State → Option (List Byte × State)
  | 0, s => some ([], s)
  | n + 1, s =>
    match readRows c a stride len n s with
    | none => none
    | some (l, s) =>
      match ctxRead s c (a + n * stride) len with
      | none => none
      | some (r, s) => some (l ++ r, s)

/-- The contents of a READY bank from its source: tile rows, metadata rows, scale array, and their CRC-32C (R179, R181 to R184). -/
def readTile (s : State) (c : Nat) (k : Bank) : Option (Bank × State) :=
  match readRows c k.src k.stride 1024 512 s with
  | none => none
  | some (ws, s) =>
    match readRows c k.metaSrc 512 512 (if k.rcd.sparse = 0 then 0 else 512) s with
    | none => none
    | some (ts, s) =>
      match readRows c k.scaleSrc 0 (scaleBytes k.rcd.fmt) (if isMx k.rcd.fmt then 1 else 0) s with
      | none => none
      | some (es, s) =>
        some ({ k with
          st := .ready
          words := tabulate 0 262144 fun x => BitVec.ofNat 16 (leAt ws (2 * x) 2)
          tags := tabulate 0 ts.length fun x => ts.getD x 0
          scales := tabulate 0 es.length fun x => es.getD x 0
          crc := crc32c (ws ++ ts ++ es) }, s)

/-- The bank that a LOAD describes, without contents. -/
def loadBank (raw : List Byte) : Bank :=
  { st := .loading, rcd := loadRec raw, src := lSrc raw, stride := lStride raw, metaSrc := lMeta raw, scaleSrc := lScale raw }

/-- Bank in the back role. -/
def backBank (x : Basin) : Nat := 1 - x.front

/-- LOAD (R199, R147, R308): the oldest LOAD not started starts into the back bank. -/
def execLoadItem (b : Nat) (s : State) : Res :=
  .next <|
    let x := getBasin s b
    match findItem x fun i => isLoad i && !i.started with
    | none => s
    | some i =>
      let ahead := itemsBefore x i.seq
      let sparseDone := x.passes.all fun p => pSparse p.raw == 0 || p.allChecked
      let usersDone := x.passes.all fun p => p.bank != backBank x || isOuter (pMode p.raw) || p.allChecked
      let started := ahead.all fun e => !isPass e || e.started || (!pSwap e.raw && pSparse e.raw == 0)
      if basinRuns s b && i.checked && pathClear x i.seq && x.loading.isNone && !x.token && x.retire.isNone
          && sparseDone && usersDone && started then
        let s := setBank s b (backBank x) fun _ => loadBank i.raw
        let s := updItem s b i.seq fun i => { i with started := true }
        updBasin s b fun x => { x with loading := some i.seq }
      else s

/-- The LOAD in progress fails: its bank returns to EMPTY (R126, R179, R183). -/
def loadFail (s : State) (b : Nat) (seq : BitVec 32) (st : ItemStatus) : State := itemFail s b seq st

/-- LOAD_COMPLETE (R141, R142, R168, R179, R181 to R184, R203, R316): `fs` is what the source's reads find wrong; with a byte parity
failure in the load engine (R156) the load starts again (log entry 147). -/
def execLoadComplete (b : Nat) (parity : Bool) (s : State) (fs : List MemFault := []) : Res :=
  .next <|
    let x := getBasin s b
    match findItem x fun i => some i.seq == x.loading with
    | none => s
    | some i =>
      let c := basinCtx s b
      if !basinRuns s b || parity then s
      else memFaults fs s fun s =>
        match readTile s c (loadBank i.raw) with
        | none => loadFail s b i.seq .badDesc
        | some (k, s) =>
          if lCrcCheck i.raw && k.crc.toNat != lExpCrc i.raw then loadFail s b i.seq .sourceChanged
          else if lSparse i.raw != 0 && !tagsOk k then loadFail s b i.seq .badMeta
          else if bankMalformed k then loadFail s b i.seq .badRow
          else
            let s := setBank s b (backBank x) fun _ => k
            let s := updBasin s b fun x => { x with loading := none }
            itemDone s b i.seq (lCompEn i.raw) (lCompCtr i.raw)

/-! Scale records at a pass start (R273, R277, R278, R281). -/

def recAddr (s : State) (c i : Nat) : Nat := (getCtx s c).scaleBase + recLen * i

/-- SIGMA of a record; 0 for NONE. -/
def readSigma (s : State) (c i : Nat) : Int × State :=
  if i = 0xFFFF then (0, s)
  else let (r, s) := rdCtx s c (recAddr s c i + 4) 1; (toSigned 8 (leNat r), s)

/-- A record with VALID 0 is initialized (R277), and WARM-IN begins for a RUNNING one (R283). -/
def initRecord (s : State) (b c i : Nat) (prof : List Byte) : State :=
  let s := wrCtx s c (recAddr s c i) (recInit prof (regOf s (oSpt 0 + 0x0C) % 2048))
  if fRecipe prof = 2 then ledgerRecord (setBit s (oSpt b + 4) 4) 0x014 0 (toLe 2 c ++ toLe 2 i) else s

/-- The SCALE_REC record as a pass finds it, initialized where it was not valid; the empty list for NONE. -/
def openRecord (s : State) (b c : Nat) (prof : List Byte) : List Byte × State :=
  let i := fScaleRec prof
  if i = 0xFFFF then ([], s)
  else
    let (r, s) := rdCtx s c (recAddr s c i) recLen
    if (recFlags r).testBit 0 then (r, s)
    else rdCtx (initRecord s b c i prof) c (recAddr s c i) recLen

/-- The record's scope in this step agrees with the profile's (R281). -/
def scopeOk (s : State) (c : Nat) (prof : List Byte) : Bool :=
  let k := SMap.get 0 (getCtx s c).scopes (fScaleRec prof)
  fScaleRec prof == 0xFFFF || k == 0 || k == 1 + b2n (fGroup prof)

def noteScope (s : State) (c : Nat) (prof : List Byte) : State :=
  if fScaleRec prof = 0xFFFF then s
  else updCtx s c fun x => { x with scopes := SMap.put 0 x.scopes (fScaleRec prof) (1 + b2n (fGroup prof)) }

/-- σ_out of R273. -/
def sigmaOut (prof fix r : List Byte) : Int :=
  if fRecipe prof = 1 then clampI (-126) 127 (toSigned 8 (leAt fix (fKind prof) 1) + fFixedOff prof)
  else if fRecipe prof = 2 && !r.isEmpty then toSigned 8 (leAt r 4 1)
  else 0

/-! Pass starts (R144 to R149, R194, R199 to R202). -/

/-- Jets and channels that a pass connects its spout to (R194). -/
def passConns (raw prof : List Byte) : List (Nat × Nat) :=
  let dest := if deliversRows raw prof && pDestKind raw == 0 then
      (List.range (pDestN raw)).map fun n => (pDestJet raw + n, pDestChan raw)
    else []
  let all := dest ++ (if pNotify raw then [(pNotifyJet raw, pNotifyChan raw)] else [])
  all.foldl (fun l x => if l.contains x then l else l ++ [x]) []

/-- Bank that a pass will use. -/
def bankOf (x : Basin) (raw : List Byte) : Nat := if pSwap raw then 1 - x.sel else x.sel

def Basin.stOf (x : Basin) (k : Nat) : BankState := (x.bank k).st

/-- The banks let the pass start: READY where the pass meets them (R145, R199, R202). -/
def banksReady (x : Basin) (raw : List Byte) (loadAhead : Bool) : Bool :=
  if isOuter (pMode raw) && !pSwap raw then true
  else if pSwap raw then !loadAhead && x.stOf (bankOf x raw) == .ready && !x.token
  else if pSparse raw ≠ 0 then !loadAhead && x.bank0.st == .ready && x.bank1.st == .ready && !x.token
  else x.stOf (bankOf x raw) == .ready

/-- The pass can get no tile (R200): nothing ahead fills the EMPTY bank. A LOAD fills the back bank only. -/
def noTile (x : Basin) (raw : List Byte) (loadAhead : Bool) : Bool :=
  if isOuter (pMode raw) && !pSwap raw then false
  else if pSwap raw then !loadAhead && x.stOf (bankOf x raw) == .empty
  else if pSparse raw ≠ 0 then
    x.stOf (bankOf x raw) == .empty || (!loadAhead && x.stOf (1 - bankOf x raw) == .empty)
  else x.stOf (bankOf x raw) == .empty

/-- R148 and R149. -/
def turnOk (x : Basin) (raw : List Byte) : Bool :=
  (x.entry == 3 || entryClass (pMode raw) == x.entry || (arrayIdle x && !x.token)) &&
  (!isAccum (pMode raw) || x.passes.all fun p =>
    !isAccum (pMode p.raw) || (p.allChecked && (!pDrain p.raw || p.drained)))

/-- The roles of the banks at the start of a SWAP pass (R144, R201). -/
def startSwap (x : Basin) : Basin :=
  if x.array.all (·.atSpout) then { x with front := 1 - x.sel, sel := 1 - x.sel }
  else { x with
    sel := 1 - x.sel, token := true
    array := x.array.modify (x.array.length - 1) fun r => { r with token := true } }

/-- CLEAR or CONTINUE, and the shadow of the first segment (R132, R158). -/
def startAccum (x : Basin) (raw : List Byte) : Basin :=
  if isAccum (pMode raw) then
    let x := if pCont raw then x else clearAccum x
    { x with shAcc := x.acc, shStack := x.stack, shTerms := x.terms, seg := [] }
  else x

/-- A later member of a column group joins it (R294). -/
def joinGroup (s : State) (b : Nat) (seq : BitVec 32) (raw prof : List Byte) : State :=
  if groupMember raw prof && fColseg prof != 0 then
    let join (g : ColGroup) : ColGroup :=
      if g.next = fColseg prof && g.next < g.count then
        { g with next := g.next + 1, prof, members := seq :: g.members }
      else g
    updSpout s b fun x => { x with groups := x.groups.map join }
  else s

/-- The pass starts, its record opened and its checks passed. -/
def startPass (s : State) (b c : Nat) (i : Item) (prof route r : List Byte) (sa sb : Int) : State :=
  let raw := i.raw
  let x := getBasin s b
  let bank := bankOf x raw
  let (cs, s) := openConns (noteScope s c prof) b (passConns raw prof)
  let s := updItem s b i.seq fun i => { i with started := true }
  let s := updBasin s b fun x =>
    let x := startAccum (if pSwap raw then startSwap x else x) raw
    { x with
      entry := entryClass (pMode raw), cursor := 0
      passes := x.passes ++ [{ seq := i.seq, raw, bank, since := s.ticks, conns := cs }] }
  let d : PassDrain :=
    { seq := i.seq, ctx := c, raw, prof, route, shift := fInAdj prof - sa - sb, sigma := sigmaOut prof i.fix r
      replayStep := fReplayStep prof || (!r.isEmpty && (recFlags r).testBit 1) }
  joinGroup (updSpout s b fun x => { x with passes := x.passes ++ [d] }) b i.seq raw prof

/-- PASS (R199): the oldest PASS not started starts, or it finds no tile (R200), an unsuitable record (R278, R281) or a destination
outside the context (R194, R196). -/
def execPassItem (b : Nat) (s : State) (fs : List MemFault := []) : Res :=
  .next <|
    let x := getBasin s b
    match findItem x fun i => isPass i && !i.started with
    | none => s
    | some i =>
      let raw := i.raw
      let c := basinCtx s b
      let loadAhead := (itemsBefore x i.seq).any isLoad
      if !basinRuns s b || !i.checked || !pathClear x i.seq || !x.passes.all (·.full) || !x.replay.isEmpty
          || !x.reloads.isEmpty || x.retire.isSome then s
      else if noTile x raw loadAhead then itemFail s b i.seq .noTile
      else if !banksReady x raw loadAhead || !turnOk x raw then s
      else memFaults fs s fun s =>
        let prof := profileOf s b (pProfile raw)
        let (r, s) := openRecord s b c prof
        let (sa, s) := readSigma s c (fInA prof)
        let (sb, s) := readSigma s c (fInB prof)
        if !r.isEmpty && !recMatches prof r then itemFail (setBit s (oSpt b + 4) 7) b i.seq .badDesc
        else if !scopeOk s c prof then itemFail s b i.seq .badDesc
        else if (passConns raw prof).any (fun jc => !holdsJet s c jc.1) then
          itemFail (setBit s (oSpt b + 4) 9) b i.seq .badDesc
        else startPass s b c i prof (routeOf s b (pProfile raw)) r sa sb

/-! Marks (R180, R307). -/

/-- A completion message waits for a credit on connection `i` (R206). -/
def sendNote (s : State) (b i : Nat) (flit : List Byte) : State :=
  updSpout s b fun x => { x with notes := x.notes ++ [(i, flit)] }

/-- The completion message of a SIGNAL: the spout connects to its channel (R194, R196). -/
def signalNote (s : State) (b jet ch : Nat) (flit : List Byte) : State :=
  if holdsJet s (basinCtx s b) jet then
    match unitConnect s (spoutEp b) jet ch with
    | (some i, s) => sendNote s b i flit
    | (none, s) => s
  else setBit s (oSpt b + 4) 9

/-- SIGNAL (R180, R203, R205): every earlier item has completed. -/
def execSignalMark (b : Nat) (s : State) : Res :=
  .next <|
    match (getBasin s b).queue.head? with
    | none => s
    | some i =>
      if basinRuns s b && i.checked && i.failed.isNone && isMark 0 i then
        let s := itemOut s b i.seq (kCompEn i.raw) (kCompCtr i.raw)
        haltQueue (if kNotify i.raw then
            signalNote s b (pNotifyJet i.raw) (pNotifyChan i.raw) (completionFlit i.seq 0 0 0)
          else s) b
      else s

/-- The condition of a WAIT (R180). -/
def waitHolds (s : State) (raw : List Byte) : Bool :=
  let c : Reg := SMap.get 0 (getBasin s (kBasin raw)).comp (kCounter raw)
  decide ((c - BitVec.ofNat 32 (kTarget raw)).toNat < 2 ^ 31)

/-- WAIT_MARK (R180, R199): the oldest WAIT completes when its condition holds. -/
def execWaitMark (b : Nat) (s : State) : Res :=
  .next <|
    let x := getBasin s b
    match findItem x (isMark 1) with
    | none => s
    | some i =>
      if basinRuns s b && i.checked && i.failed.isNone && pathClear x i.seq && waitHolds s i.raw then
        itemDone s b i.seq false 0
      else s

/-- EXCHANGE (R307). -/
def execExchange (b : Nat) (s : State) : Res :=
  .next <|
    let x := getBasin s b
    match findItem x (isMark 2) with
    | none => s
    | some i =>
      let ahead := itemsBefore x i.seq
      let loadAhead := ahead.any isLoad
      if !basinRuns s b || !i.checked || i.failed.isSome || !pathClear x i.seq || !ahead.all (fun e => !isPass e || e.started)
          || !x.passes.all (·.full) || !arrayIdle x || x.token || loadAhead then s
      else if x.stOf (backBank x) == .empty then itemFail s b i.seq .noTile
      else
        itemDone (updBasin s b fun x => { x with front := 1 - x.front, sel := 1 - x.sel }) b i.seq false 0

/-! Rows (R157, R158, R186 to R192, R314 to R324). -/

/-- ROW_SEGMENT_ARRIVAL (R59, R187, R188, R208): message `k` in flight reaches its row port; one whose connection a halt has freed is
discarded there. -/
def execRowSegmentArrival (k : Nat) (s : State) : Res :=
  .next <|
    match s.jets.msgs[k]? with
    | none => s
    | some m =>
      if m.dst / 4096 = 1 && inTurn s k m then
        if m.srcIdx = goneIdx then dropMsg s k
        else
          let s := updRowPort (dropMsg s k) (m.dst % 4096) fun q =>
            { q with held := q.held ++ [{ jet := m.src, idx := m.srcIdx, data := m.data }] }
          finishDisc (acked s) m.src m.srcIdx
      else s

/-- The oldest segment of a jet at port `k`. -/
def segmentOf (s : State) (k j : Nat) : Option Segment := (getRowPort s k).held.find? fun h => h.jet == j

/-- Removes the first segment of a jet. -/
def dropSegment (j : Nat) : List Segment → List Segment
  | [] => []
  | h :: l => if h.jet = j then l else h :: dropSegment j l

/-- Takes a jet's oldest segment from a port; its credit returns to the connection that sent it (R188, R189). -/
def takeSegment (s : State) (k j : Nat) : State :=
  match segmentOf s k j with
  | none => s
  | some h =>
    let s := updRowPort s k fun q => { q with held := dropSegment j q.held }
    if h.idx = goneIdx then s
    else countP1 { s with jets := { s.jets with credits := s.jets.credits ++ [(h.jet, h.idx)] } } 1

/-- Writes one journal slot (R157). -/
def journalWrite (s : State) (b : Nat) (data : List Byte) : State :=
  let n := (getBasin s b).journal % 32768
  let s := writePhys s (sliceBase (58 + b) + 1024 * n) data
  updBasin s b fun x => { x with journal := n + 1 }

/-- The journal segment has room for a unit's slots, or the next one begins: in an accumulating pass once every earlier term has
passed its checks (R158). -/
def segmentFor (s : State) (b : Nat) (p : PassRun) (slots : Nat) : Option State :=
  if p.segSlots + slots ≤ 32768 then some s
  else if isAccum (pMode p.raw) && p.checked < p.cursor then none
  else
    let s := updRun s b p.seq fun p => { p with segNo := p.segNo + 1, segSlots := 0, segRow := p.cursor }
    some (if isAccum (pMode p.raw) then
        updBasin s b fun x => { x with shAcc := x.acc, shStack := x.stack, shTerms := x.terms, seg := [] }
      else s)

/-- Rows enter the array for the current pass. -/
def enterRows (s : State) (b : Nat) (p : PassRun) (units rows : Nat) (rs : List ArrRow) : State :=
  let s := updRun s b p.seq fun p => { p with
    units := p.units + units, cursor := p.cursor + rows, parts := [], partCount := 0, since := s.ticks, stalled := false }
  updBasin s b fun x => { x with rowAt := s.ticks, array := x.array ++ rs, cursor := BitVec.ofNat 40 (p.cursor + rows) }

/-- The connections of a pass have been granted (R194, R196). -/
def connsUp (s : State) (b : Nat) (p : PassRun) : Bool :=
  p.conns.all fun e => let x := getConn s (spoutEp b) e.2.2; x.used && !x.pending

/-- Index of the connection that a unit leaves by; none for a unit to memory or to a weir. -/
def unitConn (s : State) (b : Nat) (u : DUnit) : Option Nat :=
  match u.dest with
  | .jet j _ => (findRun (getBasin s b) u.seq).bind fun p => passConn p.conns j (pDestChan p.raw)
  | _ => none

/-- The spout holds the array: a unit waits for a credit, or a row for its side row (R196, R260, R305). A basin that stops lets its rows
finish (R152; log entry 47). -/
def spoutHeld (s : State) (b : Nat) : Bool :=
  let y := getSpout s b
  !(getBasin s b).stopped &&
    (y.passes.any (fun d => !d.waiting.isEmpty) || y.units.any fun u => (unitConn s b u).any fun i => !connReady s (spoutEp b) i)

/-- The pass that may accept rows now, with its spout's side of it. -/
def acceptingRun (s : State) (b : Nat) : Option (PassRun × PassDrain) :=
  let x := getBasin s b
  if !basinRuns s b || !x.replay.isEmpty || !x.reloads.isEmpty || x.retire.isSome || x.subst || spoutHeld s b then none
  else match currentRun x with
    | none => none
    | some p =>
      match findDrain s b p.seq with
      | none => none
      | some d =>
        if p.win then none
        else if connsUp s b p && (!groupMember p.raw d.prof || (groupIdx s b p.seq).isSome) then some (p, d) else none

/-- An entry that ends the pass (R321, R324). -/
def entryBad (prof : List Byte) (e : Nat) : Bool :=
  maskBad e || (e.testBit 16 &&
    !(fFunc prof == 0x22 || (fFunc prof == 0 && fTopkEn prof && fTopkOnly prof && !fSmallest prof)))

/-- Rows of the block of row `r` from `r` on. -/
def blockLeft (raw : List Byte) (r : Nat) : Nat := Nat.min (32 - r % 32) (pRows raw - r)

/-- A segment that begins with the signature of a marker (R314). -/
def isMarker (d : List Byte) : Bool := (slice d 0 16).all (· == 0xFF)

/-- The jet that the current unit is scheduled from (R187). -/
def scheduledJet (p : PassRun) : Nat := pSched p.raw (p.units % pSchedLen p.raw)

/-- The array rows of a completed unit (R186), in replay segment `segNo`. -/
def unitRows (p : PassRun) (segNo : Nat) (data : List Byte) : List ArrRow :=
  if termsPerUnit p.raw = 2 then
    [{ seq := p.seq, row := p.cursor, data := slice data 0 512, segNo, bank := p.bank },
     { seq := p.seq, row := p.cursor + 1, data := slice data 512 512, segNo, bank := p.bank }]
  else [{ seq := p.seq, row := p.cursor, data, segNo, bank := p.bank }]

/-- Number of the segment that a pass is in. -/
def segOf (s : State) (b : Nat) (seq : BitVec 32) : Nat := ((findRun (getBasin s b) seq).map (·.segNo)).getD 0

/-- Wavefront slots at ratio `k`/64 up to the next one that is no bubble: how many bubbles come first, and where the even spread
then stands (R477). With k at most 56, at most seven come between two others. -/
def bubbleRun (k : Nat) : Nat → Nat → Nat × Nat
  | 0, a => (0, a)
  | f + 1, a =>
    if a + k < 64 then (0, a + k)
    else let r := bubbleRun k f (a + k - 64); (r.1 + 1, r.2)

/-- The bubbles that delay the part now accepted are counted (R151, R477; log entry 123). -/
def passBubbles (s : State) (b : Nat) : State :=
  let r := bubbleRun (ratioOf s (8 + b)) 8 (getBasin s b).slotPhase
  updBasin (bump s (oBsn b + 0x50) r.1) b fun x => { x with slotPhase := r.2, rowAt := s.ticks }

/-- A part is accepted when every port that it uses holds its segment (R187); none otherwise. -/
def acceptPart (s : State) (b : Nat) (p : PassRun) : Option State :=
  let j := scheduledJet p
  let segs := (List.range (portsPerPart p.raw)).map fun n => segmentOf s (16 * b + n) j
  let marker := pZskip p.raw && p.partCount == 0 &&
    match segs.head? with
    | some (some h) => isMarker h.data
    | _ => false
  if marker || segs.any (·.isNone) then none
  else match segmentFor s b p (if p.partCount = 0 then partsPerUnit p.raw else 0) with
    | none => none
    | some s =>
      let data := segs.flatMap fun h => (h.map (·.data)).getD []
      let s := (List.range (portsPerPart p.raw)).foldl (fun s n => takeSegment s (16 * b + n) j) s
      let s := passBubbles (bump (journalWrite s b data) (oBsn b + 0x48) 1) b
      let s := updRun s b p.seq fun p => { p with
        parts := p.parts ++ data, partCount := p.partCount + 1, segSlots := p.segSlots + 1, since := s.ticks, stalled := false }
      if p.partCount + 1 = partsPerUnit p.raw then
        some (enterRows s b p 1 (termsPerUnit p.raw) (unitRows p (segOf s b p.seq) (p.parts ++ data)))
      else some s

/-- ROW_ACCEPT (R187, R157, R323): the next part of the current pass, or a row block that its mask leaves out. -/
def execRowAccept (b : Nat) (s : State) (fs : List MemFault := []) : Res :=
  .next <|
    match acceptingRun s b with
    | none => s
    | some (p, d) =>
      memFaults fs s fun s =>
        let (e, s') := if p.partCount = 0 then maskAt s d.ctx p.raw p.cursor else (0xFFFF, s)
        if entryBad d.prof e then itemFail s' b p.seq .badRow
        else if e % 65536 = 0 then
          let n := blockLeft p.raw p.cursor
          enterRows s' b p n n
            [{ seq := p.seq, row := p.cursor, data := [], zeros := n, masked := true, segNo := p.segNo, bank := p.bank }]
        else (acceptPart s' b p).getD s

/-- The rows that a marker of `left` units from row `r` on covers, with the masked blocks between them: row, rows, masked. None
where the pass has too few units, or an entry ends the pass (R314, R323). -/
def markerSpans (s : State) (c : Nat) (raw prof : List Byte) : Nat → Nat → Nat → Option (List (Nat × Nat × Bool))
  | 0, _, left => if left = 0 then some [] else none
  | f + 1, r, left =>
    if left = 0 then some []
    else if pRows raw ≤ r then none
    else
      let e := (maskAt s c raw r).1
      let n := blockLeft raw r
      if entryBad prof e then none
      else if e % 65536 = 0 then (markerSpans s c raw prof f (r + n) left).map fun l => (r, n, true) :: l
      else
        let m := Nat.min n left
        (markerSpans s c raw prof f (r + m) (left - m)).map fun l => (r, m, false) :: l

/-- The spans of a marker of the current unit (R314, R317, R319). -/
def spansOf (s : State) (p : PassRun) (d : PassDrain) (data : List Byte) : Option (List (Nat × Nat × Bool)) :=
  let n := leAt data 16 5
  if n = 0 || leAt data 21 43 ≠ 0 || unitsOf p.raw < p.units + n then none
  else if pMask p.raw then markerSpans s d.ctx p.raw d.prof (pRows p.raw / 32 + 2) p.cursor n
  else some [(p.cursor, n * termsPerUnit p.raw, false)]

/-- ZERO_ROW_MARKER (R314, R192, R319): the marker at row port 0 is accepted, or ends the pass. -/
def execZeroRowMarker (b : Nat) (s : State) (fs : List MemFault := []) : Res :=
  .next <|
    match acceptingRun s b with
    | none => s
    | some (p, d) =>
      let j := scheduledJet p
      match segmentOf s (16 * b) j with
      | none => s
      | some h =>
        if !pZskip p.raw || p.partCount != 0 || !isMarker h.data || (maskAt s d.ctx p.raw p.cursor).1 % 65536 == 0 then s
        else memFaults fs s fun s =>
          match segmentFor s b p 1 with
          | none => s
          | some s' =>
            let s' := takeSegment s' (16 * b) j
            match spansOf s p d h.data with
            | none => itemFail s' b p.seq .badRow
            | some spans =>
              let s' := journalWrite s' b h.data
              let s' := updRun s' b p.seq fun p => { p with segSlots := p.segSlots + 1 }
              let fed := (spans.map fun x => if x.2.2 then 0 else x.2.1).sum
              let rows := (spans.map (·.2.1)).sum
              let s' := bump s' (oBsn b + 0x68) fed
              let segNo := segOf s' b p.seq
              enterRows s' b p (rows / termsPerUnit p.raw) rows <| spans.map fun x =>
                { seq := p.seq, row := x.1, data := [], zeros := x.2.1, masked := x.2.2, marker := true, segNo, bank := p.bank }

/-- FEED_STALL (R191): reported once for a wait. -/
def execFeedStall (b : Nat) (s : State) : Res :=
  .next <|
    match currentRun (getBasin s b) with
    | none => s
    | some p =>
      let limit := regOf s (oBsn b + 0x3C) % 1024 * 50000000
      if basinRuns s b && !p.win && !p.stalled && decide (limit < s.ticks - p.since) then
        let s := updRun s b p.seq fun p => { p with stalled := true }
        let s := setBit s (oBsn b + 0x08) 8
        let s := postEvent s (basinCtx s b) 0x08 0xFFFFFFFF ([1, 0] ++ toLe 2 b)
        ledgerRecord s 0x01A ((s.ticks - p.since) / 50000000) (toLe 1 b ++ toLe 2 (p.units % pSchedLen p.raw))
      else s

end Sys2Proof.Machine
end

