-- ==== Sys2Proof/Machine/RingOps.lean ====
section
/-!
DEFINITION. How the commands of a ring start and complete (R556, R557, R563, R564).
-/

namespace Sys2Proof.Machine

/-- Opcodes that start as SERIAL whatever their header says (R558). -/
def opSerial (op : Nat) : Bool := op == 0x05 || op == 0x12

/-- Opcodes that work at the sluices (R557). -/
def opSluice (op : Nat) : Bool := op == 0x09 || op == 0x0A || op == 0x0C

/-- The context's commands may run: it is RUNNING and no window that it opened holds them (R402, R545, R547). -/
def ctxRuns (s : State) (c : Nat) : Bool :=
  let x := getCtx s c
  x.st == .running && !x.saved && x.window.isNone && (!x.eval || x.windowOpen) && unitsRun s && !heldByRecovery s c

/-- Commands ahead of one, oldest first; each has started (R557). -/
def cmdsBefore (x : Ctx) (slot : Nat) : List Cmd := x.cmds.takeWhile fun m => m.slot != slot

/-- The header conditions of a command (R556, R557). -/
def headerOk (x : Ctx) (m : Cmd) : Bool :=
  let h := cmdHdr m
  let ahead := cmdsBefore x m.slot
  ((!bitB h 15 && !opSerial (cmdOp m)) || ahead.isEmpty)
  && (!bitB h 14 || !ahead.any fun e => cmdOp e == 0x0C)

/-- The oldest command that has not started, when it may start now. -/
def nextCmd (s : State) (c : Nat) : Option Cmd :=
  let x := getCtx s c
  match x.cmds.find? fun m => !m.started with
  | none => none
  | some m => if ctxRuns s c && headerOk x m then some m else none

def updCmd (s : State) (c slot : Nat) (f : Cmd → Cmd) : State :=
  updCtx s c fun x => { x with cmds := x.cmds.map fun m => if m.slot = slot then f m else m }

/-- A command starts. -/
def startCmd (s : State) (c slot : Nat) : State :=
  updCmd s c slot fun m => { m with started := true, since := s.ticks, stalled := false }

/-- Starts the oldest command not started when it is one of opcode `op`, and runs `k` on it. -/
def withCmd (s : State) (c op : Nat) (k : State → Cmd → State) : State :=
  match nextCmd s c with
  | none => s
  | some m => if cmdOp m = op then k (startCmd s c m.slot) m else s

/-- Bit of HIF_ERR_STATUS of the context's port. -/
def hifErr (s : State) (c bit : Nat) : State := hifFlag s ((portOf s c).getD 0) bit

/-- A malformed command (R563). -/
def commandBad (s : State) (c slot : Nat) : State := halt (hifErr s c 6) c 2 slot 0

/-- An access outside every host window, or a host read that failed (R552). -/
def hostFault (s : State) (c : Nat) : State := halt (hifErr s c 2) c 3 0xFFFFFFFF 0

/-- Sluice commands ahead of one have completed (R557). -/
def sluiceTurn (s : State) (c : Nat) (m : Cmd) : Bool :=
  !(cmdsBefore (getCtx s c) m.slot).any fun e => opSluice (cmdOp e)

/-- As `withCmd`, for a command that the sluices take in ring order. -/
def withSluiceCmd (s : State) (c op : Nat) (k : State → Cmd → State) : State :=
  match nextCmd s c with
  | none => s
  | some m => if sluiceTurn s c m then withCmd s c op k else s

/-- A write to the host within the context's windows; otherwise the context halts (R552). -/
def hostWrite (s : State) (c addr : Nat) (data : List Byte) : State :=
  if inWindow s c addr data.length then emit s (.hostWrite ((portOf s c).getD 0) addr data) else hostFault s c

end Sys2Proof.Machine
end

