-- ==== Sys2Proof/Machine/SluiceMath.lean ====
section
/-!
DEFINITION. Descriptors, layouts, schedule records and the arithmetic of the sluices, as functions of values (R377 to R393).
-/

namespace Sys2Proof.Machine

/-! Fields of a block descriptor (R377). -/

def bkRule (d : List Byte) : Nat := wfld d 0 3 0
def bkNesterov (d : List Byte) : Bool := wfld d 0 4 4 == 1
def bkSr (d : List Byte) : Bool := wfld d 0 5 5 == 1
def bkGraftSgd (d : List Byte) : Bool := wfld d 0 6 6 == 1
def bkRootP (d : List Byte) : Nat := wfld d 0 8 7
def bkStatFrozen (d : List Byte) : Bool := wfld d 0 9 9 == 1
def bkGroup (d : List Byte) : Nat := wfld d 0 13 10
def bkCopyFmt (d : List Byte) : Nat := wfld d 0 18 14
def bkNotify (d : List Byte) : Bool := wfld d 0 19 19 == 1
def bkJet (d : List Byte) : Nat := wfld d 0 31 20
def bkChan (d : List Byte) : Nat := wfld d 0 39 32
def bkIterMax (d : List Byte) : Nat := wfld d 0 47 40
def bkTol (d : List Byte) : Nat := wfld d 0 52 48
def bkRows (d : List Byte) : Nat := wfld d 1 15 0
def bkCols (d : List Byte) : Nat := wfld d 1 47 16
def bkMaster (d : List Byte) : Nat := wfld d 2 47 0
def bkState (d : List Byte) : Nat := wfld d 3 47 0
def bkCopy (d : List Byte) : Nat := wfld d 4 47 0
def bkMask (d : List Byte) : Nat := wfld d 5 47 0
def bkStatus (d : List Byte) : Nat := wfld d 6 47 0
def bkGrad (d : List Byte) : Nat := wfld d 7 9 0
def bkCl (d : List Byte) : Nat := wfld d 7 19 10
def bkCr (d : List Byte) : Nat := wfld d 7 29 20
def bkP (d : List Byte) : Nat := wfld d 7 39 30
def bkOperand (d : List Byte) : Nat := wfld d 8 47 0
def bkRootOperand (d : List Byte) : Nat := wfld d 9 47 0
def bkRootWork (d : List Byte) : Nat := wfld d 10 47 0
def bkTensor (d : List Byte) : Nat := wfld d 11 23 0
def bkEps (d : List Byte) : Nat := wfld d 11 63 32
def bkE0 (d : List Byte) : Nat := wfld d 12 47 0

def bkPrecond (d : List Byte) : Bool := bkRule d == 3
/-- Elements of a block. -/
def bkElems (d : List Byte) : Nat := bkRows d * bkCols d
/-- Size k of a matrix: false the left one. -/
def bkSide (d : List Byte) (right : Bool) : Nat := if right then bkCols d else bkRows d

/-- Bytes of a derived copy's element; 0 for none. -/
def copySize (f : Nat) : Nat := if f = 1 || f = 2 then 2 else if f = 8 || f = 9 then 1 else 0

def copyFmt (f : Nat) : Fmt := if f = 1 then bf16 else if f = 2 then f16 else if f = 8 then e4m3 else e5m2

/-- The regions that a block names. -/
def bkRegions (d : List Byte) : List Nat :=
  bkGrad d :: (if bkPrecond d then [bkCl d, bkCr d, bkP d] else [])

/-! The state slots (R379). -/

/-- Whether the rule uses a slot. -/
def slotUsed (d : List Byte) (k : Nat) : Bool :=
  let r := bkRule d
  if k = 0 then decide (1 ≤ r) else if k = 1 then r == 2 || (r == 3 && !bkGraftSgd d) else r == 3

/-- Elements of a slot. -/
def slotElems (d : List Byte) (k : Nat) : Nat :=
  if k ≤ 1 then bkElems d else if k = 2 || k = 4 then bkRows d * bkRows d else bkCols d * bkCols d

/-- Offset of slot `k` from STATE_ADDR, or of the end of the slots for 6. -/
def slotOff (d : List Byte) (k : Nat) : Nat :=
  (List.range k).foldl (fun a i => if slotUsed d i then ceilDiv a 64 * 64 + 4 * slotElems d i else a) 0

/-- Address of a slot. -/
def bkSlot (d : List Byte) (k : Nat) : Nat := bkState d + ceilDiv (slotOff d k) 64 * 64

/-- Bytes of a root work area. -/
def workBytes (k : Nat) : Nat := 48 * k * k + 4096

/-- The arrays of a block: address and length. -/
def bkArrays (d : List Byte) : List (Nat × Nat) :=
  let n := bkElems d
  let l := bkRows d
  let r := bkCols d
  [(bkMaster d, 6 * n), (bkStatus d, 64)]
  ++ (if slotUsed d 0 then [(bkState d, slotOff d 6)] else [])
  ++ (if bkCopyFmt d ≠ 0 then [(bkCopy d, copySize (bkCopyFmt d) * n)] else [])
  ++ (if bkMask d ≠ 0 then [(bkMask d, ceilDiv n 8)] else [])
  ++ (if bkPrecond d then
      [(bkOperand d, 2 * n), (bkRootOperand d, 4 * l * l + 4 * r * r), (bkRootWork d, workBytes l + workBytes r)]
    else [])

def rangesMeet (a b : Nat × Nat) : Bool := decide (a.1 < b.1 + b.2) && decide (b.1 < a.1 + a.2)

/-- No two ranges of a list meet. -/
def noneMeet : List (Nat × Nat) → Bool
  | [] => true
  | a :: l => !l.any (rangesMeet a) && noneMeet l

/-- The field checks of R377 and R378 that need no state. -/
def blockWordsOk (d : List Byte) : Bool :=
  let r := bkRule d
  let pre := bkPrecond d
  let addr (w : Nat) : Bool := onlyBits (leAt d (8 * w) 8) 0xFFFFFFFFFFC0
  decide (r ≤ 3) && decide (1 ≤ bkRows d) && decide (1 ≤ bkCols d) && decide (bkElems d ≤ 2 ^ 40)
  && onlyBits (leAt d 0 8) 0x1FFFFFFFFFFFFF && onlyBits (leAt d 8 8) 0xFFFFFFFFFFFF
  && addr 2 && addr 3 && addr 4 && addr 5 && addr 6 && addr 8 && addr 9 && addr 10
  && onlyBits (leAt d 56 8) 0xFFFFFFFFFF && onlyBits (leAt d 88 8) 0xFFFFFFFF00FFFFFF
  && onlyBits (leAt d 96 8) 0xFFFFFFFFFFFF && leAt d 104 24 == 0
  && (bkCopyFmt d == 0 || copySize (bkCopyFmt d) != 0) && (bkCopyFmt d != 0 || bkCopy d == 0)
  && (r == 1 || !bkNesterov d) && (r != 0 || bkState d == 0)
  && (if pre then
        bkRootP d != 3 && decide (bkRows d ≤ 2048) && decide (bkCols d ≤ 2048)
        && decide (1 ≤ bkIterMax d) && decide (bkIterMax d ≤ 64) && decide (4 ≤ bkTol d) && decide (bkTol d ≤ 23)
        && (f32.decode (bkEps d)).isFin && !(f32.decode (bkEps d)).isZero && !(f32.decode (bkEps d)).isNeg
      else
        !bkGraftSgd d && bkRootP d == 0 && !bkStatFrozen d && bkIterMax d == 0 && bkTol d == 0
        && wfld d 7 39 10 == 0 && bkOperand d == 0 && bkRootOperand d == 0 && bkRootWork d == 0 && bkEps d == 0)

/-- Buddy bytes of a block (R610). -/
def bkBuddyBytes (d : List Byte) : Nat :=
  6 * bkElems d + (if slotUsed d 0 then slotOff d 6 else 0)
  + (if bkPrecond d then workBytes (bkRows d) + workBytes (bkCols d) else 0)
  + (if bkSr d then copySize (bkCopyFmt d) * bkElems d else 0)

/-! Schedule records (R393). -/

/-- Value `v` of group `q`: LR, BETA1, BETA2, EPS, WD, STAT_DECAY. -/
def schedVal (r : List Byte) (q v : Nat) : F32 := BitVec.ofNat 32 (leAt r (64 + 32 * q + 4 * v) 4)
def schedRootStart (r : List Byte) (q : Nat) : Bool := bitB (leAt r (64 + 32 * q + 24) 4) 0
def schedGroups (r : List Byte) : Nat := leAt r 8 1

/-- 0 ≤ x, and x < 1 or x ≤ 1. −0 is 0. -/
def unitVal (x : F32) (one : Bool) : Bool :=
  let v := F32.val x
  !v.lt (.fin false 0 0) && (if one then !(FVal.fin false 1 0).lt v else v.lt (.fin false 1 0))

/-- A well-formed record (R393); every group entry that the count names. -/
def schedOk (r : List Byte) : Bool :=
  let n := schedGroups r
  decide (1 ≤ n) && decide (n ≤ 16) && (slice r 9 55).all (· == 0)
  && allBelow n fun q =>
    allBelow 6 (fun v => (F32.val (schedVal r q v)).isFin)
    && unitVal (schedVal r q 1) false && unitVal (schedVal r q 2) false && unitVal (schedVal r q 5) true
    && (FVal.fin false 0 0).lt (F32.val (schedVal r q 3)) && !(F32.val (schedVal r q 4)).lt (.fin false 0 0)
    && onlyBits (leAt r (64 + 32 * q + 24) 4) 1 && leAt r (64 + 32 * q + 28) 4 == 0

/-! Arithmetic (R381): results with the number of those that have saturated. -/

/-- What the conversions of one block give: saturated results, and the class counts of its status line. -/
structure Tally where
  ovf : Nat := 0
  cls : List Nat := [0, 0, 0, 0, 0, 0]
  frozen : Nat := 0
  elems : Nat := 0
  /-- A region gave a non-finite value; a master is non-finite. -/
  regionBad : Bool := false
  masterBad : Bool := false
  deriving DecidableEq, Repr

/-- RNE to binary32; an infinite result of finite operands becomes the largest finite value and is counted (R381). -/
def satF (finite : Bool) (v : FVal) (n : Nat) : F32 × Nat :=
  let r := f32.ieeeRound v
  if finite && r % 2 ^ 31 == f32.maxMag + 1 then (BitVec.ofNat 32 (r - 1), n + 1) else (BitVec.ofNat 32 r, n)

def finite2 (a b : F32) : Bool := (F32.val a).isFin && (F32.val b).isFin

def slAdd (a b : F32) (n : Nat) : F32 × Nat := satF (finite2 a b) ((F32.val a).add (F32.val b)) n
def slSub (a b : F32) (n : Nat) : F32 × Nat := satF (finite2 a b) ((F32.val a).add (F32.val b).neg) n
def slMul (a b : F32) (n : Nat) : F32 × Nat := satF (finite2 a b) ((F32.val a).mul (F32.val b)) n
def slDiv (a b : F32) (n : Nat) : F32 × Nat := satF (finite2 a b) ((F32.val a).div (F32.val b)) n

/-- A W40 value rounded to binary32 by RNE (R383, R384, R390). -/
def slOfW40 (x : W40) (n : Nat) : F32 × Nat := satF (w40Val x).isFin (w40Val x) n

/-- b^t by squaring over the lowest `k` bits of `t`, the most significant first (R381). -/
def powiN (b : F32) (t : Nat) : Nat → F32 × Nat → F32 × Nat
  | 0, r => r
  | k + 1, r =>
    let r := slMul r.1 r.1 r.2
    let r := if t.testBit k then slMul r.1 b r.2 else r
    powiN b t k r

def powi (b : F32) (t n : Nat) : F32 × Nat := powiN b t (Nat.log2 t + 1) (f32one, n)

/-- Canonical pairwise sum of binary32 values in W40, rounded to binary32 (R383, R389). -/
def sumF32 (l : List F32) (n : Nat) : F32 × Nat :=
  slOfW40 (pairwise w40Add 0 (l.map fun x => toW40 (F32.val x))) n

/-- Squares of a list, each rounded. -/
def squares (l : List F32) (n : Nat) : List F32 × Nat :=
  l.foldl (fun a x => let (y, n) := slMul x x a.2; (a.1 ++ [y], n)) ([], n)

/-- The values of a schedule group, and c1, c2, 1 − b1 and 1 − b2 of R382. -/
structure Hyper where
  lr : F32
  b1 : F32
  b2 : F32
  eps : F32
  wd : F32
  decay : F32
  c1 : F32
  c2 : F32
  m1 : F32
  m2 : F32
  deriving DecidableEq, Repr

/-- The constants of a block's update in the step with counter `step`: t is the counter + 1 (R382). -/
def hyperOf (r : List Byte) (q step n : Nat) : Hyper × Nat :=
  let b1 := schedVal r q 1
  let b2 := schedVal r q 2
  let (p1, n) := powi b1 (step + 1) n
  let (c1, n) := slSub f32one p1 n
  let (p2, n) := powi b2 (step + 1) n
  let (c2, n) := slSub f32one p2 n
  let (m1, n) := slSub f32one b1 n
  let (m2, n) := slSub f32one b2 n
  ({ lr := schedVal r q 0, b1, b2, eps := schedVal r q 3, wd := schedVal r q 4, decay := schedVal r q 5, c1, c2, m1, m2 }, n)

/-- One conversion: its class and, when it saturates, its result are counted. -/
def Tally.conv (t : Tally) (c : Cls) : Tally :=
  { t with cls := updAt t.cls c.idx (· + 1), ovf := if c = .ovf then t.ovf + 1 else t.ovf }

/-- The key of a narrowing point of a block (R249, R383). -/
def bkKey (d : List Byte) (seed step point sub : Nat) : SrKey :=
  { seed, tensor := bkTensor d, point, sub, step }

def bkRnd (d : List Byte) (seed step point sub e : Nat) : Rnd := (bkKey d seed step point sub).rnd (bkSr d) (bkE0 d + e)

/-- A moment's last addition, converted to binary32 under ROUND (R379, R383; log entry 22). -/
def slotAdd (d : List Byte) (seed step sub e : Nat) (x y : F32) (t : Tally) : F32 × Tally :=
  let (v, c) := narrowF f32 (bkRnd d seed step 5 sub e) ((F32.val x).add (F32.val y))
  (BitVec.ofNat 32 v, t.conv c)

/-- ν ← b2·ν + (1 − b2)·(g·g), for slot 1. -/
def nuNext (d : List Byte) (seed step e : Nat) (h : Hyper) (nu g : F32) (t : Tally) : F32 × Tally :=
  let (a, n) := slMul h.b2 nu t.ovf
  let (q, n) := slMul g g n
  let (b, n) := slMul h.m2 q n
  slotAdd d seed step 1 e a b { t with ovf := n }

/-- sqrt(ν / c2) + eps. -/
def denom (h : Hyper) (nu : F32) (n : Nat) : F32 × Nat :=
  let (q, n) := slDiv nu h.c2 n
  slAdd (F32.sqrt q) h.eps n

/-- An element's inputs: gradient or P element, μ, ν. The result: d of R382, μ, ν. -/
def elemDir (d : List Byte) (seed step e : Nat) (h : Hyper) (s g p mu nu : F32) (t : Tally) : (F32 × F32 × F32) × Tally :=
  let r := bkRule d
  if r = 0 then ((g, mu, nu), t)
  else if r = 1 then
    let (a, n) := slMul h.b1 mu t.ovf
    let (mu, t) := slotAdd d seed step 0 e a g { t with ovf := n }
    if bkNesterov d then
      let (b, n) := slMul h.b1 mu t.ovf
      let (v, n) := slAdd g b n
      ((v, mu, nu), { t with ovf := n })
    else ((mu, mu, nu), t)
  else if r = 2 then
    let (a, n) := slMul h.b1 mu t.ovf
    let (b, n) := slMul h.m1 g n
    let (mu, t) := slotAdd d seed step 0 e a b { t with ovf := n }
    let (nu, t) := nuNext d seed step e h nu g t
    let (q, n) := slDiv mu h.c1 t.ovf
    let (w, n) := denom h nu n
    let (v, n) := slDiv q w n
    ((v, mu, nu), { t with ovf := n })
  else
    let (a, n) := slMul h.b1 mu t.ovf
    let (sp, n) := slMul s p n
    let (b, n) := slMul h.m1 sp n
    let (mu, t) := slotAdd d seed step 0 e a b { t with ovf := n }
    let (v, n) := slDiv mu h.c1 t.ovf
    ((v, mu, nu), { t with ovf := n })

/-- The new master of an element (R382). -/
def elemMaster (d : List Byte) (seed step e : Nat) (h : Hyper) (w : F32T) (dir : F32) (t : Tally) : F32T × Tally :=
  let hi : F32 := if w.hi = 0x80000000 && w.t = 0 then 0 else BitVec.ofNat 32 w.hi
  let (a, n) := slMul h.wd hi t.ovf
  let (b, n) := slAdd dir a n
  let (delta, n) := slMul h.lr b n
  let (x, c) := narrowT (bkRnd d seed step 4 0 e) (w.val.add (F32.val delta).neg)
  (x, ({ t with ovf := n } : Tally).conv c)

/-- The derived copy of an element, from the full FP32T value (R226, R383). -/
def elemCopy (f : Nat) (rm : Rnd) (w : F32T) : Nat × Cls := narrowF (copyFmt f) rm w.val

/-- The six bytes of an FP32T element (R223). -/
def tBytes (w : F32T) : List Byte := toLe 2 (ofSigned 16 w.t) ++ toLe 4 w.hi
def tOf (bs : List Byte) : F32T := ⟨leAt bs 2 4, toSigned 16 (leAt bs 0 2)⟩

/-- Canonical under R224; HI −0 with T 0 is accepted. -/
def tCanonical (w : F32T) : Bool :=
  match w.val with
  | .fin n m e => (w.hi == 0x80000000 && w.t == 0) || hiTiesUp n m e == w.hi
  | _ => false

/-! Roots (R386, R389, R390). -/

/-- RNE to BF16 at a narrowing point (R244), as binary32 bits. -/
def bf (x : F32) : F32 := F32.ofVal (bf16.decode (narrowF bf16 .rne (F32.val x)).1)
def bfBits (x : F32) : Nat := (narrowF bf16 .rne (F32.val x)).1

/-- hi, mid and lo of R390. -/
def bfPart (k : Nat) (x : F32) : F32 :=
  let hi := bf x
  let r := x.sub hi
  if k = 0 then hi else if k = 1 then bf r else bf (r.sub (bf r))

/-- Parts of the left and right operand in the six pairs of R390. -/
def pairParts (q : Nat) : Nat × Nat :=
  if q = 0 then (0, 0) else if q = 1 then (0, 1) else if q = 2 then (1, 0) else if q = 3 then (0, 2)
  else if q = 4 then (1, 1) else (2, 0)

/-- The row-reduce output of one tile of 512 reduced indices for C(i, j) (R127, R390). -/
def tileDot (k : Nat) (x y : SMap F32) (i j q tile : Nat) : W40 :=
  tree 0 false ((List.range 512).map fun u =>
    let c := 512 * tile + u
    if c < k then
      toW40 ((F32.val (bfPart (pairParts q).1 (SMap.get 0 x (i * k + c)))).mul
        (F32.val (bfPart (pairParts q).2 (SMap.get 0 y (c * k + j)))))
    else 0)

/-- One element of a product: a K-tiling group of 6⌈k/512⌉ members (R390). -/
def prodElem (k : Nat) (x y : SMap F32) (i j n : Nat) : F32 × Nat :=
  let t := ceilDiv k 512
  let g := 6 * t
  let part (m : Nat) : W40 := tileDot k x y i j (m / t) (m % t)
  let st := (List.range (g - 1)).foldl (fun st m => ktPush 0 false 16 0 m (part m) st) (List.replicate 17 0)
  slOfW40 (ktFinish 0 false (g - 1) (part (g - 1)) st) n

/-- An elementwise map of a k × k matrix with its count of saturated results; `f` gets whether the element is diagonal. -/
def mapMat (k : Nat) (f : Bool → F32 → Nat → F32 × Nat) (x : SMap F32) (n : Nat) : SMap F32 × Nat :=
  (List.range (k * k)).foldl (fun a e =>
    let (v, n) := f (e / k == e % k) (SMap.get 0 x e) a.2
    (SMap.put 0 a.1 e v, n)) ([], n)

/-- A product, with its count of saturated results (R381, R390). -/
def prodMat (k : Nat) (x y : SMap F32) (n : Nat) : SMap F32 × Nat :=
  (List.range (k * k)).foldl (fun a e =>
    let (v, n) := prodElem k x y (e / k) (e % k) a.2
    (SMap.put 0 a.1 e v, n)) ([], n)

def matFinite (x : SMap F32) : Bool := x.all fun e => (F32.val e.2).isFin

/-- A small integer as binary32. -/
def natF (n : Nat) : F32 := F32.ofVal (.fin false n 0)

/-- t = ((p + 1)·I − M) / p. -/
def newtonT (k p : Nat) (m : SMap F32) (n : Nat) : SMap F32 × Nat :=
  mapMat k (fun diag x n =>
    let (a, n) := slSub (if diag then natF (p + 1) else 0) x n
    slDiv a (natF p) n) m n

/-- maxabs(M − I) ≤ 2^−tol. -/
def rootClose (k tol : Nat) (m : SMap F32) (n : Nat) : Bool × Nat :=
  let (a, n) := mapMat k (fun diag x n => slSub x (if diag then f32one else 0) n) m n
  (a.all fun e => !(FVal.fin false 1 (-(tol : Int))).lt (F32.val e.2).abs, n)

/-- Square root taken `l` times. -/
def rootN : Nat → F32 → F32
  | 0, x => x
  | l + 1, x => rootN l (F32.sqrt x)

/-- The start of a computation (R389) from a statistic: X and M, with the first T; none when an iterate is not finite. -/
def rootInit (d : List Byte) (right : Bool) (s : SMap F32) (n : Nat) : Option Root × Nat :=
  let k := bkSide d right
  let p := 2 ^ (bkRootP d + 1)
  let (a, n) := mapMat k (fun diag x n => slAdd x (if diag then BitVec.ofNat 32 (bkEps d) else 0) n) s n
  let (sq, n) := squares ((List.range (k * k)).map fun e => SMap.get 0 a e) n
  let (ss, n) := sumF32 sq n
  let (f2, n) := slMul (natF 2) (F32.sqrt ss) n
  let (z, n) := slDiv (natF (1 + p)) f2 n
  let r := rootN (bkRootP d + 1) z
  let x := tabulate 0 (k * k) fun e => if e / k = e % k then r else 0
  let (m, n) := mapMat k (fun _ x n => slMul z x n) a n
  let (t, n) := newtonT k p m n
  if matFinite x && matFinite m && matFinite t then (some { size := k, x, m, t }, n) else (none, n)

/-- Passes of one product. -/
def prodPasses (k : Nat) : Nat := 6 * ceilDiv k 512 * ceilDiv k 512

/-- One pass of a computation has run; with the last one of a product, its result, and after the last product of an iteration the
tolerance test (R389, R390). None when the computation fails. -/
def rootPass (d : List Byte) (r : Root) (n : Nat) : Option Root × Nat :=
  let l := bkRootP d + 1
  let k := r.size
  if r.pass + 1 < prodPasses k then (some { r with pass := r.pass + 1 }, n)
  else if r.prod = 0 then
    let (x, n) := prodMat k r.x r.t n
    (if matFinite x then some { r with x, tp := r.t, prod := 1, pass := 0 } else none, n)
  else if r.prod ≤ l then
    let (tp, n) := prodMat k r.tp r.tp n
    (if matFinite tp then some { r with tp, prod := r.prod + 1, pass := 0 } else none, n)
  else
    let (m, n) := prodMat k r.tp r.m n
    let (close, n) := rootClose k (bkTol d) m n
    if !matFinite m then (none, n)
    else if close then (some { r with m, converged := true, prod := 0, pass := 0 }, n)
    else if bkIterMax d ≤ r.iter then (none, n)
    else
      let (t, n) := newtonT k (2 ^ l) m n
      if matFinite t then (some { r with m, t, iter := r.iter + 1, prod := 0, pass := 0 }, n) else (none, n)

/-! Window passes (R390, R391). -/

/-- The PASS words of a window's pass: ROW_REDUCE in BF16 over `k` rows. -/
def windowRaw (k : Nat) : List Byte := slice (toLe 8 (1 + 2 ^ 4 + 2 ^ 8 + 2 ^ 13) ++ toLe 8 k) 0 128

/-- Operands of the product that a computation has come to. -/
def Root.args (r : Root) (d : List Byte) : SMap F32 × SMap F32 :=
  if r.prod = 0 then (r.x, r.t) else if r.prod ≤ bkRootP d + 1 then (r.tp, r.tp) else (r.tp, r.m)

/-- Column block, pair of parts and K tile of the pass that comes next. -/
def Root.place (r : Root) : Nat × Nat × Nat :=
  let t := ceilDiv r.size 512
  (r.pass / (6 * t), r.pass / t % 6, r.pass % t)

/-- Row `i` of the pass: 512 BF16 parts of the left operand. -/
def windowRow (d : List Byte) (r : Root) (i : Nat) : List Byte :=
  let (_, pair, tile) := r.place
  (List.range 512).flatMap fun u =>
    let c := 512 * tile + u
    toLe 2 (if c < r.size then bfBits (bfPart (pairParts pair).1 (SMap.get 0 (r.args d).1 (i * r.size + c))) else 0)

/-- The tile of the pass: BF16 parts of the right operand, a row of cells for each column of the product. -/
def windowBank (d : List Byte) (r : Root) : Bank :=
  let (block, pair, tile) := r.place
  { st := .ready, rcd := { fmt := 1 }
    words := tabulate 0 262144 fun w =>
      let c := 512 * tile + w % 512
      let j := 512 * block + w / 512
      if c < r.size && j < r.size then
        BitVec.ofNat 16 (bfBits (bfPart (pairParts pair).2 (SMap.get 0 (r.args d).2 (c * r.size + j))))
      else 0 }

/-- The four root operand arrays of R379: hi and lo of each root, in BF16. -/
def rootParts (k : Nat) (x : SMap F32) : List Byte :=
  let es := (List.range (k * k)).map fun e => SMap.get 0 x e
  es.flatMap (fun v => toLe 2 (bfBits v)) ++ es.flatMap fun v => toLe 2 (bfBits (v.sub (bf v)))

/-- The identity matrix in binary32. -/
def identMat (k : Nat) : SMap F32 := tabulate 0 (k * k) fun e => if e / k = e % k then f32one else 0

def matBytes (k : Nat) (x : SMap F32) : List Byte := (List.range (k * k)).flatMap fun e => toLe 4 (SMap.get (0 : F32) x e).toNat

def matOf (bs : List Byte) : SMap F32 := tabulate 0 (bs.length / 4) fun e => BitVec.ofNat 32 (leAt bs (4 * e) 4)

/-- The status line (R380). -/
def statusLine (step : Nat) (t : Tally) : List Byte :=
  toLe 8 step ++ t.cls.flatMap (toLe 8) ++ toLe 8 t.frozen

/-- A notification (R399). -/
def sluiceMsg (block kind step : Nat) : List Byte :=
  slice (toLe 2 block ++ toLe 1 kind ++ [0] ++ toLe 8 step) 0 64

end Sys2Proof.Machine
end

