-- ==== Sys2Proof/Machine/SluiceOps.lean ====
section
/-!
DEFINITION. Shared operations of the sluices over the state: arrays in context memory, region sources, element updates, statistics,
roots, installed blocks and the buddy fit (R376 to R392, R398, R610).
-/

namespace Sys2Proof.Machine

def blockKey (c n : Nat) : Nat := c * 16384 + n

/-- Block `n` of a context; an index of 16,384 or more is no block's (R376, R395). -/
def getBlock (s : State) (c n : Nat) : Option Block :=
  if 16384 ≤ n then none else SMap.get none s.sluice.blocks (blockKey c n)

def setBlock (s : State) (c n : Nat) (b : Option Block) : State :=
  { s with sluice := { s.sluice with blocks := SMap.put none s.sluice.blocks (blockKey c n) b } }

/-- VALID blocks of a context, ascending: index, block. -/
def blocksOf (s : State) (c : Nat) : List (Nat × Block) :=
  s.sluice.blocks.filterMap fun e => if e.1 / 16384 = c then e.2.map fun b => (e.1 % 16384, b) else none

def rootKey (c n : Nat) (right : Bool) : Nat := blockKey c n * 2 + b2n right

def getRoot (s : State) (c n : Nat) (right : Bool) : Option Root := SMap.get none s.sluice.roots (rootKey c n right)

def setRoot (s : State) (c n : Nat) (right : Bool) (r : Option Root) : State :=
  { s with sluice := { s.sluice with roots := SMap.put none s.sluice.roots (rootKey c n right) r } }

/-! Arrays (R376): bytes of a context's memory across pages. -/

def readArr (s : State) (c va n : Nat) : List Byte := (partsOf 0x80000 va n).flatMap fun p => readUn s c p.1 p.2

def writeArr (s : State) (c va : Nat) (bs : List Byte) : State :=
  (partsOf 0x80000 va bs.length).foldl (fun s p => writeUn s c p.1 (slice bs (p.1 - va) p.2)) s

def readF (s : State) (c va e : Nat) : F32 := BitVec.ofNat 32 (leNat (readArr s c (va + 4 * e) 4))
def writeF (s : State) (c va e : Nat) (x : F32) : State := writeArr s c (va + 4 * e) (toLe 4 x.toNat)

def readMaster (s : State) (c : Nat) (d : List Byte) (e : Nat) : F32T := tOf (readArr s c (bkMaster d + 6 * e) 6)

/-- Element `e` is frozen (R385). -/
def frozen (s : State) (c : Nat) (d : List Byte) (e : Nat) : Bool :=
  bkMask d != 0 && bitB (leNat (readArr s c (bkMask d + e / 8) 1)) (e % 8)

/-! Regions as sources (R384). -/

/-- The region's type, mode and length suit `n` elements. -/
def srcValid (r : List Byte) (n : Nat) : Bool :=
  let m := rgMode r
  if m ≤ 1 then rgType r == 0 && rgOp r == 0 && decide (n ≤ 16 * rgLines r)
  else rgType r == 4 && (rgOut r == 0x18 || rgOut r == 0x1B) && decide (n ≤ 12 * rgLines r)

/-- Element `e` of a region; of one that has been released since the COMMIT arrived, an open value (R17; log entry 133). -/
def sourceElem (s : State) (c : Nat) (r : List Byte) (e n : Nat) : F32 × Nat :=
  if r.isEmpty then (Config.lostSource e, n)
  else if rgMode r ≤ 1 then (readF s c (rgBase r) e, n)
  else if rgOut r = 0x18 then (readF s c (rgResult r) e, n)
  else slOfW40 (BitVec.ofNat 40 (leNat (readArr s c (rgBase r + 64 * (e / 12) + 5 * (e % 12)) 5))) n

/-- The record of a region declared by the context; the empty list for none, which is also what a commit finds of a region released between
the COMMIT's arrival and the release of its barrier (log entry 133). -/
def sourceOf (s : State) (c n : Nat) : List Byte :=
  match getRegion s n with
  | some g => if g.ctx = c then g.raw else []
  | none => []

/-- A region that the context declares is complete (R17); one that it does not declare holds nothing up. -/
def regionDone (s : State) (c n : Nat) : Bool :=
  match getRegion s n with
  | some g => g.ctx != c || g.complete
  | none => true

/-- The regions that a block names have the length that it needs: gradient and P, left and right statistic. -/
def sourcesOk (s : State) (c : Nat) (d : List Byte) : Bool :=
  let ok (n k : Nat) : Bool :=
    let r := sourceOf s c n
    !r.isEmpty && srcValid r k
  ok (bkGrad d) (bkElems d) && (!bkPrecond d ||
    (ok (bkCl d) (bkRows d * bkRows d) && ok (bkCr d) (bkCols d * bkCols d) && ok (bkP d) (bkElems d)))

/-! The update of one block (R380 to R385, R397, R398). -/

/-- Counts of saturated results. -/
def countOvf (s : State) (n : Nat) : State :=
  if n = 0 then s else setBit (bump s (oSlc + 0x48) n) (oSlc + 4) 12

/-- A block's update in progress: the state, the tally, and the sums of the norm pass. -/
structure Upd where
  s : State
  t : Tally := {}
  aa : List F32 := []
  pp : List F32 := []
  deriving DecidableEq, Repr

/-- An element that a non-finite value feeds: unchanged, and counted NONFINITE (R384, R398). -/
def Upd.skip (u : Upd) (master : Bool) : Upd :=
  { u with t := { u.t with
      cls := updAt u.t.cls 5 (· + 1)
      masterBad := u.t.masterBad || master, regionBad := u.t.regionBad || !master } }

/-- The norm pass of element `e` (R382, R383): a², p², and ν with GRAFT ADAM. -/
def normElem (c : Nat) (d : List Byte) (step : Nat) (h : Hyper) (u : Upd) (e : Nat) : Upd :=
  let s := u.s
  let (g, n) := sourceElem s c (sourceOf s c (bkGrad d)) e u.t.ovf
  let (p, n) := sourceElem s c (sourceOf s c (bkP d)) e n
  let zero (u : Upd) : Upd := { u with aa := u.aa ++ [0], pp := u.pp ++ [0] }
  if frozen s c d e || !(readMaster s c d e).val.isFin || !finite2 g p then zero u
  else
    let t := { u.t with ovf := n }
    let (a, s, t) := if bkGraftSgd d then (g, s, t) else
      let (nu, t) := nuNext d (getCtx s c).seed step e h (readF s c (bkSlot d 1) e) g t
      let (w, n) := denom h nu t.ovf
      let (a, n) := slDiv g w n
      (a, writeF s c (bkSlot d 1) e nu, { t with ovf := n })
    let (a2, n) := slMul a a t.ovf
    let (p2, n) := slMul p p n
    { u with s, t := { t with ovf := n }, aa := u.aa ++ [a2], pp := u.pp ++ [p2] }

/-- s of R382 from the norm pass. -/
def graftScale (u : Upd) : F32 × Nat :=
  let (aa, n) := sumF32 u.aa u.t.ovf
  let (pp, n) := sumF32 u.pp n
  if (F32.val pp).isZero then (0, n) else slDiv (F32.sqrt aa) (F32.sqrt pp) n

/-- The first and second optimizer slots of element `e` after its update. -/
def putSlots (s : State) (c : Nat) (d : List Byte) (e : Nat) (mu nu : F32) : State :=
  let s := if slotUsed d 0 then writeF s c (bkSlot d 0) e mu else s
  if bkRule d = 2 then writeF s c (bkSlot d 1) e nu else s

/-- The derived copy of element `e`, and its tally; nothing where the block has none. -/
def putCopy (s : State) (c : Nat) (d : List Byte) (seed step e : Nat) (w : F32T) (t : Tally) : State × Tally :=
  let f := bkCopyFmt d
  if f = 0 then (s, t)
  else
    let (x, k) := elemCopy f (bkRnd d seed step 6 f e) w
    (writeArr s c (bkCopy d + copySize f * e) (toLe (copySize f) x), t.conv k)

/-- The update of element `e` (R382, R385). -/
def updElem (c : Nat) (d : List Byte) (step : Nat) (h : Hyper) (sc : F32) (u : Upd) (e : Nat) : Upd :=
  let s := u.s
  let w := readMaster s c d e
  if frozen s c d e then { u with t := { u.t with frozen := u.t.frozen + 1 } }
  else if !w.val.isFin then u.skip true
  else
    let g := sourceElem s c (sourceOf s c (bkGrad d)) e u.t.ovf
    let p := if bkPrecond d then sourceElem s c (sourceOf s c (bkP d)) e g.2 else (0, g.2)
    if !finite2 g.1 p.1 then u.skip false
    else
      let seed := (getCtx s c).seed
      let mu := if slotUsed d 0 then readF s c (bkSlot d 0) e else 0
      let nu := if slotUsed d 1 then readF s c (bkSlot d 1) e else 0
      let v := elemDir d seed step e h sc g.1 p.1 mu nu { u.t with ovf := p.2 }
      let m := elemMaster d seed step e h w v.1.1 v.2
      let r := putCopy (writeArr (putSlots s c d e v.1.2.1 v.1.2.2) c (bkMaster d + 6 * e) (tBytes m.1)) c d seed step e m.1 m.2
      { u with s := r.1, t := { r.2 with elems := r.2.elems + 1 } }

/-- One element of a statistic (R387). -/
def statElem (c : Nat) (r : List Byte) (a : Nat) (h : Hyper) (u : Upd) (e : Nat) : Upd :=
  let (x, n) := sourceElem u.s c r e u.t.ovf
  if !(F32.val x).isFin then u.skip false
  else
    let (y, n) := slMul h.decay (readF u.s c a e) n
    let (z, k) := narrowF f32 .rne ((F32.val y).add (F32.val x))
    { u with s := writeF u.s c a e (BitVec.ofNat 32 z), t := ({ u.t with ovf := n } : Tally).conv k }

/-- Both statistics of a PRECOND block (R387). -/
def statUpdate (c : Nat) (d : List Byte) (h : Hyper) (u : Upd) : Upd :=
  let u := (List.range (slotElems d 2)).foldl (statElem c (sourceOf u.s c (bkCl d)) (bkSlot d 2) h) u
  (List.range (slotElems d 3)).foldl (statElem c (sourceOf u.s c (bkCr d)) (bkSlot d 3) h) u

/-- A notification of the sluices, when the block asks for it (R399). -/
def sluiceNote (s : State) (c n : Nat) (d : List Byte) (kind step : Nat) : State :=
  if bkNotify d then
    { s with mem := { s.mem with notes := s.mem.notes ++
      [{ ctx := c, sluice := true, jet := bkJet d, ch := bkChan d, data := sluiceMsg n kind step }] } }
  else s

/-- Offset of a root's operand arrays (R379). -/
def operandOff (d : List Byte) (right : Bool) : Nat := if right then 4 * bkRows d * bkRows d else 0

/-- Writes a root and its operands (R378, R392). -/
def writeRoot (s : State) (c : Nat) (d : List Byte) (right : Bool) (x : SMap F32) : State :=
  let k := bkSide d right
  let s := writeArr s c (bkSlot d (if right then 5 else 4)) (matBytes k x)
  writeArr s c (bkRootOperand d + operandOff d right) (rootParts k x)

/-- Installs a converged root (R392). -/
def installRoot (s : State) (c n : Nat) (d : List Byte) (step : Nat) (right : Bool) : State :=
  match getRoot s c n right with
  | none => s
  | some r =>
    if r.converged then
      let s := writeRoot (setRoot s c n right none) c d right r.x
      bump (sluiceNote s c n d 2 step) (oSlc + 0x50) 1
    else s

/-- A computation fails (R392); the ledger records it under a code that R583 does not give (log entry 23). -/
def rootFailed (s : State) (c n : Nat) (right : Bool) : State :=
  let s := setBit (bump (setRoot s c n right none) (oSlc + 0x58) 1) (oSlc + 4) 8
  ledgerRecord s Config.rootFailCode.toNat 0 (toLe 2 c ++ toLe 2 n ++ toLe 1 (b2n right))

/-- A block's state has changed, as the next copy into either slot sees it (R405). -/
def touchBlock (s : State) (c n : Nat) : State :=
  match getBlock s c n with
  | none => s
  | some b => setBlock s c n (some { b with dirty0 := true, dirty1 := true })

/-- Keeps what a step of a computation gives. -/
def rootResult (s : State) (c n : Nat) (right : Bool) (r : Option Root × Nat) : State :=
  let s := touchBlock (countOvf s r.2) c n
  match r.1 with
  | some x => setRoot s c n right (some x)
  | none => rootFailed s c n right

/-- Starts a root computation from the updated statistic, or counts the start that is ignored (R388). -/
def startRoot (s : State) (c n : Nat) (d : List Byte) (right : Bool) : State :=
  if (getRoot s c n right).isSome then setBit (bump s (oSlc + 0x60) 1) (oSlc + 4) 9
  else
    let k := bkSide d right
    rootResult s c n right (rootInit d right (matOf (readArr s c (bkSlot d (if right then 3 else 2)) (4 * k * k))) 0)

/-- The elements of a block's committed update (R382 to R387): the norm pass, the statistics, the update. -/
def blockUpd (c step : Nat) (r : List Byte) (s : State) (d : List Byte) : Upd :=
  let h := hyperOf r (bkGroup d) step 0
  let es := List.range (bkElems d)
  let u : Upd := { s, t := { ovf := h.2 } }
  let u := if bkPrecond d then es.foldl (normElem c d step h.1) u else u
  let sc := if bkPrecond d then graftScale u else (0, u.t.ovf)
  let u := { u with t := { u.t with ovf := sc.2 } }
  let u := if bkPrecond d then statUpdate c d h.1 u else u
  es.foldl (updElem c d step h.1 sc.1) u

/-- What follows a block's elements: its status line, counters and poison (R397 to R399). -/
def blockDone (c step n : Nat) (b : Block) (u : Upd) : State :=
  let d := b.raw
  let s := countOvf (writeArr u.s c (bkStatus d) (statusLine step u.t)) u.t.ovf
  let s := bump (bump s (oSlc + 0x38) u.t.elems) (oSlc + 0x40) u.t.frozen
  let s := if u.t.masterBad then setBit s (oSlc + 4) 7 else s
  let s := setBlock s c n (some { raw := d, bad := b.bad || u.t.masterBad })
  let s := if u.t.masterBad || u.t.regionBad then poisonCtx s c else s
  sluiceNote s c n d 1 step

/-- A block's committed update in the step with counter `step`, under schedule `r` (R397). -/
def commitBlock (c step : Nat) (r : List Byte) (s : State) (n : Nat) : State :=
  match getBlock s c n with
  | none => s
  | some b =>
    let d := b.raw
    let s := blockDone c step n b (blockUpd c step r s d)
    if bkPrecond d then
      let s := installRoot (installRoot s c n d step false) c n d step true
      if schedRootStart r (bkGroup d) then startRoot (startRoot s c n d false) c n d true else s
    else s

/-- A block whose masters were non-finite is restored once every master is finite (R398). -/
def rescan (s : State) (c : Nat) (n : Nat) : State :=
  match getBlock s c n with
  | none => s
  | some b =>
    if b.bad && allBelow (bkElems b.raw) (fun e => (readMaster s c b.raw e).val.isFin) then
      setBlock s c n (some { b with bad := false })
    else s

/-- A snapshot or buddy copy has still to read a block: a write to its state waits (R401). -/
def copyHolds (s : State) (c n : Nat) : Bool :=
  s.sluice.snaps.any (fun z => z.ctx == c && z.left.any fun p => p.1 == n) ||
    (match s.sluice.buddy with
     | some b => b.left.any fun p => p.1 == some (blockKey c n)
     | none => false)

/-! Blocks (R378, R610). -/

/-- The buddy reserve (R403): its first address and the bytes of one slot; no slot with RESERVE 0. -/
def reserveBytes (s : State) : Nat := hbmEnd s * bits (regOf s (oSlc + 8)) 21 18 / 16
def reserveBase (s : State) : Nat := hbmEnd s - reserveBytes s
def slotBytes (s : State) : Nat := reserveBytes s / 2

/-- Buddy bytes of a context's tables and step counter (R610). -/
def ctxBuddyBytes (x : Ctx) : Nat :=
  2176 * x.scaleLen + (if x.silentSet then 65536 else 0) + (if x.updSet then 2097152 else 0) + 8

/-- The device's buddy state, with contexts as `f` gives them (R610). -/
def buddyBytes (s : State) (f : Nat → Ctx) : Nat :=
  4096 + ((created s).map fun c => ctxBuddyBytes (f c)).sum
    + (s.sluice.blocks.filterMap fun e => e.2.map fun b => bkBuddyBytes b.raw).sum

/-- It fits one slot with `extra` bytes more; the test is not made with RESERVE 0. -/
def buddyFits (s : State) (f : Nat → Ctx) (extra : Nat) : Bool :=
  slotBytes s == 0 || decide (buddyBytes s f + extra ≤ slotBytes s)

/-- Address of entry `n` of a context's update table (R376). -/
def tableAt (s : State) (c n : Nat) : Nat := (getCtx s c).updBase + 128 * n

/-- The table entry and the arrays lie where R376 admits them; the mask is only read. -/
def arraysPlain (s : State) (c n : Nat) (d : List Byte) : Bool :=
  plainRange s c (tableAt s c n) 128 true false true
  && (bkArrays d).all fun a => plainRange s c a.1 a.2 true false (a.1 != bkMask d)

/-- The table entry and the arrays lie where R376 admits them, and meet no array of the block or of another VALID block of the context. -/
def arraysOk (s : State) (c n : Nat) (d : List Byte) : Bool :=
  let as := bkArrays d
  let others := (blocksOf s c).flatMap fun b => bkArrays b.2.raw
  arraysPlain s c n d && noneMeet as && as.all (fun a => !others.any (rangesMeet a))

/-- The derived copy of an initialised block, and the conversions that overflow. -/
def initCopy (s : State) (c : Nat) (d : List Byte) : State × Nat :=
  let f := bkCopyFmt d
  if f = 0 then (s, 0)
  else
    (List.range (bkElems d)).foldl (fun (a : State × Nat) e =>
      let x := elemCopy f .rne (readMaster a.1 c d e)
      (writeArr a.1 c (bkCopy d + copySize f * e) (toLe (copySize f) x.1), if x.2 = .ovf then a.2 + 1 else a.2)) (s, 0)

/-- What a passing BLOCK_INIT writes (R376, R378); the descriptor goes into the update table (log entry 24). -/
def initBlock (s : State) (c n : Nat) (d : List Byte) : State :=
  let s := writeArr s c (tableAt s c n) d
  let s := (List.range 4).foldl (fun s k =>
    if slotUsed d k then writeArr s c (bkSlot d k) (List.replicate (4 * slotElems d k) 0) else s) s
  let s := if bkPrecond d then
      writeRoot (writeRoot s c d false (identMat (bkRows d))) c d true (identMat (bkCols d))
    else s
  let r := initCopy s c d
  let s := writeArr (countOvf r.1 r.2) c (bkStatus d) (List.replicate 64 0)
  setBlock s c n (some { raw := d })

/-- A refused BLOCK_INIT or fault of R395: the bit of SLC_ERR_STATUS. -/
def slcErr (s : State) (bit : Nat) : State := setBit s (oSlc + 4) bit

/-- BLOCK_INIT of a descriptor (R378). -/
def installBlock (s : State) (c n : Nat) (d : List Byte) : State :=
  if (getBlock s c n).isSome || !blockWordsOk d || !arraysOk s c n d then
    slcErr (if arraysPlain s c n d then s else cisRefused s) 2
  else if !buddyFits s (getCtx s) (bkBuddyBytes d) then slcErr s 11
  else if !allBelow (bkElems d) (fun e => tCanonical (readMaster s c d e)) then slcErr s 3
  else initBlock s c n d

end Sys2Proof.Machine
end

