-- ==== Sys2Proof/Machine/Regs.lean ====
section
/-!
DEFINITION. The control register space: access codes, values of the status registers, 64-bit counters and their latches (R9 to R14,
R536, R539, and the register tables of every chapter).
-/

namespace Sys2Proof.Machine

/-- Access codes of fields that a write can change (R9); a field that is none of these is RO. -/
inductive Access where
  | rw | lk | w1c | wo
  deriving DecidableEq, Repr

/-- A field with its access code and the range of values that its table does not declare reserved. -/
structure Field where
  hi : Nat
  lo : Nat
  acc : Access
  least : Nat := 0
  most : Nat := 0xFFFFFFFF
  deriving DecidableEq, Repr

/-! The fields of each block by offset within the block. -/

/-- CFG_ (chapters 12, 14 and 17). -/
def cfgFields (o : Nat) : List Field :=
  if o = 0x104 then [⟨7, 0, .w1c, 0, 255⟩]
  else if o = 0x10C then [⟨6, 0, .lk, 1, 120⟩, ⟨25, 16, .lk, 10, 1000⟩]
  else []

/-- SEC_ (chapter 14); the window is a store of bytes of its own. -/
def secFields (o : Nat) : List Field :=
  if o = 0x004 then [⟨2, 0, .wo, 0, 7⟩, ⟨3, 3, .wo, 0, 1⟩]
  else if o = 0x008 then [⟨13, 0, .rw, 0, 0x3FFF⟩]
  else if 0x1000 ≤ o && o < 0x2000 then [⟨31, 0, .wo, 0, 0xFFFFFFFF⟩]
  else []

/-- PWR_ (chapter 13). -/
def pwrFields (o : Nat) : List Field :=
  if o = 0x008 then [⟨14, 0, .w1c, 0, 0x7FFF⟩]
  else if o = 0x00C then [⟨10, 0, .rw, 0, 0x7FF⟩]
  else if o = 0x010 then [⟨13, 0, .lk, 10, 10000⟩]
  else if o = 0x014 then [⟨2, 0, .lk, 0, 7⟩, ⟨5, 3, .lk, 0, 7⟩, ⟨8, 6, .lk, 0, 7⟩, ⟨15, 9, .lk, 70, 105⟩, ⟨22, 16, .lk, 70, 95⟩]
  else if 0x020 ≤ o && o < 0x03C then [⟨15, 0, .lk, 0, fusedLimit ((o - 0x020) / 4) / 100⟩, ⟨21, 16, .lk, 1, 50⟩]
  else if o = 0x040 then [⟨6, 0, .lk, 20, 80⟩]
  else if o = 0x044 then [⟨11, 0, .lk, 1, 3600⟩]
  else []

/-- LDG_ (chapter 16). -/
def ldgFields (o : Nat) : List Field :=
  if o = 0x004 then [⟨3, 0, .w1c, 0, 15⟩]
  else if o = 0x010 then [⟨11, 0, .rw, 0, 0xFFF⟩]
  else if o = 0x020 then [⟨11, 0, .rw, 0, 0xFFF⟩]
  else if o = 0x024 then [⟨9, 0, .lk, 1, 1000⟩]
  else []

/-- HIF_ of a port (chapter 15). -/
def hifFields (o : Nat) : List Field :=
  if o = 0x004 then [⟨6, 0, .w1c, 0, 127⟩]
  else if o = 0x008 then [⟨9, 0, .lk, 1, 600⟩]
  else if 0x100 ≤ o && o < 0x140 then [⟨31, 0, .rw, 0, 0xFFFFFFFF⟩]
  else if o = 0x140 then [⟨0, 0, .wo, 0, 1⟩]
  else if 0x200 ≤ o && o < 0x400 then
    (if o % 8 = 0 then [⟨12, 0, .rw, 0, 0x1FFF⟩] else [⟨17, 0, .rw, 0, 0x3FFFF⟩])
  else []

/-- JET_ (chapter 02). -/
def jetFields (o : Nat) : List Field :=
  if o = 0x040 then [⟨11, 0, .rw, 0, 0xFFF⟩]
  else if o = 0x048 then [⟨9, 0, .lk, 1, 600⟩]
  else if o = 0x050 then [⟨6, 0, .w1c, 0, 127⟩]
  else []

def runFields (o : Nat) : List Field := if o = 0 then [⟨3, 0, .w1c, 0, 15⟩] else []

/-- BSN_ of a basin (chapter 05). -/
def bsnFields (o : Nat) : List Field :=
  if o = 0x008 then [⟨8, 0, .w1c, 0, 511⟩] else if o = 0x03C then [⟨9, 0, .lk, 1, 600⟩] else []

/-- SPT_ of a spout; the two configuration registers exist in block 0 only (chapter 07). -/
def sptFields (b o : Nat) : List Field :=
  if o = 0x004 then [⟨9, 0, .w1c, 0, 1023⟩]
  else if b = 0 && o = 0x008 then [⟨9, 0, .lk, 1, 512⟩, ⟨25, 16, .lk, 1, 1023⟩]
  else if b = 0 && o = 0x00C then [⟨10, 0, .lk, 1, 1024⟩]
  else []

/-- CIS_, HBM_ and WEIR_ (chapter 09). -/
def cisFields (o : Nat) : List Field := if o = 0x100 then [⟨2, 0, .w1c, 0, 7⟩] else []

def hbmFields (o : Nat) : List Field :=
  if o = 0x020 then [⟨0, 0, .lk, 0, 1⟩]
  else if o = 0x024 then [⟨4, 0, .lk, 1, 24⟩]
  else if o = 0x028 then [⟨15, 0, .lk, 1, 65535⟩]
  else if o = 0x030 then [⟨5, 0, .w1c, 0, 63⟩]
  else []

def weirFields (o : Nat) : List Field :=
  if o = 0 then [⟨11, 0, .w1c, 0, 0xFFF⟩] else if o = 4 then [⟨9, 0, .rw, 0, 1023⟩] else []

/-- SLC_ (chapter 10). -/
def slcFields (o : Nat) : List Field :=
  if o = 0x004 then [⟨13, 0, .w1c, 0, 0x3FFF⟩]
  else if o = 0x008 then [⟨7, 0, .lk, 1, 255⟩, ⟨17, 8, .lk, 1, 1000⟩, ⟨21, 18, .lk, 0, 8⟩]
  else []

/-- NL_ (chapter 11). -/
def nlFields (o : Nat) : List Field :=
  if o < 0x800 then (if o % 0x40 = 0x10 then [⟨5, 0, .w1c, 0, 63⟩] else [])
  else if o = 0x808 then [⟨9, 0, .lk, 1, 600⟩]
  else if o = 0x80C then [⟨15, 0, .lk, 1, 65535⟩]
  else if o = 0x810 then [⟨5, 0, .w1c, 0, 63⟩]
  else []

/-- The blocks of R539. -/
inductive RegBlock where
  | cfg | sec | pwr | ldg
  | hif (p : Nat)
  | jet | run
  | bsn (b : Nat)
  | spt (b : Nat)
  | cis | hbm | weir | slc | nl
  deriving DecidableEq, Repr

/-- The block that an offset of the control space lies in, and the offset within it (R539). -/
def blockAt (x : Nat) : Option (RegBlock × Nat) :=
  let o := x % 0x10000
  match x / 0x10000 with
  | 0x00 => some (.cfg, o)
  | 0x01 => some (.sec, o)
  | 0x02 => some (.pwr, o)
  | 0x03 => some (.ldg, o)
  | 0x10 => some (.hif 0, o)
  | 0x11 => some (.hif 1, o)
  | 0x12 => some (.hif 2, o)
  | 0x13 => some (.hif 3, o)
  | 0x20 => some (.jet, o)
  | 0x21 => some (.run, o)
  | 0x30 => if o / 0x1000 < 6 then some (.bsn (o / 0x1000), o % 0x1000) else none
  | 0x31 => if o / 0x1000 < 6 then some (.spt (o / 0x1000), o % 0x1000) else none
  | 0x40 => some (.cis, o)
  | 0x41 => some (.hbm, o)
  | 0x42 => some (.weir, o)
  | 0x43 => some (.slc, o)
  | 0x50 => some (.nl, o)
  | _ => none

/-- The fields of the register at an offset of the control space that a write can change. -/
def fieldsAt (x : Nat) : List Field :=
  match blockAt x with
  | none => []
  | some (.cfg, o) => cfgFields o
  | some (.sec, o) => secFields o
  | some (.pwr, o) => pwrFields o
  | some (.ldg, o) => ldgFields o
  | some (.hif _, o) => hifFields o
  | some (.jet, o) => jetFields o
  | some (.run, o) => runFields o
  | some (.bsn _, o) => bsnFields o
  | some (.spt b, o) => sptFields b o
  | some (.cis, o) => cisFields o
  | some (.hbm, o) => hbmFields o
  | some (.weir, o) => weirFields o
  | some (.slc, o) => slcFields o
  | some (.nl, o) => nlFields o

def Field.mask (f : Field) : Nat := (2 ^ (f.hi + 1 - f.lo) - 1) * 2 ^ f.lo

/-- A value lies within a field's stated range. -/
def Field.admits (f : Field) (v : Nat) : Bool := decide (f.least ≤ bits v f.hi f.lo) && decide (bits v f.hi f.lo ≤ f.most)

/-! Writes (R9, R10). -/

/-- Replaces the bits of a mask by those of a value. -/
def putMask (old v mask : Nat) : Nat := (old &&& (0xFFFFFFFF ^^^ mask)) ||| (v &&& mask)

/-- Whether a write of an LK field is taken; a value that the field's table declares reserved is not (R14, log entry 34). -/
def takesField (s : State) (f : Field) (v : Nat) : Bool :=
  match f.acc with
  | .rw => f.admits v
  | .lk => !s.boot.locked && f.admits v
  | .w1c => true
  | .wo => false

def writeField (s : State) (x v : Nat) (f : Field) : State :=
  if !takesField s f v then s
  else if f.acc == .w1c then clearBits s x (v &&& f.mask)
  else setReg s x (putMask (regOf s x) v f.mask)

/-- The stored effect of a 32-bit write: each field by its access code. -/
def plainWrite (s : State) (x v : Nat) : State := (fieldsAt x).foldl (fun s f => writeField s x v f) s

/-! Reads: the values of the status registers. -/

def leaseBits (l : Option Nat) : Nat :=
  match l with
  | some c => c % 1024 + 2 ^ 10
  | none => 0

def bankBits (b : BankState) : Nat :=
  match b with
  | .empty => 0
  | .loading => 1
  | .ready => 2

def bstateBits (b : BState) : Nat :=
  match b with
  | .rom => 0
  | .fetch => 1
  | .verify => 2
  | .apply => 3
  | .locked => 4
  | .failed => 5

def ustateBits (u : UState) : Nat :=
  match u with
  | .idle => 0
  | .opened => 1
  | .busy => 2
  | .done => 3
  | .failed => 4

def hstateBits (h : HState) : Nat :=
  match h with
  | .normal => 0
  | .quiesce => 1
  | .repair => 2
  | .rejoin => 3
  | .agree => 4
  | .restore => 5
  | .resume => 6
  | .contained => 7

def pstateBits (p : PState) : Nat :=
  match p with
  | .disabled => 0
  | .training => 1
  | .discovery => 2
  | .active => 3
  | .inert => 4
  | .held => 5
  | .down => 6

def cstateBits (c : CtxState) : Nat :=
  match c with
  | .free => 0
  | .ready => 1
  | .running => 2
  | .suspended => 3
  | .halted => 4

/-- ALERT# is driven low (R592). -/
def alertDriven (s : State) : Bool :=
  s.boot.locked && bitB s.boot.pins 0 &&
  (bits (regOf s (oCfg + 0x104)) 3 1 != 0
   || !allBelow 32 (fun p => (getLink s p).st != .inert && (getLink s p).st != .held)
   || bitB s.power.active 8)

/-- FAULT# is driven low (R448, R466, R517): in containment. -/
def faultDriven (s : State) : Bool := s.boot.locked && bitB s.boot.pins 1 && s.recov.fault

/-- CFG_RECIPE.OVERLAYS. -/
def overlayBits (l : List Nat) : Nat :=
  ((List.range 4).map fun i => (l.getD i 0xF) % 16 * 16 ^ i).sum

/-- CFG_ status registers. -/
def cfgStatus (s : State) (o : Nat) : Nat :=
  let b := s.boot
  let r := s.recov
  if o = 0x000 then
    bstateBits b.st + 2 ^ 3 * (b.slot % 2) + 2 ^ 4 * b2n b.fallback + 2 ^ 5 * b2n b.locked + 2 ^ 6 * (b.chassis % 4)
      + 2 ^ 8 * b2n b.conform + 2 ^ 9 * b2n b.planMode
  else if o = 0x004 then b.codeA % 256 + 2 ^ 8 * (b.codeB % 256) + 2 ^ 16 * (b.planCode % 8)
  else if o = 0x008 then b.recipe % 16 + 2 ^ 4 * (b.overlays.length % 8) + 2 ^ 8 * overlayBits b.overlays
  else if o = 0x00C then b.imageSeq
  else if o = 0x010 then
    (if b.locked then b.pins % 8 else 0) + 2 ^ 3 * b2n (alertDriven s) + 2 ^ 4 * b2n (faultDriven s)
      + 2 ^ 5 * b2n b.brakeLevel + 2 ^ 6 * (b.ovlSel % 16) + 2 ^ 10 * (b.perst % 16)
  else if o = 0x100 then
    hstateBits r.st + 2 ^ 3 * r.sev + 2 ^ 6 * r.queue.length + 2 ^ 11 * (r.restarts % 4) + 2 ^ 13 * b2n r.failed
      + 2 ^ 14 * b2n (faultDriven s)
  else if o = 0x108 then regOf s (oCfg + 0x108)
  else if o = 0x110 then r.epoch
  else 0

/-- SEC_ status registers. -/
def secStatus (s : State) (o : Nat) : Nat :=
  let b := s.boot
  if o = 0x000 then
    b.fwFused % 64 + 2 ^ 8 * (b.cfgFused % 64) + 2 ^ 14 * b2n b.udsLatched + 2 ^ 15 * b2n b.aliasValid
  else if o = 0x00C then ustateBits b.upd + 2 ^ 3 * (b.updSlot % 2) + 2 ^ 4 * (b.updCode % 256)
  else 0

/-- PWR_ status registers and fields. -/
def pwrStatus (s : State) (o : Nat) : Nat :=
  let p := s.power
  if o = 0x000 then
    p.op % 8 + 2 ^ 3 * (targetOp s % 8) + 2 ^ 6 * b2n p.ramping + 2 ^ 7 * b2n (frozenCmd s) + 2 ^ 8 * (p.govCap % 8)
      + 2 ^ 11 * (p.govTherm % 8) + 2 ^ 14 * b2n (!s.boot.inReset && (guardOp0 s || anyStale s)) + 2 ^ 15 * b2n p.brakeOn
      + 2 ^ 16 * (betaMax s % 64)
  else if o = 0x004 then p.active % 2 ^ 14
  else if o = 0x010 then regOf s (oPwr + 0x10)
  else if 0x020 ≤ o && o < 0x03C then regOf s (oPwr + o) % 2 ^ 22 + 2 ^ 22 * b2n (isStale s ((o - 0x020) / 4))
  else if o = 0x040 then
    regOf s (oPwr + 0x40) % 2 ^ 7 + 2 ^ 7 * ((List.range 14).map fun n => b2n (getZone s n).inDroop * 2 ^ n).sum
  else if o = 0x050 then p.inputMean % 65536
  else regOf s (oPwr + o)

/-- LDG_ status registers. -/
def ldgStatus (s : State) (o : Nat) : Nat :=
  let l := s.ledger
  if o = 0x000 then b2n l.ready + 2 * b2n l.flushing + 4 * (l.image % 2) + 8 * b2n l.dieFault
  else if o = 0x008 then l.opsec
  else if o = 0x00C then l.cycles % 2 ^ 24
  else if o = 0x024 then rateLimit s (regOf s (oLdg + 0x20) % 4096)
  else if 0x100 ≤ o && o < 0x180 then leAt l.latch (o - 0x100) 4
  else regOf s (oLdg + o)

/-- HIF_ status registers of a port. -/
def hifStatus (s : State) (p o : Nat) : Nat :=
  let q := getPort s p
  if o = 0x000 then
    b2n q.linkUp + 2 * (q.width % 4) + 2 ^ 3 * (q.speed % 4) + 2 ^ 5 * b2n q.platform + 2 ^ 6 * (q.ctxFirst % 1024)
      + 2 ^ 16 * (q.ctxCount % 2048)
  else if o = 0x144 then b2n q.busy + 2 * (q.code % 8)
  else regOf s (oHif p + o)

/-- JET_ status registers. -/
def jetStatus (s : State) (o : Nat) : Nat :=
  if o < 0x020 then
    let t := getTerrace s (o / 4)
    leaseBits t.lease + 2 ^ 11 * b2n t.stopped + 2 ^ 12 * (t.sparesUsed % 16)
  else if o = 0x044 then
    let j := physJet s (regOf s (oJet + 0x40) % 4096)
    j + 2 ^ 13 * b2n (decide (512 ≤ j % 520))
  else regOf s (oJet + o)

/-- BSN_ status registers. -/
def bsnStatus (s : State) (b o : Nat) : Nat :=
  let x := getBasin s b
  if o = 0x000 then
    leaseBits x.lease + 2 ^ 11 * b2n (!x.array.isEmpty) + 2 ^ 12 * b2n (x.stopped || x.subst) + 2 ^ 13 * b2n x.halted
      + 2 ^ 14 * bankBits x.bank0.st + 2 ^ 16 * bankBits x.bank1.st + 2 ^ 18 * (x.front % 2) + 2 ^ 19 * (x.sel % 2)
  else if o = 0x004 then
    x.queue.length % 64 + 2 ^ 8 * (x.lastStatus % 16)
      + 2 ^ 12 * ((List.range 4).map fun g => b2n (SMap.get {} x.groups g).opened * 2 ^ g).sum
  else if o = 0x00C then x.lastSeq.toNat
  else if 0x020 ≤ o && o < 0x030 then (SMap.get 0 x.comp ((o - 0x020) / 4)).toNat
  else if o = 0x030 then x.rowsRetired.length % 16 + 2 ^ 4 * (x.colsRetired.length % 16)
  else if o = 0x034 then x.bank0.crc.toNat
  else if o = 0x038 then x.bank1.crc.toNat
  else if o = 0x040 then x.feedSources % 8
  else regOf s (oBsn b + o)

/-- A row of a column group has not completed phase 1. -/
def inPhase1 (g : ColGroup) : Bool := (List.range g.rows).any fun r => decide (SMap.get 0 g.segsIn r < g.count)

/-- SPT_ status registers. -/
def sptStatus (s : State) (b o : Nat) : Nat :=
  let x := getSpout s b
  if o = 0x000 then
    let held (n : Nat) : Bool := x.groups.any fun g => g.store == n && holdsStore x g
    let opened := x.groups.filter inPhase1
    b2n (held 0) + 2 * b2n (held 1) + 4 * ((opened.map (·.next)).foldl Nat.max 0 % 512) + 2 ^ 11 * b2n (!opened.isEmpty)
      + 2 ^ 12 * b2n (x.groups.any fun g => !g.topk.isEmpty)
  else if b = 0 || o = 0x004 then regOf s (oSpt b + o)
  else 0

/-- CIS_ status registers; slices 58 to 63 are the journals. -/
def cisStatus (s : State) (o : Nat) : Nat :=
  if o < 0x100 then
    let n := o / 4
    let z := getSlice s n
    if 58 ≤ n then 2 ^ 12 else leaseBits z.lease + 2 ^ 11 * b2n z.cache
  else regOf s (oCis + o)

/-- HBM_ status registers. -/
def hbmStatus (s : State) (o : Nat) : Nat :=
  if o < 0x020 then
    let k := getStack s (o / 4)
    let pc := (k.retiredPc.map fun p => p % 32).getD 0
    k.temp % 256 + 2 ^ 8 * b2n k.tcrHigh + 2 ^ 9 * pc + 2 ^ 14 * b2n (k.retiredPc.isSome && !k.migrating)
      + 2 ^ 15 * b2n k.migrating
  else if o = 0x034 then s.mem.migrateLines % 2 ^ 25 + 2 ^ 25 * (s.mem.migrateStack % 8)
  else regOf s (oHbm + o)

/-- WEIR_ status registers. -/
def weirStatus (s : State) (o : Nat) : Nat :=
  let g := SMap.get none s.mem.regions (regOf s (oWeir + 4) % 1024)
  if o = 0x008 then
    match g with
    | some g => g.ctx % 1024 + 2 ^ 10 + 2 ^ 11 * b2n g.complete + 2 ^ 12 * (rgMode g.raw % 4)
    | none => 0
  else if o = 0x00C then (g.map fun g => g.done % 2 ^ 32).getD 0
  else regOf s (oWeir + o)

/-- SLC_ status registers; a commit applies within one command (log entry 35). -/
def slcStatus (s : State) (o : Nat) : Nat :=
  let x := s.sluice
  if o = 0x000 then
    2 * b2n x.buddy.isSome + 4 * b2n (!x.snaps.isEmpty)
      + 8 * b2n ((created s).any fun c => (getCtx s c).windowOpen) + 16 * (x.roots.length % 65536)
  else if o = 0x00C then b2n x.slot0Valid + 2 * b2n x.slot1Valid + 4 * (x.nextSlot % 2)
  else regOf s (oSlc + o)

/-- A port is missing (R430). -/
def portMissing (s : State) (p : Nat) : Bool :=
  let st := (getLink s p).st
  st == .held || st == .inert || st == .down

/-- NL_ status registers. -/
def nlStatus (s : State) (o : Nat) : Nat :=
  let p := o / 0x40
  let x := getLink s p
  if o < 0x800 then
    if o % 0x40 = 0 then
      pstateBits x.st + 2 ^ 3 * b2n x.half + 2 ^ 4 * (x.reason % 16) + 2 ^ 8 * b2n x.remapped + 2 ^ 9 * (x.planPort % 32)
        + 2 ^ 14 * b2n x.minorDown
    else if o % 0x40 = 4 then x.nbrDev % 2 ^ 15 + 2 ^ 16 * (x.nbrPort % 32)
    else regOf s (oNl + o)
  else if o = 0x800 then s.links.devId % 2 ^ 15 + 2 ^ 15 * b2n s.links.drafted
  else if o = 0x804 then
    b2n (fabricReady s) + 2 * b2n s.links.planLoaded + 2 ^ 8 * (portsIn s .active).length
      + 2 ^ 16 * ((List.range 32).filter (portMissing s)).length
  else if 0x820 ≤ o && o < 0x830 then leAt s.links.planHash (o - 0x820) 4
  else regOf s (oNl + o)

/-- The 32-bit value at an offset of the control space that is no word of a counter. -/
def statusAt (s : State) (x : Nat) : Nat :=
  match blockAt x with
  | none => 0
  | some (.cfg, o) => if cfgFields o ≠ [] then regOf s x else cfgStatus s o
  | some (.sec, o) => if o = 0x008 then regOf s x else secStatus s o
  | some (.pwr, o) => pwrStatus s o
  | some (.ldg, o) => ldgStatus s o
  | some (.hif p, o) => hifStatus s p o
  | some (.jet, o) => jetStatus s o
  | some (.run, _) => regOf s x
  | some (.bsn b, o) => bsnStatus s b o
  | some (.spt b, o) => sptStatus s b o
  | some (.cis, o) => cisStatus s o
  | some (.hbm, o) => hbmStatus s o
  | some (.weir, o) => weirStatus s o
  | some (.slc, o) => slcStatus s o
  | some (.nl, o) => nlStatus s o

/-! 64-bit counters (R13). -/

/-- The low word of a counter pair at an offset within a block. -/
def pairLow (u : RegBlock) (o : Nat) : Bool :=
  match u with
  | .cfg => o == 0x118 || o == 0x120 || o == 0x128 || o == 0x130 || o == 0x138 || o == 0x140
  | .pwr => o == 0x058 || o == 0x060 || o == 0x068 || o == 0x070 || (o % 8 == 0 && decide (0x100 ≤ o) && decide (o < 0x170))
  | .ldg => o == 0x030
  | .jet => o == 0x058
  | .run => o == 0x008 || o == 0x010 || o == 0x018 || o == 0x020
  | .bsn _ => o == 0x010 || (o % 8 == 0 && decide (0x048 ≤ o) && decide (o ≤ 0x068))
  | .spt _ => o % 8 == 0 && decide (0x010 ≤ o) && decide (o ≤ 0x040)
  | .cis => o == 0x108 || o == 0x110 || o == 0x118
  | .hbm => o == 0x040 || o == 0x048 || o == 0x050 || o == 0x058
  | .weir => o == 0x010 || o == 0x018
  | .slc => o == 0x010 || o == 0x018 || (o % 8 == 0 && decide (0x020 ≤ o) && decide (o ≤ 0x068))
  | .nl => o == 0x830 ||
    (decide (o < 0x800) && (o % 0x40 == 0x08 || o % 0x40 == 0x18 || o % 0x40 == 0x20 || o % 0x40 == 0x28
                            || o % 0x40 == 0x30 || o % 0x40 == 0x38))
  | _ => false

/-- The value of a counter pair whose low word lies at an offset. -/
def pairValue (s : State) (u : RegBlock) (o x : Nat) : Nat :=
  match u with
  | .ldg => s.ledger.flushes
  | .bsn b => if o = 0x010 then (getBasin s b).cursor.toNat else counterOf s x
  | .slc => if o = 0x010 then s.sluice.slot0Step else if o = 0x018 then s.sluice.slot1Step else counterOf s x
  | .nl => if o < 0x800 && o % 0x40 = 8 then (getLink s (o / 0x40)).serial else counterOf s x
  | _ => counterOf s x

def latchKey (req x : Nat) : Nat := req * 2 ^ 32 + x

/-- A read of the low word of a pair: the requester's latch takes the high word. -/
def readLow (s : State) (req x v : Nat) : Nat × State :=
  (v % 2 ^ 32, { s with host := { s.host with
    latches := SMap.put none s.host.latches (latchKey req x) (some (BitVec.ofNat 32 (v / 2 ^ 32))) } })

/-- A read of the high word of a pair: the latched word, once; with nothing latched, the present one (log entry 36). -/
def readHigh (s : State) (req x v : Nat) : Nat × State :=
  match SMap.get none s.host.latches (latchKey req x) with
  | some h => (h.toNat, { s with host := { s.host with latches := SMap.put none s.host.latches (latchKey req x) none } })
  | none => (v / 2 ^ 32 % 2 ^ 32, s)

/-- One 32-bit read of the control space by a requester. -/
def readCtl (s : State) (req x : Nat) : Nat × State :=
  match blockAt x with
  | none => (0, s)
  | some (u, o) =>
    if pairLow u o then readLow s req x (pairValue s u o x)
    else if 4 ≤ o && pairLow u (o - 4) then readHigh s req (x - 4) (pairValue s u (o - 4) (x - 4))
    else (statusAt s x % 2 ^ 32, s)

/-! Context pages (BAR2). -/

/-- Offset of BAR2 among the addresses of a port's register accesses. -/
def bar2 : Nat := 0x4000000

/-- The value of a context page's pair whose low word lies at an offset. -/
def ctxPair (x : Ctx) (o : Nat) : Option Nat :=
  if o = 0x080 then some x.energy.toNat
  else if o = 0x088 then some x.step.toNat
  else if o = 0x098 then some x.rollbackStep.toNat
  else none

/-- The 32-bit register of a context page. -/
def ctxReg (x : Ctx) (o : Nat) : Nat :=
  if o = 0x000 then cstateBits x.st + 2 ^ 3 * (x.haltReason % 8) + 2 ^ 6 * b2n x.saved
  else if o = 0x004 then x.tail.toNat
  else if o = 0x008 then x.head.toNat
  else if o = 0x00C then x.evqHead.toNat
  else if o = 0x010 then x.evqTail.toNat
  else if o = 0x014 then x.evqLost.toNat
  else if 0x040 ≤ o && o < 0x080 then (SMap.get (0 : Reg) x.counters ((o - 0x040) / 4)).toNat
  else if o = 0x090 then x.outcome % 4 + 4 * b2n x.outcomeValid
  else 0

def readPage (s : State) (req c o a : Nat) : Nat × State :=
  let x := getCtx s c
  match ctxPair x o with
  | some v => readLow s req a v
  | none =>
    match (if 4 ≤ o then ctxPair x (o - 4) else none) with
    | some v => readHigh s req (a - 4) v
    | none => (ctxReg x o, s)

/-- A context belongs to a port (R533). -/
def ownCtx (s : State) (p c : Nat) : Bool := portOf s c == some p

/-- Whether a register of BAR0 responds to a requester (R536). -/
def responds (s : State) (port x : Nat) : Bool :=
  platformView s port || (decide (port < 4) && (getPort s port).created && x / 0x10000 == 0x10 + port)

/-- One 32-bit read by a port (0 to 3) or the I3C target (4): BAR0 below 64 MiB, BAR2 above (R536, log entry 37). -/
def readWord (s : State) (port a : Nat) : Nat × State :=
  if a < bar2 then (if responds s port a then readCtl s port a else (0, s))
  else
    let c := (a - bar2) / 0x10000
    if c < 1024 && ownCtx s port c then readPage s port c ((a - bar2) % 0x10000) a else (0, s)

/-- The transaction is one of R12. -/
def wellSized (a size : Nat) : Bool := (size == 4 || size == 8) && a % size == 0

/-- A read of a register (R12, R13): the bytes that it returns. -/
def readAccess (s : State) (port a size : Nat) : List Byte × State :=
  if !wellSized a size then (List.replicate size 0, s)
  else if size = 4 then
    let r := readWord s port a
    (toLe 4 r.1, r.2)
  else
    let r := readWord s port a
    let q := readWord r.2 port (a + 4)
    (toLe 4 r.1 ++ toLe 4 q.1, q.2)

end Sys2Proof.Machine
end

