-- ==== Sys2Proof/Machine/Image.lean ====
section
/-!
DEFINITION. Falindon images: the NOR, the header, sections and their checks, configuration records and recipes, the position record and
the plan (R505 to R521, R526).
-/

namespace Sys2Proof.Machine

/-! The NOR (R507, R508). -/

/-- A byte of the NOR; an erased one reads 0xFF (R509). -/
def norByte (s : State) (a : Nat) : Byte := SMap.get 0xFF s.boot.nor a

def readNor (s : State) (a n : Nat) : List Byte := (List.range n).map fun i => norByte s (a + i)

/-- The densities of R507; another one makes the NOR absent. -/
def norPresent (s : State) : Bool := s.boot.norMbit == 512 || s.boot.norMbit == 1024

/-- Bytes of a slot, and its first byte (R508). -/
def slotLen (s : State) : Nat := (if s.boot.norMbit = 512 then 31 else 63) * 2 ^ 20
def norSlot (s : State) (k : Nat) : Nat := 2 ^ 20 + k * slotLen s

/-- Bytes of a slot's image. -/
def imgBytes (s : State) (k off n : Nat) : List Byte := readNor s (norSlot s k + off) n

/-- MARKER is committed (R509). -/
def committed (s : State) (k : Nat) : Bool := (imgBytes s k 4088 8).all (· == 0x5A)

def slotSeq (s : State) (k : Nat) : Nat := leNat (imgBytes s k 8 4)

/-! The header (R509, R510). -/

/-- An entry of the header. -/
structure Sect where
  kind : Nat
  index : Nat
  off : Nat
  len : Nat
  raw : List Byte
  deriving DecidableEq, Repr

def sectOf (e : List Byte) : Sect :=
  { kind := leAt e 0 1, index := leAt e 1 1, off := leAt e 4 4, len := leAt e 8 4, raw := e }

def Sect.digest (e : Sect) : List Byte := slice e.raw 64 64

def hdrCount (h : List Byte) : Nat := leAt h 6 2

def sectsOf (h : List Byte) : List Sect := (List.range (hdrCount h)).map fun i => sectOf (slice h (16 + 128 * i) 128)

def zeros (d : List Byte) : Bool := d.all (· == 0)

/-- Largest length of a section kind; none for a reserved kind (R510). -/
def sectMax (s : State) (kind : Nat) : Option Nat :=
  match kind with
  | 1 => some (4 * 2 ^ 20)
  | 2 => some (8 * 2 ^ 20)
  | 3 => some (256 * 2 ^ 10)
  | 4 => some ((if s.boot.norMbit = 512 then 14 else 46) * 2 ^ 20)
  | 5 => some (64 * 2 ^ 10)
  | _ => none

def sectOk (s : State) (e : Sect) : Bool :=
  (match sectMax s e.kind with
   | some m => decide (e.len ≤ m)
   | none => false)
  && decide (e.index ≤ (if e.kind = 3 then 14 else 0)) && e.off % 4096 == 0 && decide (4096 ≤ e.off)
  && decide (e.off + e.len ≤ slotLen s) && zeros (slice e.raw 2 2) && zeros (slice e.raw 12 52)

def sectsApart : List Sect → Bool
  | [] => true
  | e :: es => es.all (fun f => (e.kind != f.kind || e.index != f.index) &&
      (decide (e.off + e.len ≤ f.off) || decide (f.off + f.len ≤ e.off) || e.len == 0 || f.len == 0)) && sectsApart es

/-- The header is well formed (R509, R510). -/
def headerGood (s : State) (h : List Byte) : Bool :=
  let n := hdrCount h
  let es := sectsOf h
  let has (k : Nat) : Bool := es.any fun e => e.kind == k
  leAt h 0 4 == 0x4E4C4146 && leAt h 4 2 == 1 && decide (4 ≤ n) && decide (n ≤ 19)
  && decide (leAt h 12 1 ≤ 63) && decide (leAt h 13 1 ≤ 63) && zeros (slice h 14 2)
  && zeros (slice h (16 + 128 * n) (2560 - 128 * n)) && zeros (slice h 2840 1248)
  && es.all (sectOk s) && sectsApart es && has 1 && has 2 && has 3 && has 5

/-! Checks of an image (R511, R526). -/

def cOk : Nat := 0x00
def cNorAbsent : Nat := 0x01
def cNotCommitted : Nat := 0x02
def cHeaderBad : Nat := 0x03
def cCertBad : Nat := 0x04
def cSigBad : Nat := 0x05
def cDigestBad : Nat := 0x06
def cSvnLow : Nat := 0x07
def cRecordBad : Nat := 0x08
def cRecipeBad : Nat := 0x09
def cHbmTrain : Nat := 0x0A
def cNotTried : Nat := 0x0B

def sectBytes (s : State) (k : Nat) (e : Sect) : List Byte := imgBytes s k e.off e.len

/-- A section's bytes, when they match its digest. -/
def sectRead (s : State) (k : Nat) (e : Sect) : Option (List Byte) :=
  let d := sectBytes s k e
  if Config.sha512 d = e.digest then some d else none

def findSect (es : List Sect) (kind index : Nat) : Option Sect := es.find? fun e => e.kind == kind && e.index == index

/-- The digest that FW_SIG covers, and the one that CFG_SIG covers (R509). -/
def fwDigest (h : List Byte) (es : List Sect) : List Byte :=
  Config.sha512 (slice h 0 16 ++ ((es.filter fun e => e.kind == 1).map (·.raw)).flatten)
def cfgDigest (h : List Byte) (es : List Sect) : List Byte :=
  Config.sha512 (slice h 0 16 ++ ((es.filter fun e => e.kind != 1 && e.kind != 5).map (·.raw)).flatten)

/-- The code of the header and CERTS of a slot, MARKER apart (R511); in the order of R526 (log entry 38). -/
def checkHeader (s : State) (k : Nat) : Nat :=
  let h := imgBytes s k 0 4096
  let es := sectsOf h
  if !headerGood s h then cHeaderBad
  else match (findSect es 5 0).bind (sectRead s k) with
  | none => cDigestBad
  | some certs =>
    match Config.certKeys certs with
    | none => cCertBad
    | some (root, fw, owner) =>
      if Config.sha512 root ≠ Config.rootHash then cCertBad
      else if !Config.ecdsaVerify (slice h 2576 132) (fwDigest h es) fw then cSigBad
      else if !Config.ecdsaVerify (slice h 2708 132) (cfgDigest h es) owner then cSigBad
      else if leAt h 12 1 < s.boot.fwFused || leAt h 13 1 < s.boot.cfgFused then cSvnLow
      else cOk

/-- The code of every section of a slot, as FINISH checks them (R528). -/
def checkSections (s : State) (k : Nat) : Nat :=
  if (sectsOf (imgBytes s k 0 4096)).all fun e => (sectRead s k e).isSome then cOk else cDigestBad

/-! Configuration records (R512, R513). -/

/-- A record: its type and payload. -/
abbrev Rec := Nat × List Byte

/-- The records of a section; none when its framing is malformed. -/
def recordsOf : Nat → List Byte → Option (List Rec)
  | _, [] => some []
  | 0, _ :: _ => none
  | n + 1, b :: bs =>
    let d := b :: bs
    let len := leAt d 4 4
    if d.length < 8 || leAt d 2 2 ≠ 0 || len % 8 ≠ 0 || d.length < 8 + len then none
    else (recordsOf n (d.drop (8 + len))).map fun r => (leAt d 0 2, slice d 8 len) :: r

/-- Fields that only a class record sets: REG values of them are ignored (R513, R530). -/
def classFields (x : Nat) (f : Field) : Bool := x == oPwr + 0x14 && decide (6 ≤ f.lo)

/-- The bits of a register that its table does not mark reserved: its writable fields and the read-only ones beside them. -/
def knownBits (x : Nat) : Nat :=
  let ro := if x = oPwr + 0x10 then 0x1FFC000
    else if oPwr + 0x20 ≤ x && x < oPwr + 0x3C then 2 ^ 22
    else if x = oPwr + 0x40 then 0x1FFF80
    else 0
  (fieldsAt x).foldl (fun m f => m ||| f.mask) ro

/-- A REG pair is well formed (R513; reserved bits: log entry 39). -/
def pairGood (x v : Nat) : Bool :=
  let fs := (fieldsAt x).filter fun f => f.acc == .lk || f.acc == .rw
  !fs.isEmpty && x % 4 == 0 && onlyBits v (knownBits x) && fs.all fun f => classFields x f || f.admits v

def pairsOf (d : List Byte) : List (Nat × Nat) :=
  (List.range (d.length / 8)).map fun i => (leAt d (8 * i) 4, leAt d (8 * i + 4) 4)

/-- Whether the ranges [a, a + n) and [b, b + m) overlap. -/
def overlaps (a n b m : Nat) : Bool := decide (0 < n) && decide (0 < m) && decide (a < b + m) && decide (b < a + n)

/-- Number of ports of a BIFURCATION (R533); 0 for a reserved value. -/
def splitPorts (b : Nat) : Nat := if b = 0 then 1 else if b = 1 then 2 else if b = 2 then 4 else 0

def splitEntry (d : List Byte) (p : Nat) : List Byte := slice d (8 + 32 * p) 32

/-- Two entries that share a context, a frame or a unit (R534). -/
def entriesMeet (a b : List Byte) : Bool :=
  overlaps (leAt a 0 2) (leAt a 2 2) (leAt b 0 2) (leAt b 2 2)
  || overlaps (leAt a 16 4) (leAt a 20 4) (leAt b 16 4) (leAt b 20 4)
  || leAt a 4 1 &&& leAt b 4 1 != 0 || leAt a 5 1 &&& leAt b 5 1 != 0 || leAt a 8 8 &&& leAt b 8 8 != 0

/-- A HOST_SPLIT record under the SPARE and RESERVE of `s` (R533, R534). -/
def splitGood (s : State) (d : List Byte) : Bool :=
  let n := splitPorts (leAt d 0 1)
  let frames := reserveBase s / 2 ^ 21
  d.length == 136 && decide (0 < n) && leAt d 1 1 != 0 && decide (leAt d 1 1 < 2 ^ n) && zeros (slice d 2 6)
  && allBelow 4 (fun p =>
    let e := splitEntry d p
    if n ≤ p then zeros e
    else decide (leAt e 0 2 + leAt e 2 2 ≤ 1024) && decide (leAt e 16 4 + leAt e 20 4 ≤ frames)
      && decide (leAt e 5 1 < 64) && decide (leAt e 8 8 < 2 ^ 58) && zeros (slice e 6 2) && zeros (slice e 24 8))
  && allBelow 4 fun p => allBelow p fun q => !entriesMeet (splitEntry d p) (splitEntry d q)

/-- The default split of R535. -/
def splitDefault (s : State) : List Byte :=
  [0, 1, 0, 0, 0, 0, 0, 0] ++ toLe 2 0 ++ toLe 2 1024 ++ [0xFF, 0x3F, 0, 0] ++ toLe 8 (2 ^ 58 - 1)
    ++ toLe 4 0 ++ toLe 4 (reserveBase s / 2 ^ 21) ++ List.replicate 104 0

/-- A record's payload is well formed (R512, R513, R485, R591). -/
def payloadGood (s : State) (r : Rec) : Bool :=
  let d := r.2
  let b (i : Nat) : Nat := leAt d i 1
  match r.1 with
  | 0x01 => d.length == 128 && allBelow 16 fun n => decide (b (8 * n) ≤ 4) && zeros (slice d (8 * n + 5) 3)
  | 0x02 => (pairsOf d).all fun p => pairGood p.1 p.2
  | 0x03 => d.length == 8 && decide (b 0 < 8) && zeros (d.drop 1)
  | 0x10 => d.length == 8 && decide (1 ≤ b 0) && decide (b 0 ≤ 4) && zeros (d.drop 1)
  | 0x11 => d.length == 8 && decide (b 0 ≤ 2) && b 1 == 0 && decide (600 ≤ leAt d 2 2) && decide (leAt d 2 2 ≤ 1800)
      && decide (b 4 ≤ 7) && decide (70 ≤ b 5) && decide (b 5 ≤ 105) && decide (70 ≤ b 6) && decide (b 6 ≤ 95) && b 7 == 0
  | 0x12 => splitGood s d
  | 0x13 => d.length == 16 && decide (b 0 ≤ 1) && zeros (slice d 1 3) && decide (b 8 ≤ 15) && zeros (d.drop 9)
  | 0x14 => d.length == 8 && decide (b 0 ≤ 1) && zeros (d.drop 1)
  | _ => false

def recCountOf (rs : List Rec) (t : Nat) : Nat := (rs.filter fun r => r.1 == t).length

def recOf (rs : List Rec) (t : Nat) : List Byte := ((rs.find? fun r => r.1 == t).map (·.2)).getD []

/-- Types that BASE may hold, and how often (R512). -/
def baseGood (rs : List Rec) : Bool :=
  recCountOf rs 1 == 1 && [3, 0x12, 0x13, 0x14].all (fun t => decide (recCountOf rs t ≤ 1))
  && rs.all fun r => [1, 2, 3, 0x12, 0x13, 0x14].contains r.1

/-- An overlay: its CLASS record and the one record of that class (R512). -/
def overlayGood (s : State) (rs : List Rec) : Bool :=
  match rs with
  | [c, r] => c.1 == 0x10 && payloadGood s c && r.1 == 0x10 + leAt c.2 0 1 && payloadGood s r
  | _ => false

/-! REG pairs in force (R515). -/

/-- A latch of a ledger slot (R581). -/
def LSlot.bytes (x : LSlot) : List Byte :=
  let b := toLe 4 x.count ++ toLe 4 x.suppressed ++ toLe 8 x.min ++ toLe 8 x.max ++ toLe 8 x.first ++ toLe 8 x.last
    ++ ((List.range 16).map fun i => toLe 4 (x.hist.getD i 0)).flatten ++ slice x.detail 0 12
    ++ toLe 2 (b2n x.used + 2 * b2n x.saturated + 4 * b2n x.damaged) ++ List.replicate 6 0
  b ++ toLe 4 (crc32c b).toNat

def latchSlot (s : State) (code : Nat) : State :=
  { s with ledger := { s.ledger with latch := (SMap.get {} s.ledger.slots (code % 4096)).bytes } }

/-- A write of a register whose effect is more than its stored fields, of the blocks that a configuration reaches (R486, R574, R581). -/
def ctlWrite (s : State) (x v : Nat) : State :=
  if x = oPwr + 0x0C then writeCap s (bits v 10 0)
  else if x = oLdg + 0x10 then latchSlot (plainWrite s x v) (bits v 11 0)
  else if x = oLdg + 0x24 then
    if s.boot.locked || !(1 ≤ bits v 9 0 && bits v 9 0 ≤ 1000) then s
    else
      let code := regOf s (oLdg + 0x20) % 4096
      { s with ledger := { s.ledger with limits := SMap.put 10 s.ledger.limits code (bits v 9 0) } }
  else plainWrite s x v

/-- A REG pair takes effect. -/
def applyPair (s : State) (p : Nat × Nat) : State :=
  if p.1 = oPwr + 0x14 then setReg s p.1 (putMask (regOf s p.1) p.2 0x3F) else ctlWrite s p.1 p.2

def applyPairs (s : State) (ps : List (Nat × Nat)) : State := ps.foldl applyPair s

/-! Position record and plan (R519 to R521, R424, R425). -/

/-- One ID part is well formed (R424, R425). -/
def idPartGood (s : State) (sec p : List Byte) : Bool :=
  let bars := leAt p 14 2
  let copy := leAt p 8 4
  let vc := (List.range 6).map fun i => leAt p (16 + 2 * i) 2
  let port (q : Nat) : List Byte := slice p (64 + 16 * q) 16
  let reserve := bits (regOf s (oSlc + 8)) 21 18
  let within (o n : Nat) : Bool := o % 8 == 0 && decide (o + n ≤ sec.length)
  leAt p 1 1 < 128 && leAt p 2 1 == 1 && leAt p 3 1 == 0 && zeros (slice p 28 4) && zeros (slice p 40 24)
  && vc.sum == 256 && vc.all (· != 0) && bitB bars (leAt p 12 1) && bitB bars (leAt p 13 1)
  && within (leAt p 32 4) 512 && within (leAt p 36 4) 4096
  && allBelow 32 (fun q =>
    let r := port q
    decide (leAt r 0 1 ≤ 3) && decide (leAt r 1 1 ≤ 15) && decide (leAt r 2 1 ≤ 1) && decide (leAt r 3 1 ≤ 15)
    && decide (leAt r 6 1 ≤ 31) && decide (leAt r 7 1 ≤ 1) && zeros (slice r 8 8)
    && (reserve == 0 || !bitB copy q || leAt r 0 1 != 0))
  && allBelow 16 (fun b =>
    let t := slice p (576 + 72 * b) 72
    if bitB bars b then decide (leAt t 2 1 ≤ 32) && zeros (slice t 3 5) && zeros (t.drop (8 + 2 * leAt t 2 1)) else zeros t)
  && (reserve == 0 || (copy != 0 && leAt p 4 2 != leAt p 0 2))

/-- The ID parts of a position. -/
def partsAt (sec : List Byte) (off n : Nat) : List (List Byte) := (List.range n).map fun i => slice sec (off + 1728 * i) 1728

/-- What the position record and the plan give (R521): PLAN_CODE, position index, offset and number of ID parts, standby. -/
structure PlanOut where
  code : Nat
  position : Nat := 0
  off : Nat := 0
  ids : Nat := 0
  standby : Bool := false
  deriving DecidableEq, Repr

def planOut (s : State) (sec : Option (List Byte)) : PlanOut :=
  match sec, s.boot.eeprom with
  | none, _ => ⟨1, 0, 0, 0, false⟩
  | some _, none => ⟨2, 0, 0, 0, false⟩
  | some d, some r =>
    let idx := leAt r 68 4
    let e := slice d (128 + 16 * idx) 16
    let off := leAt e 2 4
    let n := leAt e 6 2
    let standby := leAt e 0 2 == 0xFFFF
    if r.length < 128 || leAt r 0 4 ≠ 0x534F5058 || leAt r 4 1 ≠ 1 || !zeros (slice r 5 3) then ⟨2, 0, 0, 0, false⟩
    else if (crc32c (slice r 0 124)).toNat ≠ leAt r 124 4 then ⟨3, 0, 0, 0, false⟩
    else if slice r 8 60 ≠ slice d 0 60 then ⟨4, 0, 0, 0, false⟩
    else if leAt d 64 4 ≤ idx || 33280 < leAt d 64 4 || Config.sha512 (d.drop 64) ≠ slice d 0 64
        || d.length < 144 + 16 * idx || !zeros (slice e 8 8) || n = 0 || (if standby then 16 else 1) < n
        || off % 8 ≠ 0 || d.length < off + 1728 * n || !(partsAt d off n).all (idPartGood s d)
        || (!standby && leAt (slice d off 2) 0 2 ≠ leAt e 0 2) then ⟨5, 0, 0, 0, false⟩
    else ⟨0, idx, off, n, standby⟩

end Sys2Proof.Machine
end

