-- ==== Sys2Proof/Machine/Spdm.lean ====
section
/-!
DEFINITION. Identity and attestation: the certificate chain, the measurements and the SPDM responder (R522 to R525). The layouts of the
messages are those of the DMTF standard, which R524 names and the manual does not give (log entry 5).
-/

namespace Sys2Proof.Machine

/-! Identity (R522, R523, R525). -/

/-- The bytes that a measurement lists, as R525 orders them (log entry 40). -/
def measured512 (s : State) (i : Nat) : List Byte :=
  let b := s.boot
  let a := b.applied
  match i with
  | 1 => Config.sha512 Config.bootRom
  | 2 => a.firmware
  | 3 => a.base
  | 4 => Config.sha512 a.overlay
  | 5 => Config.sha512 (toLe 1 b.recipe ++ toLe 1 b.overlays.length)
  | 6 => Config.sha512 (if a.plan.isEmpty then List.replicate 68 0 else slice a.plan 0 64 ++ toLe 4 a.position)
  | 7 => Config.sha512 (toLe 1 b.fwFused ++ toLe 1 b.cfgFused ++ toLe 1 a.fwSvn ++ toLe 1 a.cfgSvn)
  | 8 => Config.sha512 (toLe 1 b.slot ++ toLe 4 b.imageSeq ++ toLe 1 b.codeA ++ toLe 1 b.codeB)
  | 9 => Config.sha512 Config.limits
  | _ => []

/-- The measurements reported: in FAILED only 1, 7 and 8 (R525). -/
def reported (s : State) : List Nat :=
  if s.boot.st == .failed then [1, 7, 8] else [1, 2, 3, 4, 5, 6, 7, 8, 9]

/-- The salt of the alias key (R522). -/
def aliasSalt (s : State) : List Byte :=
  Config.sha512 (measured512 s 2 ++ measured512 s 3 ++ measured512 s 4 ++ toLe 1 s.boot.recipe ++ toLe 1 s.boot.applied.fwSvn
    ++ toLe 1 s.boot.applied.cfgSvn ++ toLe 1 s.boot.fwFused ++ toLe 1 s.boot.cfgFused)

/-- The salt of the DEVID key (R522). -/
def devidSalt : List Byte := Config.sha512 Config.bootRom

/-- The certificates of slot 0 (R523); with no alias key the chain ends at DEVID. -/
def certificates (s : State) : List Byte :=
  Config.factoryChain ++ (if s.boot.aliasValid then Config.aliasCert (aliasSalt s) else [])

/-- A signature by the alias key, or in FAILED by DEVID (R522). -/
def attest (s : State) (msg : List Byte) : List Byte :=
  if s.boot.aliasValid then slice (Config.sign true (aliasSalt s) msg) 0 132 else slice (Config.sign false devidSalt msg) 0 132

/-- The chain as SPDM carries it: length, the root's hash, the certificates. -/
def certChain (s : State) : List Byte :=
  let c := certificates s
  toLe 2 (68 + c.length) ++ [0, 0] ++ slice Config.rootHash 0 64 ++ c

/-! Messages. -/

def cGetDigests : Nat := 0x81
def cGetCertificate : Nat := 0x82
def cChallenge : Nat := 0x83
def cGetVersion : Nat := 0x84
def cChunkGet : Nat := 0x86
def cGetMeasurements : Nat := 0xE0
def cGetCapabilities : Nat := 0xE1
def cNegotiate : Nat := 0xE3

/-- Requests that R524 supports. -/
def spdmSupported : List Nat :=
  [cGetDigests, cGetCertificate, cChallenge, cGetVersion, cChunkGet, cGetMeasurements, cGetCapabilities, cNegotiate]

def spdmVer (req : List Byte) : Nat := leAt req 0 1
def spdmCode (req : List Byte) : Nat := leAt req 1 1
def spdmP1 (req : List Byte) : Nat := leAt req 2 1
def spdmP2 (req : List Byte) : Nat := leAt req 3 1

/-- A response's header. -/
def spdmHead (v code p1 p2 : Nat) : List Byte := toLe 1 v ++ toLe 1 code ++ toLe 1 p1 ++ toLe 1 p2

def spdmError (v code data : Nat) : List Byte := spdmHead v 0x7F code data

/-- 32 bytes that the responder draws: undefined values (log entry 3). -/
def nonce (s : State) : List Byte := (List.range 32).map fun i => Config.freeByte s.free i

/-- The requester's context, from version 1.3 on. -/
def reqContext (req : List Byte) (o : Nat) : List Byte := if spdmVer req = 0x13 then slice req o 8 else []

/-- DIGESTS. -/
def digestsResp (s : State) (v : Nat) : List Byte := spdmHead v 0x01 0 1 ++ Config.sha512 (certChain s)

/-- CERTIFICATE: a portion of the chain of slot 0. -/
def certificateResp (s : State) (req : List Byte) : List Byte :=
  let v := spdmVer req
  let c := certChain s
  let off := leAt req 4 2
  let n := Nat.min (leAt req 6 2) (c.length - off)
  if spdmP1 req % 16 ≠ 0 || c.length ≤ off then spdmError v 0x01 0
  else spdmHead v 0x02 0 0 ++ toLe 2 n ++ toLe 2 (c.length - off - n) ++ slice c off n

/-- A measurement block. -/
def measBlock (s : State) (i : Nat) : List Byte :=
  let ty := if i = 1 then 0 else if i = 2 then 1 else 3
  toLe 1 i ++ [1] ++ toLe 2 67 ++ toLe 1 ty ++ toLe 2 64 ++ slice (measured512 s i) 0 64

/-- The hash of every reported measurement, when the challenge asks for one. -/
def measSummary (s : State) (ty : Nat) : List Byte :=
  if ty = 0 then [] else Config.sha512 (((reported s).map (measBlock s)).flatten)

/-- CHALLENGE_AUTH. -/
def challengeResp (s : State) (req : List Byte) : List Byte :=
  let v := spdmVer req
  if spdmP1 req % 16 ≠ 0 then spdmError v 0x01 0
  else
    let body := spdmHead v 0x03 0 1 ++ Config.sha512 (certChain s) ++ nonce s ++ measSummary s (spdmP2 req) ++ [0, 0]
      ++ reqContext req 36
    body ++ attest s (s.boot.spdmLog ++ req ++ body)

/-- MEASUREMENTS: a count, one block or all blocks. -/
def measurementsResp (s : State) (req : List Byte) : List Byte :=
  let v := spdmVer req
  let signed := bitB (spdmP1 req) 0
  let op := spdmP2 req
  let is := if op = 0 then [] else if op = 0xFF then reported s else (reported s).filter (· == op)
  if op ≠ 0 && is.isEmpty then spdmError v 0x01 0
  else
    let blocks := (is.map (measBlock s)).flatten
    let body := spdmHead v 0x60 (if op = 0 then (reported s).length else 0) 0 ++ toLe 1 is.length ++ toLe 3 blocks.length
      ++ blocks ++ nonce s ++ [0, 0] ++ reqContext req (if signed then 37 else 4)
    if signed then body ++ attest s (s.boot.spdmLog ++ req ++ body) else body

/-- CAPABILITIES: certificates, challenge, signed measurements, an alias certificate, chunks. -/
def capabilitiesResp (v : Nat) : List Byte :=
  spdmHead v 0x61 0 0 ++ [0, Config.spdmTiming, 0, 0] ++ toLe 4 (0x2 + 0x4 + 0x10 + 0x10000 + 0x20000)
    ++ toLe 4 Config.spdmTransfer.toNat ++ toLe 4 Config.spdmLargest.toNat

/-- ALGORITHMS: ECDSA P-521 and SHA-512 where the requester offers them. -/
def algorithmsResp (req : List Byte) : List Byte :=
  let asym := leAt req 8 4 &&& 0x100
  let hash := leAt req 12 4 &&& 0x4
  spdmHead (spdmVer req) 0x63 0 0 ++ toLe 2 36 ++ [1, 0] ++ toLe 4 8 ++ toLe 4 asym ++ toLe 4 hash ++ List.replicate 16 0

/-- VERSION: 1.2 and 1.3. -/
def versionResp : List Byte := spdmHead 0x10 0x04 0 0 ++ [0, 2] ++ toLe 2 0x1200 ++ toLe 2 0x1300

/-- The largest message that the requester takes; none before it has said (R524). -/
def peerLimit (s : State) (n : Nat) : Bool := decide (s.boot.spdmPeer = 0) || decide (n ≤ s.boot.spdmPeer)

/-- Bytes of a large response that chunk `i` carries, from offset; the first has four bytes less. -/
def chunkRoom (s : State) (i : Nat) : Nat := s.boot.spdmPeer - (if i = 0 then 16 else 12)

def chunkOff (s : State) (i : Nat) : Nat := if i = 0 then 0 else chunkRoom s 0 + (i - 1) * chunkRoom s 1

/-- CHUNK_RESPONSE. -/
def chunkResp (s : State) (req : List Byte) : List Byte :=
  let v := spdmVer req
  let i := leAt req 4 2
  let d := s.boot.spdmLarge
  let off := chunkOff s i
  let n := Nat.min (chunkRoom s i) (d.length - off)
  if d.isEmpty || spdmP2 req ≠ s.boot.spdmHandle || d.length ≤ off || n = 0 then spdmError v 0x01 0
  else spdmHead v 0x06 (b2n (decide (d.length ≤ off + n))) s.boot.spdmHandle ++ toLe 4 i ++ toLe 4 n
    ++ (if i = 0 then toLe 4 d.length else []) ++ slice d off n

/-- Sends a response; one that the requester cannot take whole waits for CHUNK_GET. -/
def spdmSend (s : State) (v : Nat) (d : List Byte) : State :=
  if peerLimit s d.length then emit s (.mctp d)
  else
    let h := (s.boot.spdmHandle + 1) % 256
    let s := { s with boot := { s.boot with spdmLarge := d, spdmHandle := h } }
    emit s (.mctp (spdmError v 0x0F 0 ++ toLe 1 h))

def updBoot (s : State) (f : Boot → Boot) : State := { s with boot := f s.boot }

/-- Appends to the transcript. -/
def spdmNote (s : State) (d : List Byte) : State := updBoot s fun b => { b with spdmLog := b.spdmLog ++ d }

/-- A response of the negotiated version: refused before the capabilities have been exchanged, or in another version. -/
def inVersion (s : State) (req : List Byte) (k : State → State) : State :=
  let v := spdmVer req
  if s.boot.spdmVersion = 0 then emit s (.mctp (spdmError v 0x04 0))
  else if v ≠ s.boot.spdmVersion then emit s (.mctp (spdmError v 0x41 0))
  else k s

/-- A request and its response, both in the transcript. -/
def exchange (s : State) (req resp : List Byte) : State := spdmNote (spdmSend s (spdmVer req) resp) (req ++ resp)

/-- The answer to a request. -/
def spdmAnswer (s : State) (req : List Byte) : State :=
  let c := spdmCode req
  let v := spdmVer req
  if c = cGetVersion then
    emit (updBoot s fun b => { b with spdmVersion := 0, spdmLarge := [], spdmPeer := 0, spdmLog := req ++ versionResp })
      (.mctp versionResp)
  else if c = cGetCapabilities then
    if v = 0x12 || v = 0x13 then
      exchange (updBoot s fun b => { b with spdmVersion := v, spdmPeer := leAt req 12 4 }) req (capabilitiesResp v)
    else emit s (.mctp (spdmError v 0x41 0))
  else if c = cNegotiate then inVersion s req fun s => exchange s req (algorithmsResp req)
  else if c = cGetDigests then inVersion s req fun s => exchange s req (digestsResp s v)
  else if c = cGetCertificate then inVersion s req fun s => exchange s req (certificateResp s req)
  else if c = cChallenge then inVersion s req fun s => fresh (exchange s req (challengeResp s req))
  else if c = cGetMeasurements then inVersion s req fun s => fresh (exchange s req (measurementsResp s req))
  else if c = cChunkGet then inVersion s req fun s => emit s (.mctp (chunkResp s req))
  else emit s (.mctp (spdmError v 0x07 c))

/-- A request arrives: during APPLY it waits for LOCKED or FAILED (R530); nothing answers while the internal reset is asserted. -/
def spdmRequest (s : State) (req : List Byte) : State :=
  if s.boot.inReset then s
  else if s.boot.st == .locked || s.boot.st == .failed then spdmAnswer s req
  else updBoot s fun b => { b with spdmHeld := b.spdmHeld ++ [req] }

/-- The requests that waited are answered in order. -/
def spdmRelease (s : State) : State :=
  let held := s.boot.spdmHeld
  held.foldl spdmAnswer (updBoot s fun b => { b with spdmHeld := [] })

/-- A row names its request: another code has no effect (log entry 1). -/
def ofCode (code : Nat) (req : List Byte) (s : State) : State := if spdmCode req = code then spdmRequest s req else s

/-- GET_VERSION (R524). -/
def execGetVersion (req : List Byte) (s : State) : Res := .next (ofCode cGetVersion req s)

/-- GET_CAPABILITIES (R524). -/
def execGetCapabilities (req : List Byte) (s : State) : Res := .next (ofCode cGetCapabilities req s)

/-- NEGOTIATE_ALGORITHMS (R524). -/
def execNegotiateAlgorithms (req : List Byte) (s : State) : Res := .next (ofCode cNegotiate req s)

/-- GET_DIGESTS (R524). -/
def execGetDigests (req : List Byte) (s : State) : Res := .next (ofCode cGetDigests req s)

/-- GET_CERTIFICATE (R523, R524). -/
def execGetCertificate (req : List Byte) (s : State) : Res := .next (ofCode cGetCertificate req s)

/-- CHUNK_GET (R524). -/
def execChunkGet (req : List Byte) (s : State) : Res := .next (ofCode cChunkGet req s)

/-- CHALLENGE (R522, R524). -/
def execChallenge (req : List Byte) (s : State) : Res := .next (ofCode cChallenge req s)

/-- GET_MEASUREMENTS (R524, R525). -/
def execGetMeasurements (req : List Byte) (s : State) : Res := .next (ofCode cGetMeasurements req s)

/-- SPDM_UNSUPPORTED (R524): any other request. -/
def execSpdmUnsupported (req : List Byte) (s : State) : Res :=
  .next (if spdmSupported.contains (spdmCode req) then s else spdmRequest s req)

end Sys2Proof.Machine
end

