-- ==== Sys2Proof/Machine/Boot.lean ====
section
/-!
DEFINITION. Input power, module reset, the boot sequence, the configuration lock and the signed-update engine (R505 to R531, R593 to R597).
-/

namespace Sys2Proof.Machine

/-! Reset (R593 to R596). -/

/-- What outlives the loss of every volatile state: fuses, NOR, the EEPROM of the baseboard and the levels of the pins. -/
def keptBoot (b : Boot) : Boot :=
  { fwFused := b.fwFused, cfgFused := b.cfgFused, repairRows := b.repairRows, repairCols := b.repairCols, repairJets := b.repairJets
    norMbit := b.norMbit, nor := b.nor, eeprom := b.eeprom, ovlSel := b.ovlSel, brakeLevel := b.brakeLevel, perst := b.perst
    modRst := b.modRst, inputOk := b.inputOk, overVolt := b.overVolt }

/-- The device in internal reset, with the ledger unit given (R596; log entry 41). -/
def resetModule (s : State) (l : Ledger) : State :=
  { State.reset with boot := keptBoot s.boot, ledger := l, ticks := s.ticks, free := s.free, out := s.out, pending := s.pending }

/-- The older image: the one that a flush writes (R577). -/
def olderImage (l : Ledger) : Nat :=
  if !l.image0.valid then 0
  else if !l.image1.valid then 1
  else if l.image0.seq ≤ l.image1.seq then 0
  else 1

def setImage (l : Ledger) (k : Nat) (f : LImage → LImage) : Ledger :=
  if k = 0 then { l with image0 := f l.image0 } else { l with image1 := f l.image1 }

/-- The ledger after a loss of power: the die's images alone; one that a flush was writing is not valid (R577). -/
def diePart (l : Ledger) : Ledger :=
  let l := if l.flushing then setImage l (olderImage l) fun i => { i with valid := false } else l
  { image0 := l.image0, image1 := l.image1 }

/-- A lockout (R593): internal reset, regulators off. -/
def lockout (s : State) (high : Bool) : State :=
  let s := resetModule s (diePart s.ledger)
  { s with boot := { s.boot with inputOk := false, overVolt := high } }

/-- INPUT_UNDERVOLTAGE (R593). -/
def execInputUndervoltage (s : State) : Res := .next (if s.boot.inputOk then lockout s false else s)

/-- INPUT_OVERVOLTAGE (R593). -/
def execInputOvervoltage (s : State) : Res := .next (if s.boot.overVolt then s else lockout s true)

/-- INPUT_IN_RANGE (R593). -/
def execInputInRange (s : State) : Res := .next { s with boot := { s.boot with inputOk := true, overVolt := false } }

/-- MOD_RST (R596, R579): the flush starts where flushing had begun; the ledger unit keeps running. -/
def execModRst (s : State) : Res :=
  .next <|
    let l := { s.ledger with
      flushing := s.ledger.flushing || s.ledger.begun, begun := false, limits := [], latch := [], dieFault := false }
    let s := resetModule s l
    { s with boot := { s.boot with modRst := false } }

/-! Boot (R518, R526). -/

/-- Milliseconds since boot began. -/
def bootMs (s : State) : Nat := (s.ticks - s.boot.since) / 50000

def setCode (s : State) (k code : Nat) : State :=
  updBoot s fun b => if k = 0 then { b with codeA := code } else { b with codeB := code }

/-- A slot is abandoned with its code (R518, R526). -/
def failSlot (s : State) (k code : Nat) : State := ledgerRecord (setCode s k code) 0x002 code (toLe 1 k)

/-- The power-cycle count advances, flushing begins, and the boot is recorded (R518, R572, R579). -/
def bootDone (s : State) (failed : Bool) : State :=
  let s := { s with ledger := { s.ledger with cycles := Nat.min (s.ledger.cycles + 1) 0xFFFFFF, begun := true } }
  ledgerRecord s 0x001 (bootMs s)
    (toLe 1 s.boot.slot ++ toLe 1 s.boot.recipe ++ toLe 4 s.boot.imageSeq ++ toLe 1 (b2n failed))

/-- FAILED (R518). -/
def toFailed (s : State) : State := spdmRelease (bootDone (updBoot s fun b => { b with st := .failed }) true)

/-- Overlays of a recipe: index, digest, records; the code of the first that fails. -/
def readOverlays (s : State) (k : Nat) (es : List Sect) : List Nat → Nat × List (Nat × List Byte × List Rec)
  | [] => (cOk, [])
  | i :: is =>
    match findSect es 3 i with
    | none => (cRecipeBad, [])
    | some e =>
      match sectRead s k e with
      | none => (cDigestBad, [])
      | some d =>
        match recordsOf d.length d with
        | none => (cRecordBad, [])
        | some rs =>
          if !overlayGood s rs then (cRecordBad, [])
          else
            let r := readOverlays s k es is
            (r.1, (i, e.digest, rs) :: r.2)

/-- The class of an overlay. -/
def overlayClass (rs : List Rec) : Nat := leAt (recOf rs 0x10) 0 1

def noRepeat : List Nat → Bool
  | [] => true
  | x :: xs => !xs.contains x && noRepeat xs

/-- A setting of BASE, replaced by that of an overlay (R515). -/
def setting (base : List Rec) (ovs : List (Nat × List Byte × List Rec)) (t : Nat) (dflt : List Byte) : List Byte :=
  match ovs.find? fun o => recCountOf o.2.2 t != 0 with
  | some o => recOf o.2.2 t
  | none => if recCountOf base t = 0 then dflt else recOf base t

/-- APPLY of a slot (R512 to R515, R519 to R521): its code, and the configuration that it gives. -/
def configure (s : State) (k : Nat) (es : List Sect) (fw : List Byte) : Nat × Applied :=
  let h := imgBytes s k 0 4096
  match findSect es 2 0 with
  | none => (cHeaderBad, {})
  | some be =>
    match sectRead s k be with
    | none => (cDigestBad, {})
    | some d =>
      match recordsOf d.length d with
      | none => (cRecordBad, {})
      | some base =>
        let pairs := (base.map fun r => if r.1 = 2 then pairsOf r.2 else []).flatten
        let t := applyPairs s pairs
        if !baseGood base || !base.all (payloadGood t) then (cRecordBad, {})
        else
          let rcp := slice (recOf base 1) (8 * s.boot.recipe) 8
          let is := (List.range (leAt rcp 0 1)).map fun i => leAt rcp (1 + i) 1
          if is.isEmpty || is.any (fun i => (findSect es 3 i).isNone) then (cRecipeBad, {})
          else
            let (code, ovs) := readOverlays t k es is
            let cls := ovs.map fun o => overlayClass o.2.2
            if code ≠ cOk then (code, {})
            else if !noRepeat cls || !cls.contains 1 then (cRecipeBad, {})
            else
              let role := setting base ovs 0x13 (List.replicate 16 0)
              let fabric := leAt role 0 1 == 1
              let pe := findSect es 4 0
              let plan := if fabric then pe.bind (sectRead s k) else none
              if fabric && pe.isSome && plan.isNone then (cDigestBad, {})
              else
                let po := if fabric then planOut t plan else ⟨0, 0, 0, 0, false⟩
                let loaded := fabric && po.code == 0
                (cOk, {
                  regs := pairs
                  hostSplit := setting base ovs 0x12 (splitDefault t)
                  linkRole := role
                  chassis := setting base ovs 0x11 []
                  conform := leAt (setting base ovs 0x14 [0]) 0 1 == 1
                  pins := leAt (recOf base 3) 0 1
                  overlays := is
                  seq := leAt h 8 4
                  fwSvn := leAt h 12 1
                  cfgSvn := leAt h 13 1
                  planCode := po.code
                  plan := if loaded then plan.getD [] else []
                  position := po.position
                  planIds := po.ids
                  standby := po.standby
                  planOff := po.off
                  firmware := fw
                  base := be.digest
                  overlay := (ovs.map fun o => toLe 1 o.1 ++ o.2.1).flatten })

/-- VERIFY and APPLY of a slot (R518): its code, and the configuration. -/
def trySlot (s : State) (k : Nat) : Nat × Applied :=
  if !committed s k then (cNotCommitted, {})
  else
    let c := checkHeader s k
    if c ≠ cOk then (c, {})
    else
      let es := sectsOf (imgBytes s k 0 4096)
      match findSect es 1 0 with
      | none => (cHeaderBad, {})
      | some e => if (sectRead s k e).isNone then (cDigestBad, {}) else configure s k es e.digest

/-- A slot's configuration waits for the lock. -/
def booted (s : State) (k : Nat) (fallback : Bool) (a : Applied) : State :=
  updBoot (setCode s k cOk) fun b =>
    { b with st := .apply, slot := k, fallback, applied := a, imageSeq := a.seq, overlays := a.overlays }

/-- FETCH to APPLY, with the fallback to the other slot (R518). -/
def bootSlots (s : State) : State :=
  let a := committed s 0
  let b := committed s 1
  if !norPresent s then toFailed (failSlot (failSlot s 0 cNorAbsent) 1 cNorAbsent)
  else if !a && !b then toFailed (failSlot (failSlot s 0 cNotCommitted) 1 cNotCommitted)
  else
    let k := if a && (!b || decide (slotSeq s 1 ≤ slotSeq s 0)) then 0 else 1
    let (c, x) := trySlot s k
    if c = cOk then booted s k false x
    else
      let s := failSlot s k c
      let (c, x) := trySlot s (1 - k)
      if c = cOk then booted s (1 - k) true x
      else toFailed (failSlot (updBoot s fun b => { b with slot := 1 - k, fallback := true }) (1 - k) c)

/-- ROM (R518, R505): fuses, straps, and the repairs used at manufacture. -/
def romStep (s : State) : State :=
  let b := s.boot
  let s := updBoot s fun b => { b with inReset := false, modRst := true, recipe := b.ovlSel % 16, since := s.ticks }
  let s := { s with jets := { s.jets with map := b.repairJets } }
  let s := (List.range 8).foldl (fun s t => updTerrace s t fun x =>
    { x with sparesUsed := (b.repairJets.filter fun e => e.1 / 512 == t).length }) s
  (List.range 6).foldl (fun s k => updBasin s k fun x =>
    { x with rowsRetired := SMap.get [] b.repairRows k, colsRetired := SMap.get [] b.repairCols k }) s

/-- INTERNAL_RESET_RELEASE (R595, R518). -/
def execInternalResetRelease (s : State) : Res :=
  .next <| if s.boot.inReset && s.boot.inputOk && !s.ledger.flushing then bootSlots (romStep s) else s

/-- HBM_TRAIN (R518): the device fails without trying the other slot. -/
def execHbmTrain (stack : Nat) (s : State) : Res :=
  .next <| if s.boot.st == .apply && decide (stack < 8) then toFailed (failSlot s s.boot.slot cHbmTrain) else s

/-! The configuration lock (R515, R518). -/

/-- The host ports of the split (R533). -/
def createPorts (s : State) (d : List Byte) : State :=
  (List.range (splitPorts (leAt d 0 1))).foldl (fun s p =>
    let e := splitEntry d p
    updPort s p fun _ =>
      { created := true, platform := bitB (leAt d 1 1) p, ctxFirst := leAt e 0 2, ctxCount := leAt e 2 2, terraces := leAt e 4 1
        basins := leAt e 5 1, slices := leAt e 8 8, frameFirst := leAt e 16 4, frameCount := leAt e 20 4
        lanes := 2 - Nat.log2 (splitPorts (leAt d 0 1)) }) s

/-- The CHASSIS values (R515): OP_MAX, TJ_TARGET, HBM_TARGET, the ceiling; the cap is clamped to it. -/
def applyChassis (s : State) (d : List Byte) : State :=
  let v := leAt d 4 1 * 2 ^ 6 + leAt d 5 1 * 2 ^ 9 + leAt d 6 1 * 2 ^ 16
  let s := setReg s (oPwr + 0x14) (putMask (regOf s (oPwr + 0x14)) v 0x7FFFC0)
  let s := setReg s (oPwr + 0x10) (putMask (regOf s (oPwr + 0x10)) (leAt d 2 2 * 2 ^ 14) 0x1FFC000)
  setReg s (oPwr + 0x0C) (Nat.min (ceiling s) (regOf s (oPwr + 0x0C)))

/-- PORT_OFF and TX_MAX over the records of an ID part (R512, R521). -/
def patchPart (portOff txMax : Nat) (d : List Byte) : List Byte :=
  (List.range 32).foldl (fun d p =>
    let d := if bitB portOff p then patch d (64 + 16 * p) [0] else d
    patch d (64 + 16 * p + 3) (toLe 1 (Nat.min txMax (leAt d (64 + 16 * p + 3) 1)))) d

/-- The plan in force; an ordinary position takes its ID (R521). -/
def applyPlan (s : State) (a : Applied) : State :=
  if a.plan.isEmpty then s
  else
    let parts := (partsAt a.plan a.planOff a.planIds).map (patchPart (leAt a.linkRole 4 4) (leAt a.linkRole 8 1))
    let p := parts.headD []
    { s with links := { s.links with
      planLoaded := true, planSec := a.plan, idParts := parts, planHash := slice a.plan 0 16
      idPart := if a.standby then [] else p
      devId := if a.standby then 0 else leAt p 0 2
      hasId := !a.standby } }

/-- A port's transmit amplitude, clamped to the fused ceiling (R409), and its training (R427). -/
def enablePort (s : State) (p : Nat) : State :=
  let lvl := leAt (planPort s p) 3 1
  let s := if Config.txCeiling < lvl then ledgerRecord (setBit s (oPort p + 0x10) 5) 0x031 lvl (toLe 1 p) else s
  updLink s p fun x => { x with st := .training, reason := 0, planPort := p, enabledAt := s.ticks }

/-- The link ports that the configuration names (R518): those whose ROLE is not UNUSED. -/
def enablePorts (s : State) : State :=
  if s.links.hasId then ((List.range 32).filter fun p => portRole s p != 0).foldl enablePort s else s

/-- BRAKE# low when the lock enables it: as though it fell then (R605). -/
def lockBrake (s : State) : State :=
  if bitB s.boot.pins 2 && !s.boot.brakeLevel then
    updPower s fun p => { p with brakeLow := true, brakeEdge := s.ticks }
  else s

/-- A TIMEBASE_LOST of the boot is reported now (R530). -/
def lockTimebase (s : State) : State :=
  if s.recov.tbLost then raise (setBit s (oCfg + 0x104) 6) 0x044 11 0 .all else s

/-- Straps that have changed since they were sampled are recorded (R530). -/
def lockStraps (s : State) : State :=
  if s.boot.ovlSel = s.boot.recipe then s else ledgerRecord s 0x003 s.boot.ovlSel (toLe 1 s.boot.recipe)

/-- CONFIGURATION_LOCK (R515, R518): the configuration is applied, every stack has trained, and boot is complete. -/
def execConfigurationLock (s : State) : Res :=
  .next <|
    if s.boot.st != .apply then s
    else
      let a := s.boot.applied
      let s := applyPairs s a.regs
      let s := createPorts s a.hostSplit
      let s := applyPlan s a
      let s := applyChassis s a.chassis
      let s := updBoot s fun b => { b with
        pins := a.pins, chassis := leAt a.chassis 0 1, conform := a.conform, planMode := leAt a.linkRole 0 1 == 1
        planCode := a.planCode, st := .locked, locked := true, udsLatched := true, aliasValid := true }
      let s := bootDone s false
      let s := enablePorts s
      settle (spdmRelease (lockStraps (lockTimebase (lockBrake s))))

/-- OVL_SEL_CHANGE (R530): no effect on the device; after the lock the ledger records the new value. -/
def execOvlSelChange (level : Nat) (s : State) : Res :=
  .next <|
    let v := level % 16
    let changed := v != s.boot.ovlSel
    let s := updBoot s fun b => { b with ovlSel := v }
    if changed && s.boot.locked then ledgerRecord s 0x003 v (toLe 1 s.boot.recipe) else s

/-- LINK_UP (R532): PERST# is high and the link has trained at a width and a rate, or its partner lacks Flit mode. -/
def execLinkUp (port width speed : Nat) (flit : Bool) (s : State) : Res :=
  .next <|
    let q := getPort s port
    if 4 ≤ port || !q.created || q.linkUp then s
    else
      let s := updBoot s fun b => { b with perst := b.perst ||| 2 ^ port }
      if !flit then hifFlag s port 0
      else if (speed = 1 || speed = 2) && width ≤ q.lanes then updPort s port fun x => { x with linkUp := true, width, speed }
      else s

/-! The signed-update engine (R527 to R529). -/

/-- An update is open. -/
def updOpen (s : State) : Bool := s.boot.upd == .opened || s.boot.upd == .busy

/-- A refused command: CODE reads 0xFF (SEC_UPDATE_STATUS). -/
def updRefuse (s : State) : State := updBoot s fun b => { b with updCode := 0xFF }

/-- A command of the update that `path` opened; another one is refused. -/
def ofUpdate (s : State) (path : Bool) (k : State → State) : State :=
  if s.boot.inReset then s
  else if s.boot.upd == .opened && s.boot.updPath == path then k s
  else updRefuse s

/-- Programs bytes of the NOR; 0xFF is what an erased byte reads as. -/
def putNor (m : SMap Byte) (a : Nat) : List Byte → SMap Byte
  | [] => m
  | b :: bs => putNor (SMap.put 0xFF m a b) (a + 1) bs

def programNor (s : State) (a : Nat) (d : List Byte) : State := updBoot s fun b => { b with nor := putNor b.nor a d }

def eraseNor (s : State) (a n : Nat) : State :=
  updBoot s fun b => { b with nor := SMap.clear (fun k => decide (a ≤ k) && decide (k < a + n)) b.nor }

/-- BEGIN: one update at a time, and never of the booted slot (R527, R528). -/
def beginUpdate (s : State) (path : Bool) (slot : Nat) : State :=
  if s.boot.inReset then s
  else if updOpen s || 2 ≤ slot || !norPresent s || (s.boot.st != .failed && slot == s.boot.slot) then updRefuse s
  else
    updBoot (eraseNor s (norSlot s slot) (slotLen s)) fun b => { b with upd := .opened, updSlot := slot, updCode := 0, updPath := path }

/-- The bytes of a block that a WRITE programs: block 0 leaves MARKER erased (log entry 42). -/
def blockData (block : Nat) (data : List Byte) : List Byte := slice data 0 (if block = 0 then 4088 else 4096)

/-- A block that the slot being written has. -/
def blockInSlot (s : State) (block : Nat) : Bool := decide (block < slotLen s / 4096)

def writeBlock (block : Nat) (data : List Byte) (s : State) : State :=
  if blockInSlot s block then programNor s (norSlot s s.boot.updSlot + 4096 * block) (blockData block data)
  else updRefuse s

/-- WRITE: one block; MARKER stays erased (R528; log entry 42). -/
def writeUpdate (s : State) (path : Bool) (block : Nat) (data : List Byte) : State := ofUpdate s path (writeBlock block data)

/-- The code of FINISH: R511 over every section, then SEQ, for whose failure R526 has no code (log entry 43). -/
def finishCode (s : State) : Nat :=
  let k := s.boot.updSlot
  let c := checkHeader s k
  let c := if c = cOk then checkSections s k else c
  if c ≠ cOk then c
  else if s.boot.st != .failed && slotSeq s k ≤ s.boot.imageSeq then (Config.freeByte s.free 0).toNat
  else cOk

/-- FINISH passes every check. -/
def finishOk (s : State) : Bool :=
  let k := s.boot.updSlot
  checkHeader s k == cOk && checkSections s k == cOk && (s.boot.st == .failed || decide (s.boot.imageSeq < slotSeq s k))

/-- FINISH (R528). -/
def finishUpdate (s : State) (path : Bool) : State :=
  ofUpdate s path fun s =>
    let k := s.boot.updSlot
    let ok := finishOk s
    let c := finishCode s
    let d := toLe 1 k ++ toLe 4 (slotSeq s k)
    let s := if ok then programNor s (norSlot s k + 4088) (List.replicate 8 0x5A) else fresh s
    ledgerRecord (updBoot s fun b => { b with upd := if ok then .done else .failed, updCode := c }) 0x004 c d

/-- ABORT of an update (R528). -/
def abortUpdate (s : State) (path : Bool) : State := ofUpdate s path fun s => updBoot s fun b => { b with upd := .idle }

/-- SVN_COMMIT (R529): `fuses` have been blown when the commit ends, all that are missing unless it is interrupted; the firmware counter
first (log entry 44). -/
def svnCommit (s : State) (path : Bool) (fuses : Nat) : State :=
  if s.boot.inReset then s
  else if s.boot.st != .locked || (updOpen s && s.boot.updPath != path) then updRefuse s
  else
    let b := s.boot
    let fw := b.applied.fwSvn - b.fwFused
    let cfg := b.applied.cfgSvn - b.cfgFused
    let n := Nat.min fuses (fw + cfg)
    let s := updBoot s fun b => { b with fwFused := b.fwFused + Nat.min n fw, cfgFused := b.cfgFused + (n - fw) }
    if n = fw + cfg then ledgerRecord s 0x005 n (toLe 1 b.applied.fwSvn ++ toLe 1 b.applied.cfgSvn) else s

/-- BEGIN (R527, R528): `path` is true for the SEC_ registers, false for MCTP. -/
def execUpdBegin (path : Bool) (slot : Nat) (s : State) : Res := .next (beginUpdate s path slot)

/-- UPDATE_WRITE (R528). -/
def execUpdateWrite (path : Bool) (block : Nat) (data : List Byte) (s : State) : Res := .next (writeUpdate s path block data)

/-- FINISH (R528). -/
def execUpdFinish (path : Bool) (s : State) : Res := .next (finishUpdate s path)

/-- UPDATE_ABORT (R528). -/
def execUpdateAbort (path : Bool) (s : State) : Res := .next (abortUpdate s path)

/-- SVN_COMMIT (R529). -/
def execSvnCommit (path : Bool) (fuses : Nat) (s : State) : Res := .next (svnCommit s path fuses)

end Sys2Proof.Machine
end

