-- ==== Sys2Proof/Machine/BasinRows.lean ====
section
/-!
DEFINITION. Rows in the array: output at the spout, checks and their failures, replay, drains, reloads and spare lines (R127 to
R135, R142 to R144, R150, R156 to R167, R259, R316, R317, R449, R608).
-/

namespace Sys2Proof.Machine

/-- The basin is leased and the device's units run; a stopped basin lets accepted rows finish (R152). -/
def basinLive (s : State) (b : Nat) : Bool := decide (b < 6) && (getBasin s b).lease.isSome && unitsRun s

/-! Rows at the spout (R150). -/

/-- Bytes of the row-scale array that a row takes (R185); a sparse row has twice the blocks (R130). -/
def rowScaleBytes (raw : List Byte) : Nat :=
  if !isMx (pFmtRow raw) then 0 else if pMode raw = 1 then 16 else 16 * epw (pFmtRow raw)

/-- The output that the array forms for a fed row (R127 to R137). -/
def fedOutput (s : State) (p : PassRun) (d : PassDrain) (front back : Bank) (row : ArrRow) : List W40 × State :=
  if isOuter (pMode p.raw) || (fConform d.prof && !isAccum (pMode p.raw)) then ([], s)
  else
    let n := rowScaleBytes p.raw
    let a := pAux p.raw + n * row.row
    let (bs, s) := if n = 0 then ([], s) else rdCtx s d.ctx a (if pSparse p.raw = 0 then n else 2 * n)
    (arrayOut (rangeReader a bs) p.raw front back row.data row.row, s)

/-- What the row leaves at the spout, and the term it enters into every cell. -/
def rowAtSpout (s : State) (b : Nat) (p : PassRun) (d : PassDrain) (row : ArrRow) : State :=
  let x := getBasin s b
  let front := x.bank row.bank
  let back := x.bank (1 - row.bank)
  let (out, s) :=
    if row.masked then (List.replicate (outElems p.raw front.rcd.unpacked) 0, s)
    else if row.zeros ≠ 0 then (markerRow p.raw front back, s)
    else fedOutput s p d front back row
  updBasin s b fun x =>
    let x := if !isAccum (pMode p.raw) then x
      else if row.zeros ≠ 0 then enterZeros p.raw row.zeros x
      else enterTerm (fConform d.prof) p.raw row.data x
    { x with array := x.array.modify ((x.array.takeWhile (·.atSpout)).length) fun r => { r with atSpout := true, out } }

/-- OUTPUT_ROW_AT_SPOUT (R150): the oldest row in the array has crossed it. -/
def execOutputRowAtSpout (b : Nat) (s : State) (fs : List MemFault := []) : Res :=
  .next <|
    let x := getBasin s b
    match x.array.find? (!·.atSpout) with
    | none => s
    | some row =>
      match findRun x row.seq, findDrain s b row.seq with
      | some p, some d => 
        if basinLive s b && !spoutHeld s b then memFaults fs s fun s => rowAtSpout s b p d row else s
      | _, _ => s

/-- TOKEN_EXIT (R144): the row that carries the token has left the array, and every cell has exchanged its banks. -/
def execTokenExit (b : Nat) (s : State) : Res :=
  .next <|
    let x := getBasin s b
    let inArray := x.array.any (fun r => r.token && !r.atSpout) || x.replay.any (·.token)
    if basinLive s b && x.token && !inArray then
      updBasin s b fun x => { x with
        front := x.sel, token := false, array := x.array.map fun r => { r with token := false } }
    else s

/-! Rows that pass their checks (R203, R233, R259). -/

/-- Rows `r` to `r + n − 1`, all with the output `out`, enter the spout. -/
def spoutRows (s : State) (b : Nat) (seq : BitVec 32) (r n : Nat) (out : List W40) : State :=
  (List.range n).foldl (fun s k => spoutRow s b seq false (r + k) out) s

/-- Leaves or terms of a pass whose sum goes beyond the pairwise limit (R232, R233). -/
def longSum (x : Basin) (raw : List Byte) (bank : Nat) : Option Nat :=
  if isAccum (pMode raw) then (if 65536 < x.terms then some x.terms else none)
  else if pKtEn raw && decide (65536 ≤ pKtIndex raw) then
    some ((pKtIndex raw + 1) * (if pMode raw = 1 then 512 else tileHeight (x.bank bank).rcd))
  else none

/-- The length of such a sum is kept with the last row; LONGSUM is counted at completion (R233, R257). -/
def noteLongsum (s : State) (b : Nat) (seq : BitVec 32) : State :=
  let x := getBasin s b
  match findRun x seq with
  | none => s
  | some p =>
    if p.allChecked then updRun s b seq fun p => { p with longsum := (longSum x p.raw p.bank).getD 0 } else s

/-- LONGSUM of a pass that completes (R233, R257). -/
def countLongsum (s : State) (b n : Nat) : State :=
  if n = 0 then s
  else ledgerRecord (bump (setBit s (oBsn b + 0x08) 7) (oBsn b + 0x60) 1) 0x011 n (toLe 1 1 ++ toLe 1 b)

/-- One row or term of a replay has passed its checks; with the last one the replay is complete (R162). -/
def replayStepDone (s : State) (b : Nat) (seq : BitVec 32) : State :=
  let n := (getBasin s b).replayLeft
  if n = 0 then s
  else
    let s := updBasin s b fun x => { x with replayLeft := n - 1 }
    let s := updRun s b seq fun p => { p with replayed := true }
    if n = 1 then bump (setBit s (oBsn b + 0x08) 5) (oBsn b + 0x58) 1 else s

/-- The outputs of the oldest row enter the spout, one row of a marker or masked block at a time; all of a marker's terms at
once (R319). -/
def rowGood (s : State) (b : Nat) (p : PassRun) (d : PassDrain) (row : ArrRow) : State :=
  let x := getBasin s b
  let acc := isAccum (pMode p.raw)
  let n := if acc then Nat.max 1 row.zeros else 1
  let skip := p.dxDone - row.row
  let s := if isOuter (pMode p.raw) || p.win then s
    else if acc then spoutRows s b p.seq (row.row + skip) (n - skip) row.out
    else if fConform d.prof then confRow s b p.seq (x.bank row.bank) row.row row.data
    else spoutRow s b p.seq false row.row row.out
  let s := updRun s b p.seq fun p => { p with checked := p.checked + n }
  let last := acc || row.zeros ≤ 1
  let s := updBasin s b fun x => { x with
    array := if last then x.array.drop 1
             else x.array.modify 0 fun r => { r with row := r.row + 1, zeros := r.zeros - 1 }
    seg := if acc then x.seg ++ [row] else x.seg }
  noteLongsum (if last then replayStepDone s b p.seq else s) b p.seq

/-! Failures (R156, R159 to R164, R608). -/

/-- A number for a check and the place that it localizes to: lane, entry and bank-word checks of a physical cell, and the trees. -/
def locOf : RowCheck → Option Nat
  | .lane r c => some (r * 1024 + c)
  | .entry r c => some (2 ^ 20 + r * 1024 + c)
  | .bank _ r c => some (2 * 2 ^ 20 + r * 1024 + c)
  | .tree isRow n => some ((if isRow then 3 else 4) * 2 ^ 20 + n)
  | _ => none

/-- The place of a failed check is one that holds logical cells (R164). -/
def placeUsed (x : Basin) : RowCheck → Bool
  | .lane r c => lineUsed x.rowsRetired r && lineUsed x.colsRetired c
  | .entry r c => lineUsed x.rowsRetired r && lineUsed x.colsRetired c
  | .bank _ r c => lineUsed x.rowsRetired r && lineUsed x.colsRetired c
  | .tree isRow n => lineUsed (if isRow then x.rowsRetired else x.colsRetired) n
  | _ => true

/-- A row as it is sent again. -/
def ArrRow.again (r : ArrRow) : ArrRow := { r with atSpout := false, out := [] }

/-- Side rows of discarded rows are to be read again (R293). -/
def dropSides (s : State) (b : Nat) (rows : List ArrRow) : State :=
  let again (d : PassDrain) : PassDrain :=
    match rows.find? fun r => r.seq == d.seq with
    | none => d
    | some r => { d with side := SMap.clear (fun k => decide (r.row ≤ k)) d.side }
  updSpout s b fun x => { x with passes := x.passes.map again }

/-- Discards the failed row and every later one, and in an accumulating pass every term of the segment, to be sent again (R159,
R160, R608). -/
def discardRows (s : State) (b : Nat) : State :=
  let x := getBasin s b
  let accum (r : ArrRow) : Bool := (findRun x r.seq).any fun p => isAccum (pMode p.raw)
  let back := x.array.any accum
  let rows := (if back then x.seg else []) ++ x.array
  let s := updBasin s b fun x => { x with
    array := [], seg := if back then [] else x.seg
    replay := rows.map ArrRow.again, replayLeft := rows.length
    passes := x.passes.map fun p =>
      if isAccum (pMode p.raw) && back && !p.allChecked then
        { p with dxDone := Nat.max p.dxDone p.checked, checked := p.segRow }
      else p }
  dropSides s b rows

/-- A check of a row or term fails (R156, R161 to R163). -/
def rowFailed (s : State) (b : Nat) (p : PassRun) (row : ArrRow) (res : RowCheck) : State :=
  let s := raise s 0x020 1 b (.basin b)
  let before := p.fails.filter fun f => f.1 == row.segNo
  let loc := locOf res
  let again := loc.isSome && before.any fun f => f.2 == loc
  if !again && decide (2 ≤ before.length) then raise s 0x067 1 b (.basin b)
  else
    let s := updRun s b p.seq fun p => { p with fails := (row.segNo, loc) :: p.fails }
    let s := updBasin s b fun x => { x with
      retire := if again then loc else x.retire
      subst := x.subst || again
      reloads := match res with
        | .bank other _ _ => [if other then 1 - row.bank else row.bank]
        | _ => x.reloads }
    discardRows s b

/-- A spout computes a row's output again (R449): S1, and S3 at the second failure on one output. -/
def recomputed (s : State) (b n : Nat) (k : State → State) : State :=
  if n = 0 then k s
  else
    let s := raise s 0x023 2 b (.basin b)
    if n = 1 then k s else raise s 0x069 2 b (.basin b)

/-- A check of a drain row: the drain goes on, or resumes from it (R134, R168). -/
def drainChecked (s : State) (b : Nat) (seq : BitVec 32) (r : Nat) (out : List W40) (res : RowCheck) : State :=
  match res, findDrain s b seq with
  | .good n, some d =>
    recomputed s b n fun s =>
      let s := if fConform d.prof then confDrainRow s b seq r out else spoutRow s b seq true r out
      let s := updRun s b seq fun p => { p with drainOk := p.drainOk + 1 }
      updBasin s b fun x => { x with drains := x.drains.drop 1 }
  | .good _, none => s
  | _, _ =>
    let s := raise s 0x020 1 b (.basin b)
    let s := updRun s b seq fun p => { p with drain := r }
    let s := updDrain s b seq fun d => { d with side := SMap.clear (fun k => decide (r ≤ k)) d.side }
    updBasin s b fun x => { x with drains := [] }

/-- A check passes. -/
def checkPassed : RowCheck → Bool
  | .good _ => true
  | _ => false

/-- ROW_CHECKED (R156, R259): the outcome of the checks of the oldest row, term or drain row at the spout; one that passes enters the
spout when that has room (R260). -/
def execRowChecked (b : Nat) (res : RowCheck) (s : State) (fs : List MemFault := []) : Res :=
  .next <|
    let x := getBasin s b
    if !basinLive s b || !placeUsed x res || (checkPassed res && spoutHeld s b) then s
    else match x.drains with
      | (seq, r, out) :: _ => memFaults fs s fun s => drainChecked s b seq r out res
      | [] =>
        match x.array with
        | [] => s
        | row :: _ =>
          match findRun x row.seq, findDrain s b row.seq with
          | some p, some d =>
            if !row.atSpout then s
            else match res with
              | .good n =>
                if row.zeros = 0 && rowMalformed p.raw (x.bank row.bank) row.data then itemFail s b p.seq .badRow
                else memFaults fs s fun s => recomputed s b n fun s => rowGood s b p d row
              | _ => rowFailed s b p row res
          | _, _ => s

/-! Replay (R159 to R163). -/

/-- The accumulations at the start of the segment (R160). -/
def restoreShadow (x : Basin) : Basin := { x with acc := x.shAcc, stack := x.shStack, terms := x.shTerms }

/-- Sends the discarded rows again; `accum` says whether terms are among them. `fs` is what the journal's reads find wrong, and `shadow`
says that every entry of a shadow to restore passes its parity (R160, R163). -/
def sendAgain (accum : Bool) (b : Nat) (fs : List MemFault) (shadow : Bool) (s : State) : State :=
  let x := getBasin s b
  let has := x.replay.any fun r => (findRun x r.seq).any fun p => isAccum (pMode p.raw)
  if basinLive s b && !x.replay.isEmpty && x.reloads.isEmpty && x.retire.isNone && has == accum then
    match memChecks fs s with
    | (false, s) => raise s 0x067 1 b (.basin b)
    | (true, s) =>
      if !shadow then raise s 0x067 1 b (.basin b)
      else updBasin s b fun x =>
        { (if accum then restoreShadow x else x) with array := x.array ++ x.replay, replay := [], subst := false }
  else s

/-- ROW_REPLAY (R159): rows are read from the journal and sent again. -/
def execRowReplay (b : Nat) (s : State) (fs : List MemFault := []) : Res := .next (sendAgain false b fs true s)

/-- SEGMENT_REPLAY (R160): the shadow is restored, and the segment's terms are read from the journal and sent again. -/
def execSegmentReplay (b : Nat) (s : State) (fs : List MemFault := []) (shadow : Bool := true) : Res := .next (sendAgain true b fs shadow s)

/-! Drains (R134). -/

/-- The pass that drains now. -/
def drainingRun (x : Basin) : Option PassRun := x.passes.find? fun p => pDrain p.raw && p.allChecked && !p.drained

/-- DRAIN (R134): the next row of the accumulations goes to the spout. -/
def execDrain (b : Nat) (s : State) : Res :=
  .next <|
    let x := getBasin s b
    match drainingRun x with
    | none => s
    | some p =>
      match findDrain s b p.seq with
      | none => s
      | some d =>
        if basinLive s b && !spoutHeld s b && decide (p.drain < 512) then
          let out := drainRow (fConform d.prof) p.raw x p.drain
          let s := updRun s b p.seq fun p => { p with drain := p.drain + 1 }
          updBasin s b fun x => { x with drains := x.drains ++ [(p.seq, p.drain, out)] }
        else s

/-- DRAIN_COMPLETE (R134): every drain row has passed its checks; the accumulation ends. -/
def execDrainComplete (b : Nat) (s : State) : Res :=
  .next <|
    match drainingRun (getBasin s b) with
    | none => s
    | some p =>
      if basinLive s b && p.drainOk == 512 then
        updBasin (updRun s b p.seq fun p => { p with drained := true }) b clearAccum
      else s

/-! Reloads and spare lines (R143, R161, R164 to R167). -/

/-- A reload finds another tile: the bank is EMPTY, and the oldest pass that uses it stops with SOURCE_CHANGED; where none has started, the
oldest PASS in the queue does, and where there is none the change is reported without an item (R143, R163; log entry 131). -/
def sourceChanged (s : State) (b k : Nat) : State :=
  let s := setBank s b k fun _ => {}
  let x := getBasin s b
  match x.passes.find? fun p => !isOuter (pMode p.raw) && (p.bank == k || pSparse p.raw != 0) && !p.allChecked with
  | some p => itemFail s b p.seq .sourceChanged
  | none =>
    match findItem x isPass with
    | some i => itemFail s b i.seq .sourceChanged
    | none => reportHalt s b x.nextSeq .sourceChanged

/-- BANK_RELOAD (R143): the next bank to reload is read again from its source and checked against its CRC-32C; in a ROOT_WINDOW the
sluices give it again (R391). -/
def execBankReload (b : Nat) (s : State) (fs : List MemFault := []) : Res :=
  .next <|
    let x := getBasin s b
    match x.reloads with
    | [] => s
    | k :: rest =>
      if !basinLive s b || x.retire.isSome then s
      else memFaults fs s fun s =>
        let s := updBasin s b fun x => { x with reloads := rest }
        if x.stOf k != .ready || x.passes.any (·.win) then s
        else match readTile s (basinCtx s b) (x.bank k) with
          | none => sourceChanged s b k
          | some (n, s) => if n.crc = (x.bank k).crc then setBank s b k fun _ => n else sourceChanged s b k

/-- The spare line that takes a failed place's work: a physical row for a cell while one remains, else a column; a tree's own line
(R165). None when the spares are used up (R167). -/
def spareFor (x : Basin) (loc : Nat) : Option (Bool × Nat) :=
  let rows := decide (x.rowsRetired.length < 8)
  let cols := decide (x.colsRetired.length < 8)
  let kind := loc / 2 ^ 20
  if kind < 3 then
    if rows then some (true, loc % 2 ^ 20 / 1024) else if cols then some (false, loc % 1024) else none
  else if kind = 3 then (if rows then some (true, loc % 1024) else none)
  else if cols then some (false, loc % 1024) else none

/-- BASIN_SUBSTITUTION (R165 to R167): the shadows of an accumulating pass reach the save region, the line of the failed place is retired,
and both banks are to be reloaded; `shadow` says that every shadow entry passes its parity. -/
def execBasinSubstitution (b : Nat) (s : State) (shadow : Bool := true) : Res :=
  .next <|
    let x := getBasin s b
    match x.retire with
    | none => s
    | some loc =>
      if !basinLive s b then s
      else
        let accum := x.replay.any fun r => (findRun x r.seq).any fun p => isAccum (pMode p.raw)
        match (if accum && !shadow then none else spareFor x loc) with
        | none => raise s 0x068 1 b (.basin b)
        | some (isRow, n) =>
          let s := if accum then wrCtx s (basinCtx s b) (accSaveAt s b) (cellBytes x.shAcc x.shStack) else s
          let s := updBasin s b fun x => { x with
            rowsRetired := if isRow then x.rowsRetired ++ [n] else x.rowsRetired
            colsRetired := if isRow then x.colsRetired else x.colsRetired ++ [n]
            retire := none, reloads := [0, 1]
            passes := x.passes.map fun p => { p with substituted := p.substituted || !p.allChecked } }
          raise (setBit s (oBsn b + 0x08) 6) 0x041 1 b (.basin b)

end Sys2Proof.Machine
end

