-- ==== Sys2Proof/Machine/Spout.lean ====
section
/-!
DEFINITION. What a spout does beside its stages: side rows, row stores, phase 2, delivery, held writes, grants, and the completion
of a pass (R194 to R197, R203, R206, R207, R262, R279, R282, R292, R294 to R296, R326, R333).
-/

namespace Sys2Proof.Machine

/-- Elements that leave the array per row of a pass. -/
def runElems (s : State) (b : Nat) (p : PassRun) : Nat :=
  outElems p.raw ((getBasin s b).bank p.bank).rcd.unpacked

/-- The pass reads side row `r` now: it has accepted the row, or drains it (R292). -/
def wantsSide (s : State) (b r : Nat) (d : PassDrain) : Bool :=
  readsSide (fFunc d.prof) && SMap.get [] d.side r == [] &&
    match findRun (getBasin s b) d.seq with
    | none => false
    | some p => (hasOutRows d.raw && decide (r < p.cursor)) || (!isKernel (fFunc d.prof) && decide (r < p.drain))

/-- SIDE_ROW_READ (R292): side row `row` of the oldest pass that waits for it has been read. -/
def execSideRowRead (b row : Nat) (s : State) (fs : List MemFault := []) : Res :=
  .next <|
    match (getSpout s b).passes.find? (wantsSide s b row) with
    | none => s
    | some d =>
      match findRun (getBasin s b) d.seq with
      | none => s
      | some p =>
        if !basinLive s b then s
        else memFaults fs s fun s =>
          let f := d.prof
          let n := runElems s b p
          let (bs, s) := rdCtx s d.ctx (fSide f + row * fSideStride f)
            (sideBytes (fSideFmt f) (if isGatedBwd (fFunc f) then 2 * n else n))
          let s := updDrain s b d.seq fun d => { d with side := SMap.put [] d.side row bs }
          pumpRows b d.seq d.waiting.length s

/-! Column groups (R294 to R296). -/

/-- ROW_STORE_ACQUIRE (R295): a column group takes a free row store and statistics file for its COLSEG 0 member. -/
def execRowStoreAcquire (b : Nat) (s : State) : Res :=
  .next <|
    match currentRun (getBasin s b) with
    | none => s
    | some p =>
      match findDrain s b p.seq with
      | none => s
      | some d =>
        let y := getSpout s b
        let used := (y.groups.filter (holdsStore y)).map (·.store)
        match leastBelow 2 fun n => !used.contains n with
        | none => s
        | some n =>
          if basinRuns s b && groupMember p.raw d.prof && fColseg d.prof == 0 && (groupIdx s b p.seq).isNone then
            let g : ColGroup :=
              { store := n, func := fFunc d.prof, count := fColCount d.prof, rows := pRows p.raw, next := 1, prof := d.prof
                members := [p.seq] }
            updSpout s b fun x => { x with groups := x.groups ++ [g] }
          else s

/-- ROW_KERNEL_PHASE2 (R296, R305): the next row of group `g`, once its last segment has completed phase 1; it waits for a destination
without credit. -/
def execRowKernelPhase2 (b g : Nat) (s : State) (fs : List MemFault := []) : Res :=
  .next <|
    match (getSpout s b).groups[g]? with
    | none => s
    | some x =>
      match x.members.head?.bind (findDrain s b) with
      | none => s
      | some d =>
        if basinRuns s b && !spoutHeld s b && x.next == x.count && decide (x.phase2 < x.rows) && SMap.get 0 x.segsIn x.phase2 == x.count then
          memFaults fs s fun s => phase2 s b g x d x.phase2
        else s

/-! Delivery (R193 to R195, R269, R271). -/

/-- Weir type of a delivered format (R100, R271). -/
def weirType (fmt : Nat) (int : Bool) : Nat :=
  if fmt = 0x18 then 0 else if fmt = 0x01 then 1 else if fmt = 0x19 then 2 else if fmt = 0x1A then 3
  else if int then 5 else 4

/-- The lines of a unit to a weir (R271, R360). -/
def unitLines (s : State) (b : Nat) (d : PassDrain) (u : DUnit) (addr fmt : Nat) : List WReq :=
  (List.range (ceilDiv u.data.length 64)).map fun l =>
    let va := addr + 64 * l
    { ctx := d.ctx, src := spoutEp b, va, addr := (physOf s d.ctx va true).getD va, op := 0
      ty := weirType fmt (pIsInt d.raw), mode := fWeirMode d.prof
      tag := if fWeirMode d.prof = 1 then fPart d.prof else 0, data := slice u.data (64 * l) 64 }

/-- The unit leaves the list: it has been sent whole. -/
def unitGone (s : State) (b k : Nat) (u : DUnit) : State :=
  let s := updSpout s b fun x => { x with units := x.units.eraseIdx k }
  if u.topk then bump s (oSpt b + 0x40) 1 else s

/-- Sends the next piece of a unit to a jet, when a credit is at hand (R195, R196). -/
def sendPiece (s : State) (b k : Nat) (u : DUnit) (n : Nat) : State :=
  match unitConn s b u with
  | none => s
  | some i =>
    if !connReady s (spoutEp b) i then s
    else
      let data := padTo 64 ((u.data.drop (1024 * u.sent)).take 1024)
      let s := connSend s (spoutEp b) i (2048 * u.sent + n % 2048) data
      if u.data.length ≤ 1024 * (u.sent + 1) then unitGone s b k u
      else updSpout s b fun x => { x with units := x.units.modify k fun u => { u with sent := u.sent + 1 } }

/-- Sends a completion message and closes its connection (R194, R206). -/
def sendNotice (s : State) (b k : Nat) : State :=
  match (getSpout s b).notes[k]? with
  | none => s
  | some (i, flit) =>
    if !connReady s (spoutEp b) i then s
    else
      let s := connSend s (spoutEp b) i 0x8000 flit
      connClose (updSpout s b fun x => { x with notes := x.notes.eraseIdx k }) (spoutEp b) i

/-- SPOUT_DELIVERY (R193, R195, R300): unit `k` of those that wait, the first of its pass, or completion message `k` less their
number. -/
def execSpoutDelivery (b k : Nat) (s : State) : Res :=
  .next <|
    if !basinLive s b then s
    else match (getSpout s b).units[k]? with
      | none => sendNotice s b (k - (getSpout s b).units.length)
      | some u =>
        match findDrain s b u.seq with
        | none => s
        | some d =>
          if ((getSpout s b).units.take k).any fun v => v.seq == u.seq then s
          else match u.dest with
            | .jet _ n => sendPiece s b k u n
            | .mem a => unitGone (wrCtx s d.ctx a u.data) b k u
            | .weir a fmt =>
              unitGone { s with mem := { s.mem with weirReqs := s.mem.weirReqs ++ unitLines s b d u a fmt } } b k u

/-! Grants (R49, R194, R196). -/

/-- A connection of a spout is refused: its pass completes with BAD_DESC, or its completion message is dropped (R196). -/
def spoutRefused (s : State) (b i : Nat) : State :=
  let s := setBit s (oSpt b + 4) 9
  let s := updSpout s b fun x => { x with notes := x.notes.filter fun n => n.1 != i }
  match (getBasin s b).passes.find? fun p => p.conns.any fun e => e.2.2 == i with
  | some p => itemFail s b p.seq .badDesc
  | none => s

/-- A grant or a refusal reaches a spout or the stack units. -/
def unitGrant (s : State) (g : Grant) : State :=
  let x := getConn s g.ep g.idx
  if g.granted then
    unitFree (updConn s g.ep g.idx fun x => { x with pending := false, credits := g.credits, largest := g.largest }) g.ep g.idx
  else
    let s := setBit (updConn s g.ep g.idx fun _ => {}) oRun 3
    if g.ep / 4096 = 7 then spoutRefused s (g.ep % 4096) g.idx else noteGrantRefused s g.ep x.dst x.ch

/-- CONNECTION_GRANT (R49, R50, R196): grant or refusal `k` on its way reaches its source. -/
def execConnectionGrant (k : Nat) (s : State) : Res :=
  .next <|
    match s.jets.grants[k]? with
    | none => s
    | some g =>
      let s := { s with jets := { s.jets with grants := s.jets.grants.eraseIdx k } }
      if g.ep / 4096 = 0 then jetGrant s g else unitGrant s g

/-! Held writes (R262, R326). -/

/-- No item in the queue and no pass in progress names profile `p`. -/
def profileFree (x : Basin) (p : Nat) : Bool :=
  !(x.queue.any fun i => isPass i && pProfile i.raw == p) && !(x.passes.any fun r => !r.win && pProfile r.raw == p)

/-- Slot count `a` comes before `b` in a ring. -/
def slotBefore (a b : Nat) : Bool :=
  let d := (BitVec.ofNat 32 b - BitVec.ofNat 32 a).toNat
  decide (0 < d) && decide (d < 2 ^ 31)

/-- An item that a BASIN_ITEMS command has not put into its queue yet names profile `p`. -/
def unmovedNames (m : Cmd) (b p : Nat) : Bool :=
  cmdOp m == 0x01 && leAt m.raw 8 1 == b && (List.range (leAt m.raw 9 1)).any fun i =>
    let r := slice m.raw (128 * (i + 1)) 128
    decide (m.moved ≤ i) && kindOf r == 1 && pProfile r == p

/-- Held write `k` applies when nothing names its index and no earlier write to it waits; its command completes. -/
def applyHeld (route : Bool) (b k : Nat) (s : State) : State :=
  match (getSpout s b).heldWrites[k]? with
  | none => s
  | some (r, p, data, slot) =>
    let before := (getSpout s b).heldWrites.take k
    if r != route || before.any (fun h => h.1 == r && h.2.1 == p) || !profileFree (getBasin s b) p
        || (getCtx s (basinCtx s b)).cmds.any (fun m => slotBefore m.slot slot && unmovedNames m b p)
        || (getBasin s b).lease.isNone || !unitsRun s then s
    else
      let s := updSpout s b fun x => { x with
        heldWrites := x.heldWrites.eraseIdx k
        profiles := if route then x.profiles else SMap.put [] x.profiles p data
        routes := if route then SMap.put [] x.routes p data else x.routes }
      completeCmd s (basinCtx s b) slot

/-- PROFILE_APPLIED (R262). -/
def execProfileApplied (b k : Nat) (s : State) : Res := .next (applyHeld false b k s)
/-- ROUTE_APPLIED (R326). -/
def execRouteApplied (b k : Nat) (s : State) : Res := .next (applyHeld true b k s)

/-! The completion of a pass (R203, R206, R207, R279, R282, R333). -/

/-- A unit of work of the spout still waits for a pass. -/
def spoutBusy (s : State) (b : Nat) (p : PassRun) (d : PassDrain) : Bool :=
  !d.waiting.isEmpty || (getSpout s b).units.any (fun u => u.seq == p.seq)
    || s.mem.weirReqs.any (fun r => r.src == spoutEp b)
    || s.jets.msgs.any fun m => m.src == spoutEp b && p.conns.any fun e => e.2.2 == m.srcIdx

/-- The last member of a column group: its group, and whether phase 2 is done (R300). -/
def groupDone (s : State) (b : Nat) (p : PassRun) (d : PassDrain) : Bool :=
  if groupMember p.raw d.prof && fColseg d.prof + 1 == fColCount d.prof then
    match (groupIdx s b p.seq).bind fun i => (getSpout s b).groups[i]? with
    | some g => g.phase2 == g.rows
    | none => false
  else true

/-- Every row has passed its checks, every output has been delivered, and the drain has completed (R203). -/
def passDone (s : State) (b : Nat) (p : PassRun) : Bool :=
  match findDrain s b p.seq with
  | none => false
  | some d => !p.win && p.allChecked && (!pDrain p.raw || p.drained) && !spoutBusy s b p d && groupDone s b p d

/-- Merges the pass into its record (R279). -/
def mergeRecord (s : State) (d : PassDrain) : State :=
  let i := fScaleRec d.prof
  if i = 0xFFFF then s
  else
    let a := recAddr s d.ctx i
    let (r, s) := rdCtx s d.ctx a recLen
    wrCtx s d.ctx a (recMerge r d.amax d.counts)

/-- The statistics block of a routed pass, and its ledger records (R333). -/
def routeStats (s : State) (b : Nat) (d : PassDrain) : State :=
  if rtEnable d.route && (deliversRows d.raw d.prof || pDrain d.raw) then
    let g := match (groupIdx s b d.seq).bind fun i => (getSpout s b).groups[i]? with
      | some g => g.routing
      | none => d.routing
    let who := toLe 1 b ++ toLe 1 (pProfile d.raw)
    let s := wrCtx s d.ctx (rtStats d.route) (statsBlock d.route g)
    ledgerRecord (ledgerRecord s 0x012 g.dropped who) 0x013 g.deferFull who
  else s

/-- GROUP-scope records that the context's step has touched (R440). -/
def groupTouched (s : State) (c : Nat) : List Nat :=
  (List.range (getCtx s c).scaleLen).filter fun i =>
    SMap.get 0 (getCtx s c).scopes i == 2 && (recFlags (rdCtx s c (recAddr s c i) 2).1).testBit 3

/-- The pass's completion would make its step touch more than 16,384 GROUP-scope records (R440). -/
def tooManyRecs (s : State) (d : PassDrain) : Bool :=
  let i := fScaleRec d.prof
  i != 0xFFFF && fGroup d.prof && decide (16384 ≤ ((groupTouched s d.ctx).filter (· != i)).length)

/-- The pass has completed. -/
def completePass (s : State) (b : Nat) (p : PassRun) (d : PassDrain) : State :=
  let raw := p.raw
  let s := if d.replayStep && 0 < d.counts.getD 4 0 then spoutPoison s b d.ctx else s
  let s := noteScope (routeStats (mergeRecord s d) b d) d.ctx d.prof
  let s := countLongsum (ledgerRecord s 0x010 (pRows raw) (toLe 1 b)) b p.longsum
  let last := groupMember raw d.prof && fColseg d.prof + 1 == fColCount d.prof
  let s := updSpout s b fun x => { x with
    passes := x.passes.filter fun e => e.seq != p.seq
    groups := if last then x.groups.filter fun g => !g.members.contains p.seq else x.groups }
  let s := updBasin s b fun x => { x with passes := x.passes.filter fun e => e.seq != p.seq }
  let s := itemOut s b p.seq (pCompEn raw) (pCompCtr raw)
  let note := if pNotify raw then passConn p.conns (pNotifyJet raw) (pNotifyChan raw) else none
  let s := match note with
    | none => s
    | some i => sendNote s b i
        (completionFlit p.seq 0 (b2n p.replayed + 2 * b2n (p.longsum != 0) + 4 * b2n p.substituted) p.cursor)
  haltQueue (closeConns s b (p.conns.filter fun e => some e.2.2 != note)) b

/-- PASS_COMPLETE (R203, R440): the oldest pass that has done everything completes. -/
def execPassComplete (b : Nat) (s : State) (fs : List MemFault := []) : Res :=
  .next <|
    match (getBasin s b).passes.find? (passDone s b) with
    | none => s
    | some p =>
      match findDrain s b p.seq with
      | none => s
      | some d =>
        if !basinLive s b then s
        else memFaults fs s fun s => if tooManyRecs s d then itemFail s b p.seq .badDesc else completePass s b p d

end Sys2Proof.Machine
end

