-- ==== Sys2Proof/Machine/Contexts.lean ====
section
/-!
DEFINITION. Which context runs: grants, pre-emption, saving and resumption of terraces and basins (R67 to R70, R152 to R154, R305, R334,
R344, R545 to R547).
-/

namespace Sys2Proof.Machine

/-! The units of a context. -/

def heldTerraces (s : State) (c : Nat) : List Nat := (List.range 8).filter (holdsTerrace s c)
def heldBasins (s : State) (c : Nat) : List Nat := (List.range 6).filter fun b => (getBasin s b).lease == some c

def claimedTerraces (x : Ctx) : List Nat := (List.range 8).filter (bitB x.lease.terraces)
def claimedBasins (x : Ctx) : List Nat := (List.range 6).filter (bitB x.lease.basins)

/-- A lease that claims neither a terrace nor a basin. -/
def noUnits (x : Ctx) : Bool := (claimedTerraces x).isEmpty && (claimedBasins x).isEmpty

/-- Two leases claim one unit. -/
def sharesUnit (x y : Ctx) : Bool :=
  (claimedTerraces x).any (claimedTerraces y).contains || (claimedBasins x).any (claimedBasins y).contains

/-- An endpoint of one of the jets, row ports or spouts of these units. -/
def ofUnits (ts bs : List Nat) (ep : Nat) : Bool :=
  let i := ep % 4096
  if ep / 4096 = 0 then ts.contains (i / 512)
  else if ep / 4096 = 1 then bs.contains (i / 16)
  else if ep / 4096 = 7 then bs.contains i
  else false

/-- Nothing is on its way to or from the units: messages, requests, grants, credits, weir lines (R68). -/
def trafficClear (s : State) (ts bs : List Nat) : Bool :=
  let u := ofUnits ts bs
  s.jets.msgs.all (fun m => !u m.src && !u m.dst)
  && s.jets.reqs.all (fun r => !u r.src && !u r.dst)
  && s.jets.grants.all (fun g => !u g.ep && !u (getConn s g.ep g.idx).dst)
  && s.jets.credits.all (fun k => !u k.1 && !u (getConn s k.1 k.2).dst)
  && s.jets.conns.all (fun e => !u (e.1 / 65536) || e.2.out.isEmpty)
  && s.mem.weirReqs.all fun r => !u r.src

/-! What the units hold. -/

/-- The key of an entry of a send table belongs to the units: its endpoint, or the jet it reaches. -/
def connOf (ts bs : List Nat) (e : Nat × Conn) : Bool := ofUnits ts bs (e.1 / 65536) || ofUnits ts bs e.2.dst

def barOf (ts : List Nat) (k : Nat) : Bool :=
  let owner := k / 2 ^ 16 % 2 ^ 16
  (k / 2 ^ 32 == 0 && ts.contains (owner / 512)) || (k / 2 ^ 32 == 1 && ts.contains owner)

/-- The jet and the offset of an address of jet-local memory. -/
def jlmJet (a : Nat) : Nat := (a - 0x200000000000) / 0x100000

def inJlm (ts : List Nat) (a : Nat) : Bool :=
  decide (0x200000000000 ≤ a) && decide (a < 0x200100000000) && ts.contains (jlmJet a / 512)

/-- All that the units hold, with the jet-local memory below `e` bytes of each jet. -/
def capture (s : State) (ts bs : List Nat) (e : Nat) : Save :=
  let jet (j : Nat) : Bool := ts.contains (j / 512)
  { threads := (s.jets.threads.filter fun x => jet (x.1 / 256)).map fun x => (x.1, stopThread x.2)
    chans := s.jets.chans.filter fun x => jet (x.1 / 256)
    conns := s.jets.conns.filter (connOf ts bs)
    bars := s.jets.bars.filter fun x => barOf ts x.1
    ports := s.jets.ports.filter fun x => bs.contains (x.1 / 16)
    jlm := s.mem.cells.filter fun x => inJlm ts x.1 && decide (x.1 % 0x100000 < e)
    held := s.jets.held.filter fun r => ofUnits ts bs r.dst
    chanter := (s.host.ports.flatMap fun p => p.2.conns).filter fun x => ofUnits ts bs x.1
    icache := s.jets.icache.filter fun x => jet (x.1 / 2 ^ 48)
    basins := s.basins.filter fun x => bs.contains x.1
    spouts := s.spouts.filter fun x => bs.contains x.1 }

/-- A basin that no context holds (R170); what is physical in it stays. -/
def bareBasin (x : Basin) : Basin :=
  { rowsRetired := x.rowsRetired, colsRetired := x.colsRetired, journal := x.journal, slotPhase := x.slotPhase }

/-- The units hold nothing and no context holds them: jet-local memory reads as zero (R344). -/
def clearUnits (s : State) (ts bs : List Nat) : State :=
  let jet (j : Nat) : Bool := ts.contains (j / 512)
  let s := { s with
    jets := { s.jets with
      threads := SMap.clear (fun k => jet (k / 256)) s.jets.threads
      chans := SMap.clear (fun k => jet (k / 256)) s.jets.chans
      conns := s.jets.conns.filter fun e => !connOf ts bs e
      bars := SMap.clear (barOf ts) s.jets.bars
      ports := SMap.clear (fun k => bs.contains (k / 16)) s.jets.ports
      held := s.jets.held.filter fun r => !ofUnits ts bs r.dst
      icache := SMap.clear (fun k => jet (k / 2 ^ 48)) s.jets.icache }
    mem := { s.mem with cells := SMap.clear (inJlm ts) s.mem.cells }
    host := { s.host with ports := s.host.ports.map fun p =>
      (p.1, { p.2 with conns := p.2.conns.filter fun x => !ofUnits ts bs x.1 }) }
    spouts := SMap.clear (fun k => bs.contains k) s.spouts }
  let s := ts.foldl (fun s t => updTerrace s t fun x => { x with lease := none, stopped := false }) s
  bs.foldl (fun s b => updBasin s b bareBasin) s

/-- A map with the entries of another put over it. -/
def putAll {α : Type} [DecidableEq α] (d : α) (m saved : SMap α) : SMap α := saved.foldl (fun m e => SMap.put d m e.1 e.2) m

/-- A context takes units that nobody holds, empty (R170, R344). -/
def grantUnits (s : State) (c : Nat) (stopped : Bool) : State :=
  let x := getCtx s c
  let ts := claimedTerraces x
  let bs := claimedBasins x
  let s := clearUnits s ts bs
  let s := ts.foldl (fun s t => updTerrace s t fun x => { x with lease := some c, stopped }) s
  bs.foldl (fun s b => updBasin s b fun y => { y with lease := some c, stopped, feedSources := x.lease.feedSources }) s

/-- A saved basin returns to a physical one. -/
def putBasin (c : Nat) (s : State) (e : Nat × Basin) : State :=
  updBasin s e.1 fun y => { e.2 with
    rowsRetired := y.rowsRetired, colsRetired := y.colsRetired, journal := y.journal, slotPhase := y.slotPhase, lease := some c, stopped := y.stopped }

/-- Puts back what the granted units held. -/
def attach (s : State) (c : Nat) (v : Save) : State :=
  let p := (portOf s c).getD 0
  let s := { s with
    jets := { s.jets with
      threads := putAll {} s.jets.threads (v.threads.map fun x => (x.1, resumeThread x.2))
      chans := putAll {} s.jets.chans v.chans
      conns := putAll {} s.jets.conns v.conns
      bars := putAll {} s.jets.bars v.bars
      ports := putAll {} s.jets.ports v.ports
      held := s.jets.held ++ v.held
      icache := putAll none s.jets.icache v.icache }
    mem := { s.mem with cells := putAll 0 s.mem.cells v.jlm }
    spouts := putAll {} s.spouts v.spouts }
  let s := updPort s p fun q => { q with conns := q.conns ++ v.chanter }
  v.basins.foldl (putBasin c) s

/-! Which context runs (R545 to R547). -/

/-- READY, and not held back by a window or a recovery. -/
def readyNow (s : State) (c : Nat) : Bool :=
  let x := getCtx s c
  x.st == .ready && x.window.isNone && (!x.eval || x.windowOpen) && !heldByRecovery s c

/-- A command that has not completed. -/
def hasCommand (x : Ctx) : Bool := !x.cmds.isEmpty || x.head != x.tail

/-- A unit is free for a context, or another context that does not run holds it. -/
def unitAt (s : State) (c : Nat) (holder : Option Nat) : Bool :=
  match holder with
  | none => true
  | some d => d == c || (getCtx s d).st != .running

/-- The context could run now. -/
def couldRun (s : State) (c : Nat) : Bool :=
  let x := getCtx s c
  readyNow s c && (hasCommand x || x.saved)
  && (claimedTerraces x).all (fun t => unitAt s c (getTerrace s t).lease)
  && (claimedBasins x).all fun b => unitAt s c (getBasin s b).lease

/-- Context `d` goes before `c`: priority, the time it has been READY, its number. -/
def goesBefore (s : State) (d c : Nat) : Bool :=
  let x := getCtx s d
  let y := getCtx s c
  decide (y.priority < x.priority)
  || (x.priority == y.priority && (decide (x.readySince < y.readySince) || (x.readySince == y.readySince && decide (d < c))))

/-- A RUNNING context yields (R545, R547), or a SUSPEND waits for it. -/
def mustYield (s : State) (c : Nat) : Bool :=
  let x := getCtx s c
  let after (d : Nat) : Bool :=
    let y := getCtx s d
    readyNow s d && sharesUnit x y &&
      (decide (x.priority < y.priority) || (x.expired && x.priority == y.priority) || !hasCommand x || x.window == some d)
  x.st == .running && !heldByRecovery s c && (x.suspending || (x.eval && !x.windowOpen) || (!noUnits x && (created s).any after))

/-! Basins (R152 to R154). -/

/-- The basin is at a row boundary, and no replay or substitution is in progress. -/
def atBoundary (x : Basin) : Bool :=
  ((currentRun x).all fun p => p.partCount == 0) && x.replay.isEmpty && x.replayLeft == 0 && x.reloads.isEmpty && x.retire.isNone

/-- The basin accepts no more rows; a load in progress is abandoned, to start again after resumption. -/
def stopBasin (s : State) (b : Nat) : State :=
  let x := getBasin s b
  let drop (k : Bank) : Bank := if k.st == .loading then {} else k
  let again (i : Item) : Item := if some i.seq = x.loading then { i with started := false } else i
  updBasin s b fun y => { y with
    stopped := true, loading := none, loadPending := x.loading.isSome, bank0 := drop y.bank0, bank1 := drop y.bank1, queue := y.queue.map again }

/-- BASIN_PREEMPT (R152, R154): the basin of a context that yields stops at a row boundary. -/
def execBasinPreempt (b : Nat) (s : State) : Res :=
  .next <|
    let x := getBasin s b
    match x.lease with
    | none => s
    | some c => if b < 6 && unitsRun s && mustYield s c && !x.stopped && atBoundary x then stopBasin s b else s

/-- Rows of a zero-row marker in a reduction pass, whose rest a save can take with it (R319). -/
def savedRow (x : Basin) (r : ArrRow) : Bool := r.marker && (findRun x r.seq).all fun p => !isAccum (pMode p.raw)

/-- Every row accepted before the stop has left and its output is delivered, but for messages that have no credit (R152; log entry 47). -/
def basinQuiet (s : State) (b : Nat) : Bool :=
  let x := getBasin s b
  let y := getSpout s b
  let waits (i : Option Nat) : Bool := i.any fun i => !connReady s (spoutEp b) i
  x.stopped && x.array.all (savedRow x) && x.replay.isEmpty && x.drains.isEmpty && !x.token && x.retire.isNone
  && x.passes.all (fun p => p.drain == 0 || p.drained)
  && y.passes.all (fun d => d.waiting.isEmpty)
  && y.units.all (fun u => waits (unitConn s b u))
  && y.notes.all fun n => waits (some n.1)

/-- The 4 KiB header of a basin (R153, R319; its layout: log entry 12): row cursor, next item, bank select, bank states, CRC-32C values and
sources, term counter, the replay segment's first row, slots and failures, the feed units left of a marker, and the K-tiling groups (R208). -/
def basinHeader (x : Basin) : List Byte :=
  let st (k : Bank) : List Byte := toLe 1 (match k.st with
    | .empty => 0
    | .loading => 1
    | .ready => 2)
  let run : PassRun := ((currentRun x).orElse fun _ => x.passes.getLast?).getD { seq := 0, raw := [], bank := 0 }
  let seq := match x.queue.head? with
    | some i => i.seq
    | none => x.nextSeq
  let left := ((x.array.filter fun r => !r.masked).map (·.zeros)).sum / termsPerUnit run.raw
  slice (toLe 8 x.cursor.toNat ++ toLe 4 seq.toNat ++ toLe 1 x.sel ++ toLe 1 (b2n x.loadPending) ++ st x.bank0 ++ st x.bank1
    ++ toLe 4 x.bank0.crc.toNat ++ toLe 4 x.bank1.crc.toNat ++ toLe 8 x.bank0.src ++ toLe 8 x.bank1.src ++ toLe 8 x.terms
    ++ toLe 8 run.segRow ++ toLe 4 run.segSlots ++ toLe 4 (run.fails.filter fun f => f.1 == run.segNo).length ++ toLe 8 left
    ++ (List.range 4).flatMap fun k => let g := SMap.get {} x.groups k; toLe 1 (b2n g.opened) ++ toLe 7 g.next) 0 4096

/-- The basin saves its state: a stopped routed pass writes its admission counters (R334). -/
def saveRouting (s : State) (b : Nat) : State :=
  (getSpout s b).passes.foldl (fun s d =>
    if rtEnable d.route && (deliversRows d.raw d.prof || pDrain d.raw) then
      let g := match (groupIdx s b d.seq).bind fun i => (getSpout s b).groups[i]? with
        | some g => g.routing
        | none => d.routing
      wrCtx s d.ctx (rtStats d.route + 64) ((statsBlock d.route g).drop 64)
    else s) s

/-- BASIN_RESUME (R143, R154): both banks are to be read again, and the basin goes on at its row cursor. -/
def execBasinResume (b : Nat) (s : State) : Res :=
  .next <|
    let x := getBasin s b
    match x.lease with
    | none => s
    | some c =>
      let y := getCtx s c
      if b < 6 && unitsRun s && x.stopped && y.st == .running && !y.saved && !mustYield s c then
        updBasin s b fun x => { x with stopped := false, loadPending := false, reloads := [0, 1] }
      else s

/-! Terraces (R68 to R70). -/

/-- `n` open bytes from an address of a context: what the manual does not lay out of a save area (log entry 12). -/
def scramble (s : State) (c va n : Nat) : State :=
  fresh (wrCtx s c va ((List.range n).map fun i => Config.freeByte s.free (va + i)))

/-- Bytes of a save area (R544). -/
def saveBytes (x : Ctx) : Nat :=
  65536 + (claimedTerraces x).length * (20971520 + 524288 * (64 * x.lease.extent)) + (claimedBasins x).length * 4849664

/-- A basin writes its header, and an accumulation that is not drained (R153). -/
def saveBasin (s : State) (c b : Nat) : State :=
  let l := (getCtx s c).lease
  let x := getBasin s b
  let s := wrCtx (saveRouting s b) c (jlmBase l.controlJet + 4096 * (l.headerOff + b)) (basinHeader x)
  if x.terms ≠ 0 then wrCtx s c (accSaveAt s b) (cellBytes x.acc x.stack) else s

/-- The save records of terraces, basins and spouts reach memory (R68, R153, R305). -/
def writeSaves (s : State) (c : Nat) : State :=
  let x := getCtx s c
  let s := (claimedBasins x).foldl (fun s b => saveBasin s c b) s
  scramble s c x.saveAddr (saveBytes x)

/-- A context that has stopped is READY, or SUSPENDED where a SUSPEND asked for it. -/
def yielded (s : State) (c : Nat) : State :=
  let x := getCtx s c
  let s' := updCtx s c fun x => { x with
    st := if x.suspending then .suspended else .ready, suspending := false, expired := false, readySince := s.ticks }
  if x.suspending then adminDone s' ((portOf s c).getD 0) 0 else s'

/-- TERRACE_PREEMPT (R68, R69, R153, R305): the stopped units of a context that yields are saved and released. A context whose save area
has not been restored yet gives its units back. -/
def execTerracePreempt (ctx : Nat) (s : State) : Res :=
  .next <|
    let x := getCtx s ctx
    let ts := heldTerraces s ctx
    let bs := heldBasins s ctx
    let quiet := trafficClear s ts bs && bs.all (basinQuiet s)
      && s.jets.threads.all fun e => !ts.contains (e.1 / 256 / 512) || accessesDone e.2
    if !unitsRun s || !mustYield s ctx then s
    else if noUnits x || x.saved then yielded (clearUnits s ts bs) ctx
    else if quiet then
      let s := writeSaves s ctx
      let v := capture s ts bs (65536 * x.lease.extent)
      yielded (updCtx (clearUnits s ts bs) ctx fun x => { x with saved := true, save := some v }) ctx
    else s

/-- The memory of each jet above the save extent is open after a resumption (R69). -/
def openAbove (s : State) (ts : List Nat) (e : Nat) : State :=
  let js := ts.flatMap fun t => (List.range 512).map fun j => 512 * t + j
  fresh (js.foldl (fun s' j =>
    let a := jlmBase j + e
    writePhys s' a ((List.range (0x80000 - e)).map fun i => Config.freeByte s.free (a + i))) s)

/-- CONTEXT_RESUME (R69, R70, R305, R334): a context that has been granted its units again is restored, and its threads continue; its
basins follow with BASIN_RESUME. -/
def execContextResume (ctx : Nat) (s : State) : Res :=
  .next <|
    let x := getCtx s ctx
    match x.save with
    | none => s
    | some v =>
      if !unitsRun s || x.st != .running || !x.saved then s
      else
        let ts := claimedTerraces x
        let s := attach (openAbove s ts (65536 * x.lease.extent)) ctx v
        let s := ts.foldl (fun s t => updTerrace s t fun x => { x with stopped := false }) s
        let s := updCtx s ctx fun x => { x with saved := false, save := none }
        (List.range 16).foldl (fun s b => wakeBar s (barKey 3 0 b)) s

/-- Moves what a context that does not run holds out of its units (log entry 45). -/
def displace (s : State) (d : Nat) : State :=
  let ts := heldTerraces s d
  let bs := heldBasins s d
  let v := capture s ts bs 0x80000
  updCtx (clearUnits s ts bs) d fun x => { x with kept := some v }

/-- Holders, other than `c`, of the units that it claims. -/
def holders (s : State) (c : Nat) : List Nat :=
  let x := getCtx s c
  let ds := (claimedTerraces x).map (fun t => (getTerrace s t).lease) ++ (claimedBasins x).map fun b => (getBasin s b).lease
  addIds [] ((ds.filterMap id).filter (· != c))

/-- A context takes its units: empty, as it left them, or to be restored. -/
def takeUnits (s : State) (c : Nat) : State :=
  let x := getCtx s c
  let s := (holders s c).foldl displace s
  let ts := heldTerraces s c
  let bs := heldBasins s c
  if x.saved then grantUnits s c true
  else
    match x.kept with
    | some v =>
      let s := updCtx (attach (grantUnits s c false) c v) c fun x => { x with kept := none }
      (List.range 16).foldl (fun s b => wakeBar s (barKey 3 0 b)) s
    | none =>
      if ts == claimedTerraces x && bs == claimedBasins x then
        let s := ts.foldl (fun s t => updTerrace s t fun x => { x with stopped := false }) s
        bs.foldl (fun s b => updBasin s b fun x => { x with stopped := false }) s
      else grantUnits s c false

/-- CONTEXT_SCHEDULE (R545 to R547): the context that goes first among those that could run is granted its units and becomes RUNNING. -/
def execContextSchedule (ctx : Nat) (s : State) : Res :=
  .next <|
    let x := getCtx s ctx
    let first := !(created s).any fun d => d != ctx && couldRun s d && goesBefore s d ctx
    if unitsRun s && couldRun s ctx && first && trafficClear s (claimedTerraces x) (claimedBasins x) then
      updCtx (takeUnits s ctx) ctx fun x => { x with st := .running, expired := false }
    else s

/-- QUANTUM_EXPIRY (R545). -/
def execQuantumExpiry (ctx : Nat) (s : State) : Res :=
  .next <|
    let x := getCtx s ctx
    if x.st == .running && x.quantum != 0 then updCtx s ctx fun x => { x with expired := true } else s

/-! The end of a lease (R170, R344, R346, R370). -/

/-- Slices of a context. -/
def heldSlices (s : State) (c : Nat) : List Nat := (s.mem.slices.filter fun e => e.2.lease == some c).map (·.1)

/-- A slice's lease ends: dirty lines are written back, and it reads as zero. -/
def freeSlice (s : State) (n : Nat) : State := updSlice (zeroPhys (flushSlice s n) (sliceBase n) 0x2000000) n fun _ => {}

/-- The lease ends: every unit, slice and region entry is free. -/
def endLease (s : State) (c : Nat) : State :=
  let s := clearUnits s (heldTerraces s c) (heldBasins s c)
  let s := (heldSlices s c).foldl freeSlice s
  let s := { s with mem := { s.mem with regions := s.mem.regions.filter fun e => (e.2.map (·.ctx)) != some c } }
  updCtx s c fun x => { x with lease := {}, kept := none }

end Sys2Proof.Machine
end

