-- ==== Sys2Proof/Machine/Admin.lean ====
section
/-!
DEFINITION. The admin interface of the host ports (R442, R537, R542 to R544, R548, R551, R552, R568).
-/

namespace Sys2Proof.Machine

/-! Operations (R542). -/

/-- The CODE values of HIF_ADMIN_STATUS, and the model's own code of an operation that stays BUSY. -/
def cdOk : Nat := 0
def cdBadArg : Nat := 1
def cdBadState : Nat := 2
def cdNoResource : Nat := 3
def cdNotPlatform : Nat := 4
def cdRefused : Nat := 5
def cdPending : Nat := 8

/-- The operation of a port: HIF_ADMIN_CMD_0 to HIF_ADMIN_CMD_15. -/
def adminBytes (s : State) (p : Nat) : List Byte := (List.range 16).flatMap fun n => toLe 4 (regOf s (oHif p + 0x100 + 4 * n))

def admOp (m : List Byte) : Nat := leAt m 0 1
def admCtx (m : List Byte) : Nat := leAt m 2 2

/-- A copy still reads the context's blocks (R401, R548). -/
def copyReads (s : State) (c : Nat) : Bool :=
  s.sluice.snaps.any (fun z => z.ctx == c) || s.sluice.buddy.any fun b => b.ctxs.contains c

/-- Frames of a context. -/
def framesOf (s : State) (c : Nat) : List Nat := (s.host.frames.filter fun e => e.2 == c + 1).map (·.1)

/-- What is left of a context that has halted and whose copies have ended: nothing (R548). -/
def finishDestroy (s : State) (c : Nat) : State :=
  let s := endLease s c
  let s := (framesOf s c).foldl (fun s f => zeroPhys s (f * 2 ^ 21) (2 ^ 21)) s
  let s := { s with
    host := { s.host with frames := s.host.frames.filter fun e => e.2 != c + 1 }
    jets := { s.jets with bars := SMap.clear (fun k => k / 2 ^ 32 == 2 && k / 2 ^ 16 % 2 ^ 16 == c) s.jets.bars }
    mem := { s.mem with
      weirReqs := s.mem.weirReqs.filter fun r => r.ctx != c
      notes := s.mem.notes.filter fun n => n.ctx != c }
    sluice := { s.sluice with
      blocks := SMap.clear (fun k => k / 16384 == c) s.sluice.blocks
      roots := SMap.clear (fun k => k / 32768 == c) s.sluice.roots
      schedules := SMap.put [] s.sluice.schedules c []
      commits := s.sluice.commits.filter fun m => m.ctx != c
      operands := s.sluice.operands.filter fun e => e.1 != c }
    links := { s.links with
      colls := s.links.colls.filter fun m => m.ctx != c
      early := s.links.early.filter fun m => m.1 != c } }
  settle (updCtx s c fun _ => {})

/-- A destroyed context is FREE once no copy reads its blocks. -/
def destroyWhenFree (s : State) (c : Nat) : State := if copyReads s c then s else finishDestroy s c

/-- The operation's bytes from one to another are 0 (R14). -/
def admZero (m : List Byte) (lo hi : Nat) : Bool := leAt m lo (hi + 1 - lo) == 0

/-- The fields of CTX_CREATE are in range (R543). -/
def createOk (s : State) (p c : Nat) (m : List Byte) : Bool :=
  let eval := bitB (leAt m 4 1) 1
  let other := getCtx s (leAt m 10 2)
  let ring := leAt m 16 8
  let pt := leAt m 40 8
  decide (leAt m 4 1 < 32) && decide (4 ≤ leAt m 5 1) && decide (leAt m 5 1 ≤ 20) && decide (4 ≤ leAt m 6 1)
  && decide (leAt m 6 1 ≤ 16) && leAt m 7 1 == 0 && leAt m 8 2 != 0 && decide (leAt m 12 4 ≤ 1000000)
  && bits ring 62 48 == 0 && bits ring 47 0 % 128 == 0 && leAt m 24 8 % 64 == 0
  && leAt m 32 8 % 4096 == 0 && decide (leAt m 32 8 < 0x6000000000)
  && pt % 4096 == 0 && frameOwner s (pt / 2 ^ 21) == c + 1 && admZero m 48 63
  && (!eval || (portOf s (leAt m 10 2) == some p && other.st != .free && !other.eval))
  && !(created s).any fun d => d != c && (getCtx s d).fabric && (getCtx s d).job == leAt m 8 2

/-- The context that CTX_CREATE makes. -/
def newCtx (s : State) (m : List Byte) : Ctx :=
  { st := .ready, fabric := bitB (leAt m 4 1) 0, eval := bitB (leAt m 4 1) 1, priority := bits (leAt m 4 1) 4 2
    ringLog2 := leAt m 5 1, evqLog2 := leAt m 6 1, job := leAt m 8 2, evalOf := leAt m 10 2, quantum := leAt m 12 4
    ringBase := bits (leAt m 16 8) 47 0, ringHost := !bitB (leAt m 16 8) 63, evqBase := leAt m 24 8, saveAddr := leAt m 32 8
    ptRoot := leAt m 40 8, readySince := s.ticks }

def opCreate (s : State) (p c : Nat) (m : List Byte) : Nat × State :=
  if (getCtx s c).st != .free then (cdBadState, s)
  else if !createOk s p c m then (cdBadArg, s)
  else (cdOk, updCtx s c fun _ => newCtx s m)

/-- The lease that a LEASE operation names. -/
def leaseOf (m : List Byte) : Lease :=
  { terraces := leAt m 4 1, basins := leAt m 5 1, extent := leAt m 6 1, feedSources := leAt m 7 1, slices := leAt m 8 8
    cache := leAt m 16 8, controlJet := leAt m 24 2, headerOff := leAt m 26 1, regionFirst := leAt m 28 2
    regionCount := leAt m 30 2, accSave := leAt m 32 8 }

/-- A range lies in the SCRATCH slices of a lease. -/
def inScratch (l : Lease) (a n : Nat) : Bool :=
  n == 0 || (decide (sliceBase 0 ≤ a) && decide (a + n ≤ sliceBase 58) &&
    (partsOf 0x2000000 a n).all fun q => bitB l.slices ((q.1 - sliceBase 0) / 0x2000000) && !bitB l.cache ((q.1 - sliceBase 0) / 0x2000000))

/-- The fields of LEASE are in range (R544). -/
def leaseFieldsOk (s : State) (p c : Nat) (m : List Byte) : Bool :=
  let l := leaseOf m
  let q := getPort s p
  let x := getCtx s c
  let n := (claimedBasins { lease := l }).length
  onlyBits l.terraces q.terraces && onlyBits l.basins q.basins && onlyBits l.slices q.slices && onlyBits l.cache l.slices
  && decide (1 ≤ l.extent) && decide (l.extent ≤ 8) && decide (l.feedSources ≤ 5) && leAt m 27 1 == 0 && admZero m 40 63
  && decide (l.regionCount ≤ 1024) && decide (l.regionFirst + l.regionCount ≤ 1024) && l.accSave % 64 == 0
  && decide (4 * l.headerOff + 24 ≤ 64 * l.extent)
  && (n == 0 || (decide (l.controlJet < 4096) && bitB l.terraces (l.controlJet / 512)))
  && inScratch l l.accSave (22282240 * n)
  && (!x.eval || (onlyBits l.terraces (getCtx s x.evalOf).lease.terraces && onlyBits l.basins (getCtx s x.evalOf).lease.basins
      && l.slices == 0 && l.regionCount == 0))

/-- Another context holds one of the slices or region entries. -/
def leaseTaken (s : State) (c : Nat) (l : Lease) : Bool :=
  (created s).any fun d =>
    let k := (getCtx s d).lease
    d != c && (k.slices &&& l.slices != 0 ||
      (decide (k.regionFirst < l.regionFirst + l.regionCount) && decide (l.regionFirst < k.regionFirst + k.regionCount)
       && k.regionCount != 0 && l.regionCount != 0))

/-- Slices are granted, and read as zero (R346). -/
def grantSlices (s : State) (c : Nat) (l : Lease) : State :=
  ((List.range 58).filter (bitB l.slices)).foldl (fun s n =>
    updSlice (zeroPhys s (sliceBase n) 0x2000000) n fun _ => { lease := some c, cache := bitB l.cache n }) s

def opLease (s : State) (p c : Nat) (m : List Byte) : Nat × State :=
  let x := getCtx s c
  if (x.st != .ready && x.st != .halted) || x.saved || x.cmds.any (·.started) then (cdBadState, s)
  else if !leaseFieldsOk s p c m then (cdBadArg, s)
  else if leaseTaken s c (leaseOf m) then (cdNoResource, s)
  else (cdOk, settle (updCtx (grantSlices (endLease s c) c (leaseOf m)) c fun x => { x with lease := leaseOf m }))

/-- Zeroes the frames, then assigns them (R542); for a FREE context too, since CTX_CREATE needs them (R543; log entry 48). -/
def opFrames (s : State) (p c : Nat) (m : List Byte) : Nat × State :=
  let q := getPort s p
  let f := leAt m 4 4
  let n := leAt m 8 4
  if !admZero m 12 63 then (cdBadArg, s)
  else if f < q.frameFirst || q.frameFirst + q.frameCount < f + n || !allBelow n (fun i => frameOwner s (f + i) == 0) then
    (cdNoResource, s)
  else
    let s := zeroPhys s (f * 2 ^ 21) (n * 2 ^ 21)
    (cdOk, { s with host := { s.host with frames := (List.range n).foldl (fun t i => SMap.put 0 t (f + i) (c + 1)) s.host.frames } })

def opWindow (s : State) (c : Nat) (m : List Byte) : Nat × State :=
  if (getCtx s c).st == .free then (cdBadState, s)
  else if 8 ≤ leAt m 4 1 || !admZero m 5 7 || !admZero m 24 63 || leAt m 8 8 % 4096 ≠ 0 || leAt m 16 8 % 4096 ≠ 0 then (cdBadArg, s)
  else (cdOk, updCtx s c fun x => { x with windows := SMap.put (0, 0) x.windows (leAt m 4 1) (leAt m 8 8, leAt m 16 8) })

/-- Every access of a context that has begun is complete: those of its threads, its loads and its weir requests (R551). -/
def accessesOver (s : State) (c : Nat) : Bool :=
  (s.jets.threads.all fun e => !holdsTerrace s c (e.1 / 256 / 512) || accessesDone e.2)
  && ((heldBasins s c).all fun b => (getBasin s b).loading.isNone) && s.mem.weirReqs.all fun r => r.ctx != c

/-- INVALIDATE: at once where no access of the context is under way, else it waits for them (R551). -/
def opInvalidate (s : State) (c : Nat) (m : List Byte) : Nat × State :=
  if (getCtx s c).st == .free then (cdBadState, s)
  else if !admZero m 4 63 then (cdBadArg, s)
  else if accessesOver s c then (cdOk, s)
  else (cdPending, updCtx s c fun x => { x with invalidating := true })

def opSuspend (s : State) (c : Nat) (m : List Byte) : Nat × State :=
  let x := getCtx s c
  if x.st != .ready && x.st != .running then (cdBadState, s)
  else if !admZero m 4 63 then (cdBadArg, s)
  else if x.st == .ready || noUnits x then (cdOk, updCtx s c fun x => { x with st := .suspended })
  else (cdPending, updCtx s c fun x => { x with suspending := true })

/-- RESTART; a HEAD from which the tail lies more than the ring size ahead is a bad argument (log entry 49). -/
def opRestart (s : State) (c : Nat) (m : List Byte) : Nat × State :=
  let x := getCtx s c
  let h := BitVec.ofNat 32 (leAt m 4 4)
  if x.st != .suspended && x.st != .halted then (cdBadState, s)
  else if !admZero m 8 63 then (cdBadArg, s)
  else if x.st == .suspended then (cdOk, updCtx s c fun x => { x with st := .ready, readySince := s.ticks })
  else if 2 ^ x.ringLog2 < (x.tail - h).toNat then (cdBadArg, s)
  else (cdOk, updCtx s c fun x => { x with st := .ready, readySince := s.ticks, haltReason := 0, head := h })

def opAbort (s : State) (c : Nat) (m : List Byte) : Nat × State :=
  let x := getCtx s c
  if x.st != .ready && x.st != .running && x.st != .suspended then (cdBadState, s)
  else if !admZero m 4 63 then (cdBadArg, s)
  else (cdOk, abortKernel s c)

def opDestroy (s : State) (c : Nat) (m : List Byte) : Nat × State :=
  if (getCtx s c).st == .free then (cdBadState, s)
  else if !admZero m 4 63 then (cdBadArg, s)
  else
    let s := updCtx (abortKernel s c) c fun x => { x with saved := false, save := none }
    if copyReads s c then (cdPending, updCtx s c fun x => { x with destroying := true }) else (cdOk, finishDestroy s c)

/-- A standby takes a device ID of its list, and its ports train (R442); it joins the recovery of the device that it replaces in REJOIN (R452,
R461). -/
def opDraft (s : State) (p : Nat) (m : List Byte) : Nat × State :=
  let id := leAt m 4 2
  if !platformView s p then (cdNotPlatform, s)
  else if !admZero m 6 63 then (cdBadArg, s)
  else match s.links.idParts.find? fun d => leAt d 0 2 == id with
    | none => (cdRefused, s)
    | some d =>
      if s.links.hasId || s.links.drafted then (cdRefused, s)
      else
        let s := { s with links := { s.links with idPart := d, devId := id, hasId := true, drafted := true } }
        let s := if s.recov.st == .normal then
            { s with recov := { s.recov with
              st := .rejoin, sev := 3, spare := true, lost := [id], seen := [id], covered := [], since := s.ticks, detect := s.ticks } }
          else s
        (cdOk, enablePorts (ledgerRecord s 0x050 0 (toLe 2 id)))

/-- Runs an operation of a port (R542, R568): CODE, and the state with its effect. -/
def adminRun (s : State) (p : Nat) (m : List Byte) : Nat × State :=
  let op := admOp m
  let c := admCtx m
  if leAt m 1 1 ≠ 0 || op = 0 || 10 < op then (cdBadArg, s)
  else if op = 0x0A then opDraft s p m
  else if portOf s c ≠ some p then (cdBadArg, s)
  else if op ≠ 0x02 && op ≠ 0x05 && (getCtx s c).st != .free && heldByRecovery s c then (cdBadState, s)
  else match op with
    | 1 => opCreate s p c m
    | 2 => opDestroy s c m
    | 3 => opLease s p c m
    | 4 => opFrames s p c m
    | 5 => opWindow s c m
    | 6 => opInvalidate s c m
    | 7 => opSuspend s c m
    | 8 => opRestart s c m
    | _ => opAbort s c m

/-- GO (R542): a port that is BUSY ignores it; an operation that does not end OK has no effect. -/
def adminGo (s : State) (p : Nat) : State :=
  if 4 ≤ p || !(getPort s p).created then s
  else if (getPort s p).busy then hifFlag s p 4
  else
    let r := adminRun s p (adminBytes s p)
    if r.1 = cdPending then updPort r.2 p fun q => { q with busy := true }
    else adminDone (if r.1 = cdOk then r.2 else s) p r.1

/-- The row of operation `op`: GO with that operation in the command registers. -/
def adminRow (op port : Nat) (s : State) : State := if admOp (adminBytes s port) = op then adminGo s port else s

/-- CTX_CREATE (R543). -/
def execCtxCreate (port : Nat) (s : State) : Res := .next (adminRow 0x01 port s)

/-- Contexts of a port that wait to be destroyed. -/
def waitingDestroy (s : State) (p : Nat) : List Nat := (created s).filter fun c => portOf s c == some p && (getCtx s c).destroying

/-- CTX_DESTROY (R548): GO; where one waits, it completes once no copy reads the context's blocks. -/
def execCtxDestroy (port : Nat) (s : State) : Res :=
  .next <|
    match (waitingDestroy s port).find? fun c => !copyReads s c with
    | some c =>
      let s := finishDestroy s c
      if (getPort s port).busy then adminDone s port cdOk else s
    | none => adminRow 0x02 port s

/-- LEASE (R544). -/
def execLease (port : Nat) (s : State) : Res := .next (adminRow 0x03 port s)
/-- FRAMES (R542). -/
def execFrames (port : Nat) (s : State) : Res := .next (adminRow 0x04 port s)
/-- HOST_WINDOW (R552). -/
def execHostWindow (port : Nat) (s : State) : Res := .next (adminRow 0x05 port s)
/-- Contexts of a BUSY port whose INVALIDATE waits. -/
def waitingInvalidate (s : State) (p : Nat) : List Nat :=
  if (getPort s p).busy then (created s).filter fun c => portOf s c == some p && (getCtx s c).invalidating else []

/-- INVALIDATE (R551): GO; where one waits, it completes once the accesses that began before it have. -/
def execInvalidate (port : Nat) (s : State) : Res :=
  .next <|
    match (waitingInvalidate s port).find? (accessesOver s) with
    | some c => adminDone (updCtx s c fun x => { x with invalidating := false }) port cdOk
    | none => adminRow 0x06 port s
/-- SUSPEND (R542). -/
def execSuspend (port : Nat) (s : State) : Res := .next (adminRow 0x07 port s)
/-- RESTART (R542). -/
def execRestart (port : Nat) (s : State) : Res := .next (adminRow 0x08 port s)
/-- ABORT (R541, R542). -/
def execCtxAbort (port : Nat) (s : State) : Res := .next (adminRow 0x09 port s)
/-- DRAFT (R442). -/
def execDraft (port : Nat) (s : State) : Res := .next (adminRow 0x0A port s)

/-! PERST# (R537). -/

/-- A context of a port under PERST#: halted without an event, its host snapshots gone, and destroyed as soon as no copy reads its blocks. -/
def perstCtx (s : State) (c : Nat) : State :=
  let s := updCtx (haltCore s c 1) c fun x => { x with destroying := true, window := none, windowOpen := false }
  let s := { s with sluice := { s.sluice with snaps := s.sluice.snaps.filter fun z => z.ctx != c || z.dev.isSome } }
  destroyWhenFree s c

/-- PERST (R537): PERST# of a port is asserted. -/
def execPerst (port : Nat) (s : State) : Res :=
  .next <|
    if 4 ≤ port then s
    else
      let s := updBoot s fun b => { b with perst := b.perst % 16 &&& (15 ^^^ 2 ^ port) }
      if !(getPort s port).created then s
      else
        let cs := (created s).filter fun c => portOf s c == some port
        let s := cs.foldl perstCtx s
        let s := { s with
          csr := SMap.put 0 (SMap.clear (fun k => k / 0x10000 == 0x10 + port) s.csr) (oHif port + 8) 0x0A
          host := { s.host with latches := SMap.clear (fun k => k / 2 ^ 32 == port) s.host.latches } }
        updPort s port fun q => { q with linkUp := false, width := 0, speed := 0, busy := false, code := 0, conns := [] }

end Sys2Proof.Machine
end

