-- ==== Sys2Proof/Machine/Buddy.lean ====
section
/-!
DEFINITION. Buddy copies: what a slot holds, the copy of one commit, and its pieces (R403 to R405). The spec gives a slot its header
and its contents, and no layout: the layout here is the model's (log entry 25).
-/

namespace Sys2Proof.Machine

/-- One piece of a slot: its description line, the bytes that it has room for, and its content. -/
structure Piece where
  desc : List Byte
  room : Nat
  data : List Byte
  deriving DecidableEq, Repr

/-- The description line: context, address, length. -/
def descLine (c va n : Nat) : List Byte := slice (toLe 2 c ++ [1, 0] ++ toLe 6 va ++ toLe 6 n) 0 64

def mkPiece (c va room : Nat) (data : List Byte) : Piece := { desc := descLine c va room, room, data }

/-- A pending computation in its work area: progress in the first 4 KiB, then X, M, T and the power of T. -/
def rootBytes (r : Option Root) : List Byte :=
  match r with
  | none => List.replicate 64 0
  | some r =>
    slice ([1] ++ toLe 1 (b2n r.converged) ++ toLe 2 r.iter ++ toLe 4 r.prod ++ toLe 8 r.pass) 0 4096
      ++ matBytes r.size r.x ++ matBytes r.size r.m ++ matBytes r.size r.t ++ matBytes r.size r.tp

/-- The computation that a work area's bytes hold. -/
def rootOfBytes (k : Nat) (bs : List Byte) : Option Root :=
  let mat (i : Nat) : SMap F32 := matOf (slice bs (4096 + 4 * k * k * i) (4 * k * k))
  if leAt bs 0 1 = 0 then none
  else some { size := k, converged := leAt bs 1 1 == 1, iter := leAt bs 2 2, prod := leAt bs 4 4, pass := leAt bs 8 8,
              x := mat 0, m := mat 1, t := mat 2, tp := mat 3 }

/-- The pieces of a block: masters, slots, root work areas, and the derived copy with ROUND SR. -/
def blockPieces (s : State) (c n : Nat) (d : List Byte) : List Piece :=
  let whole (va k : Nat) : Piece := mkPiece c va k (readArr s c va k)
  let left := workBytes (bkRows d)
  [whole (bkMaster d) (6 * bkElems d)]
  ++ (if slotUsed d 0 then [whole (bkState d) (slotOff d 6)] else [])
  ++ (if bkPrecond d then
      [mkPiece c (bkRootWork d) left (rootBytes (getRoot s c n false)),
       mkPiece c (bkRootWork d + left) (workBytes (bkCols d)) (rootBytes (getRoot s c n true))]
    else [])
  ++ (if bkSr d && bkCopyFmt d != 0 then [whole (bkCopy d) (copySize (bkCopyFmt d) * bkElems d)] else [])

/-- The update table as a slot holds it: entries that are not VALID are zero. -/
def tableBytes (s : State) (c : Nat) : List Byte :=
  (List.range 16384).flatMap fun n =>
    match getBlock s c n with
    | some b => slice b.raw 0 128
    | none => List.replicate 128 0

/-- The scale table as of the last committed step: what a step in progress has pending in a record is left out (R20). -/
def scaleBytesOf (s : State) (c : Nat) : List Byte :=
  (List.range (getCtx s c).scaleLen).flatMap fun i =>
    let r := (rdCtx s c (recAddr s c i) recLen).1
    if (recFlags r).testBit 3 then recClear r else r

/-- The tables of a context: scale, silent and update table, and the step counter. -/
def tablePieces (s : State) (c : Nat) : List Piece :=
  let x := getCtx s c
  let table (va : Nat) (bs : List Byte) : Piece := { mkPiece c va bs.length bs with desc := patch (descLine c va bs.length) 2 [3, 0] }
  (if x.scaleLen = 0 then [] else [table x.scaleBase (scaleBytesOf s c)])
  ++ (if x.silentSet then [table x.silentBase (rdCtx s c x.silentBase 65536).1] else [])
  ++ (if x.updSet then [table x.updBase (tableBytes s c)] else [])
  ++ [{ desc := slice (toLe 2 c ++ [2, 0]) 0 64, room := 8, data := toLe 8 x.step.toNat }]

/-- A piece of a copy: the block that it reads, the piece, and whether a copy into a valid slot carries it. -/
structure CopyPart where
  block : Option Nat
  piece : Piece
  wanted : Bool
  deriving DecidableEq, Repr

/-- Every piece of the device for a copy into slot `k`: blocks in ascending order, then the tables (R401, R405). -/
def allPieces (s : State) (k : Nat) : List CopyPart :=
  (s.sluice.blocks.flatMap fun e =>
    match e.2 with
    | none => []
    | some b => (blockPieces s (e.1 / 16384) (e.1 % 16384) b.raw).map fun p => ⟨some e.1, p, if k = 0 then b.dirty0 else b.dirty1⟩) ++
  (created s).flatMap fun c => (tablePieces s c).map fun p => ⟨none, p, true⟩

/-- Chunks of at most 1 MiB from an offset. -/
def chunks (off : Nat) (bs : List Byte) : List (Nat × List Byte) :=
  (List.range (ceilDiv bs.length 0x100000)).map fun i => (off + 0x100000 * i, (bs.drop (0x100000 * i)).take 0x100000)

/-- Places pieces from an offset: a description line before each. -/
def place : Nat → List CopyPart → List (Option Nat × Nat × List Byte)
  | _, [] => []
  | o, p :: l =>
    (if p.wanted then (chunks o (padTo 64 (p.piece.desc ++ p.piece.data))).map fun x => (p.block, x.1, x.2) else [])
      ++ place (o + 64 + ceilDiv p.piece.room 64 * 64) l

/-- A slot's header: VALID in byte 0, the step number in bytes 15 to 8, the number of pieces in bytes 23 to 16. -/
def slotHeader (valid : Bool) (step pieces : Nat) : List Byte :=
  slice (toLe 8 (b2n valid) ++ toLe 8 step ++ toLe 8 pieces) 0 64

/-- Bits of SLC_BUDDY_CFG. -/
def buddySteps (s : State) : Nat := bits (regOf s (oSlc + 8)) 7 0
def buddySeconds (s : State) : Nat := bits (regOf s (oSlc + 8)) 17 8

/-- A buddy copy of the commit of `step` begins (R404, R405): into NEXT_SLOT, header first, VALID last. -/
def startBuddy (s : State) (step : Nat) : State :=
  let z := s.sluice
  let k := z.nextSlot
  if slotBytes s = 0 || z.buddy.isSome then s
  else
    let all := allPieces s k
    let lay := all.map fun p => p.piece.desc
    let valid := if k = 0 then z.slot0Valid else z.slot1Valid
    let whole := !valid || (if k = 0 then z.layout0 else z.layout1) != lay
    let body := place 4096 (if whole then all.map fun p => { p with wanted := true } else all)
    let left := [(none, 0, slotHeader false 0 0)] ++ body ++ [(none, 0, slotHeader true step all.length)]
    let clean (b : Block) : Block := if k = 0 then { b with dirty0 := false } else { b with dirty1 := false }
    { s with sluice := { z with
      buddy := some { slot := k, step, ctxs := created s, left }
      blocks := z.blocks.map fun e => (e.1, e.2.map clean)
      request := false, sinceSteps := 0, sinceSec := s.ledger.opsec
      slot0Valid := z.slot0Valid && k != 0, slot1Valid := z.slot1Valid && k == 0
      layout0 := if k = 0 then lay else z.layout0, layout1 := if k = 0 then z.layout1 else lay } }

/-- A WRITE packet of the management endpoint with JOB 0 (R405, R418). -/
def bareWrite (s : State) (dst tag addr : Nat) (data : List Byte) : Pkt :=
  let pl := padTo 64 data
  { hdr := ({ dstDev := dst, srcDev := s.links.devId, dstEp := 0x6000, srcEp := 0x6000, kind := 5, len := pl.length / 64, tag,
              addr } : Hdr).bytes
    payload := pl }

/-- The copy is complete: its slot is valid, and the next copy writes the other one. -/
def buddyDone (s : State) (b : Buddy) : State :=
  { s with sluice := { s.sluice with
    buddy := none, nextSlot := 1 - b.slot
    slot0Valid := s.sluice.slot0Valid || b.slot == 0, slot1Valid := s.sluice.slot1Valid || b.slot == 1
    slot0Step := if b.slot = 0 then b.step else s.sluice.slot0Step
    slot1Step := if b.slot = 1 then b.step else s.sluice.slot1Step } }

/-- The plan ports of the copies (R425), and whether everything that was sent through them has been acknowledged. -/
def copyPort (s : State) (q : Nat) : Bool := bitB (leAt s.links.idPart 8 4) q

def copyAcked (s : State) : Bool :=
  s.links.queue.all (fun e => e.1.isSome) &&
    allBelow 32 fun p =>
      let x := getLink s p
      x.st != .active || !copyPort s x.planPort || (x.unacked.isEmpty && x.txq.all fun e => e.2.isEmpty)

/-- BUDDY_COPY (R405): the next piece of the copy in progress is sent to the buddy. The pieces leave by all the copy ports, so the first piece
waits for the acknowledgement of the invalid header, and the valid header for that of every piece. -/
def execBuddyCopy (s : State) (fs : List MemFault := []) : Res :=
  .next <|
    match s.sluice.buddy with
    | none => s
    | some b =>
      match b.left with
      | [] => buddyDone s b
      | (_, off, data) :: rest =>
        let head := off == 0
        if !unitsRun s || ((rest.isEmpty || (!head && !b.begun)) && !copyAcked s) then s
        else memFaults fs s fun s =>
          let s := inject s (bareWrite s (buddyDev s) 0 (reserveBase s + b.slot * slotBytes s + off) data)
          let s := bump s (oSlc + 0x68) (ceilDiv data.length 64 * 64)
          let b := { b with left := rest, begun := b.begun || !head }
          if rest.isEmpty then buddyDone s b
          else { s with sluice := { s.sluice with buddy := some b } }

end Sys2Proof.Machine
end

