-- ==== Sys2Proof/Machine/Links.lean ====
section
/-!
DEFINITION. Link ports: training, discovery, blocks and replay, retraining and loss (R408 to R416, R423, R426 to R430, R443).
-/

namespace Sys2Proof.Machine

/-! The plan as a port sees it (R424 to R426). -/

def portSet (r : List Byte) : Nat := leAt r 1 1

/-- Expected neighbour of a port record: device and port. -/
def expectation (r : List Byte) : Nat × Nat := (leAt r 4 2, leAt r 6 1)

/-- Flits that a VC of a receiving port has room for (R414, R425). -/
def vcRoom (s : State) (v : Nat) : Nat := 64 * leAt s.links.idPart (16 + 2 * v) 2

/-- A job runs on the fabric. -/
def jobRuns (s : State) : Bool := (created s).any fun c => (getCtx s c).jobStarted

/-- The REASON codes of NL_PORT_STATUS. -/
def rCableSwap : Nat := 1
def rVersion : Nat := 2
def rPlan : Nat := 3
def rDuplicate : Nat := 4
def rUnexpected : Nat := 5
def rSelfLoop : Nat := 6
def rNoNeighbour : Nat := 7
def rTrainFail : Nat := 8

/-- A port with nothing outstanding on its link. -/
def LPort.clean (x : LPort) (p : Nat) : LPort :=
  { x with
    remapped := false, planPort := p, minorDown := false, gotRec := false, gotSeen := false, txSeq := 0, unacked := []
    rxSeq := 0, nak := false, credits := [], giveBack := [], txq := [], behind := [], rx := [], skip := [], syms := []
    records := [], stalled := [] }

/-- Bytes of a flit that is lost on its way: open values (R423; log entry 138). -/
def lostFlit (s : State) (n : Nat) : List Byte := (List.range 64).map fun i => Config.freeByte s.free (64 * n + i)

/-- A packet whose flits no longer come gives its output VC free: the rest of it is lost and goes on as open values. -/
def endStream (s : State) (t : Stream) : State :=
  match t.outPort with
  | none => s
  | some q =>
    let rest : List TFlit := (List.range t.left).map fun i => { data := lostFlit s i }
    let more := SMap.get [] (getLink s q).behind t.outVc
    let s := fresh (queueFlits s q t.outVc (rest ++ more))
    pump (updLink s q fun x => { x with behind := SMap.put [] x.behind t.outVc [] }) q false

/-- What a lost port held: flits on their way out leave their buffers, and packets that were coming in stop (R423). -/
def cutPort (s : State) (p : Nat) : State :=
  let x := getLink s p
  let s := flitsGone s ((x.txq ++ x.behind).flatMap fun e => e.2.filterMap (·.src))
  let cutIn (e : Option Nat × Pkt) : Bool := e.1 == some p && e.2.left != 0
  let ends := s.links.streams.filter fun t => t.inPort == p
  let s := { s with links := { s.links with
    queue := s.links.queue.filter fun e => !cutIn e
    inbox := s.links.inbox.filter fun e => !cutIn e
    streams := (s.links.streams.filter fun t => t.inPort != p).map fun t =>
      if t.outPort = some p then { t with outPort := none } else t } }
  ends.foldl (fun s t => if t.outPort = some p then s else endStream s t) s

/-- A port leaves its state for DOWN. Leaving ACTIVE while a job runs is a fabric event that names the neighbour (R423). -/
def portDown (s : State) (p reason : Nat) : State :=
  let x := getLink s p
  let lost := x.st == .active && jobRuns s
  let s := updLink (cutPort s p) p fun x => { x.clean p with st := .down, half := false, reason, excluded := x.excluded || lost }
  if lost then fabricEvent s p [x.nbrDev] else s

/-! Training (R427). -/

/-- The port may train: it is TRAINING or DOWN. -/
def trains (x : LPort) : Bool := x.st == .training || x.st == .down

/-- LINK_TRAINING_COMPLETE (R413, R427): training ends on 8 lanes or on 4, or fails. The port may send what the buffers of the plan's
VC division hold (R414). -/
def execLinkTrainingComplete (port lanes : Nat) (s : State) : Res :=
  .next <|
    if 32 ≤ port || !trains (getLink s port) then s
    else if lanes = 0 then updLink s port fun x => { x with st := .down, reason := rTrainFail }
    else if lanes = 8 || lanes = 4 then
      let s := updLink s port fun x => { x.clean port with
        st := .discovery, half := lanes == 4, reason := 0, credits := tabulate 0 6 (vcRoom s) }
      if lanes = 4 then setBit s (oPort port + 0x10) 3 else s
    else s

/-- DOWN_RETRY (R427): a DOWN port sends training frames again, and stays DOWN until training completes. -/
def execDownRetry (port : Nat) (s : State) : Res :=
  .next <|
    if port < 32 && (getLink s port).st == .down then updLink s port fun x => { x with half := false } else s

/-! Discovery (R428 to R430). -/

/-- Version of firmware line 1. -/
def verMajor : Nat := 1
def verMinor : Nat := 0

/-- The discovery record of this device at a port (R428). -/
def discoveryRec (s : State) (p : Nat) : List Byte :=
  slice (toLe 8 Config.serial.toNat ++ toLe 2 s.links.devId ++ toLe 1 p ++ toLe 1 verMajor ++ toLe 1 verMinor
    ++ slice s.links.planHash 0 16 ++ toLe 1 (b2n (getLink s p).gotRec)) 0 64

/-- DISCOVERY_SEND (R428). -/
def execDiscoverySend (port : Nat) (s : State) : Res :=
  .next <|
    if port < 32 && (getLink s port).st == .discovery then
      sendOn s port
        { hdr := ({ dstDev := 0x7FFF, srcDev := s.links.devId, dstEp := 0x6000, srcEp := 0x6000, kind := 9, len := 1 } : Hdr).bytes
          payload := discoveryRec s port }
    else s

/-- What discovery decides (R429). -/
structure Verdict where
  st : PState
  reason : Nat
  /-- The plan port that the port then serves. -/
  plan : Nat
  remapped : Bool
  deriving DecidableEq, Repr

/-- An ACTIVE port other than `p` serves plan port `q`. -/
def serves (s : State) (p q : Nat) : Bool := (portsIn s .active).any fun k => k != p && (getLink s k).planPort == q

/-- Plan ports in use whose expectation is a neighbour's device and port. -/
def expecting (s : State) (e : Nat × Nat) : List Nat :=
  (List.range 32).filter fun q => portRole s q != 0 && expectation (planPort s q) == e

/-- The table of R429, in its order. -/
def verdict (s : State) (p : Nat) (r : List Byte) : Verdict :=
  let e : Nat × Nat := (leAt r 8 2, leAt r 10 1)
  let qs := expecting s e
  let set := portSet (planPort s p)
  let other := qs.find? fun q => set != 0 && portSet (planPort s q) == set && !serves s p q
  if leAt r 0 8 = Config.serial.toNat then ⟨.inert, rSelfLoop, p, false⟩
  else if leAt r 11 1 ≠ verMajor then ⟨.held, rVersion, p, false⟩
  else if slice r 13 16 ≠ slice s.links.planHash 0 16 then ⟨.held, rPlan, p, false⟩
  else if qs.contains p then ⟨.active, 0, p, false⟩
  else match other with
    | some q => ⟨.active, 0, q, true⟩
    | none =>
      if qs.any fun q => serves s p q then ⟨.held, rDuplicate, p, false⟩
      else if qs.any fun q => set == 0 || portSet (planPort s q) != set then ⟨.held, rCableSwap, p, false⟩
      else ⟨.inert, rUnexpected, p, false⟩

/-- Detail bytes of the discovery codes of the ledger (R583). -/
def discDetail (r : List Byte) (p q : Nat) : List Byte := slice r 0 8 ++ toLe 1 p ++ toLe 1 q

/-- The outcome takes effect and is recorded (R429, R430, R442). -/
def decidePort (s : State) (p : Nat) (r : List Byte) : State :=
  let v := verdict s p r
  let x := getLink s p
  let me : Nat × Nat × Nat := (leAt r 8 2, leAt r 10 1, leAt r 0 8)
  let changed := match x.known with
    | some k => k.1 == me.1 && k.2.1 == me.2.1 && k.2.2 != me.2.2
    | none => false
  let up := v.st == .active
  let s := updLink s p fun x => { x with
    st := v.st, reason := v.reason, planPort := v.plan, remapped := v.remapped
    minorDown := decide (leAt r 12 1 < verMinor), known := if up then some me else x.known
    excluded := x.excluded && jobRuns s }
  let code := if v.st == .held then 0x042 else if v.st == .inert then 0x043 else if v.remapped then 0x041 else 0x040
  let s := ledgerRecord s code v.reason (discDetail r p v.plan)
  if up && changed then ledgerRecord s 0x044 0 (discDetail r p v.plan) else s

/-- A lower port of the same set is about to meet the same expectation: it decides first (R443). -/
def lowerFirst (s : State) (p : Nat) (r : List Byte) : Bool :=
  let set := portSet (planPort s p)
  let rival (k : Nat) : Bool :=
    let x := getLink s k
    x.st == .discovery && portSet (planPort s k) == set && match x.records with
      | [] => false
      | q :: _ => slice q 8 3 == slice r 8 3 && (x.gotSeen || leAt q 29 1 == 1)
  set != 0 && (getLink s p).gotSeen && !allBelow p fun k => !rival k

/-- DISCOVERY (R428, R429, R443): a port in DISCOVERY takes the oldest record that its neighbour has sent; it decides once it holds one and has
received one with SEEN 1. -/
def execDiscoveryRec (port : Nat) (s : State) : Res :=
  .next <|
    let x := getLink s port
    match x.records with
    | [] => s
    | r :: rest =>
      if 32 ≤ port || x.st != .discovery then s
      else
        let t := updLink s port fun x => { x with
          records := rest, gotRec := true, gotSeen := x.gotSeen || leAt r 29 1 == 1
          nbrDev := leAt r 8 2, nbrPort := leAt r 10 1, serial := leAt r 0 8 }
        if lowerFirst t port r then s
        else if (getLink t port).gotSeen then decidePort t port r else t

/-- NL_DISC_CFG.TIMEOUT in timebase ticks. -/
def discTimeout (s : State) : Nat := bits (regOf s (oNl + 0x808)) 9 0 * 50000000

/-- DISCOVERY_TIMEOUT (R430). -/
def execDiscoveryTimeout (port : Nat) (s : State) : Res :=
  .next <|
    let x := getLink s port
    let waits := x.st == .training || x.st == .down || x.st == .discovery
    if port < 32 && waits && decide (discTimeout s ≤ s.ticks - x.enabledAt) then
      updLink s port fun x => { x with reason := rNoNeighbour }
    else s

/-- The states that a lost signal ends (R427); DISCOVERY ends by R429 alone. -/
def losesSignal (x : LPort) : Bool := x.st == .active || x.st == .inert || x.st == .held

/-- SIGNAL_LOSS (R423, R427). -/
def execSignalLoss (port : Nat) (s : State) : Res :=
  .next <| if port < 32 && losesSignal (getLink s port) then portDown s port 0 else s

/-! Replay (R412, R413). -/

/-- Sends every outstanding block again, from the oldest. -/
def resend (s : State) (p : Nat) : State :=
  let bs := (getLink s p).unacked
  let s := updLink s p fun x => { x with unacked := x.unacked.map fun u => { u with sends := u.sends + 1 } }
  bs.foldl (fun s u =>
    let s := bump (emit s (.linkBlock p (blockBytes u.block))) (oPort p + 0x18) 1
    raise (setBit s (oPort p + 0x10) 0) 0x007 8 p .all) s

/-- REPLAY_TIMEOUT (R412). -/
def execReplayTimeout (port : Nat) (s : State) : Res :=
  .next <| if port < 32 && sendsBlocks (getLink s port) then resend s port else s

/-- Corrected symbols of a lane in the last second. -/
def laneSyms (s : State) (x : LPort) (l : Nat) : Nat :=
  ((x.syms.filter fun e => decide (s.ticks - e.1 < 50000000)).map fun e => e.2.getD l 0).sum

/-- A port has to retrain: a block has been sent 8 times without acceptance, or a lane has more than 2^16 corrected symbols in 1 s (R413). -/
def retrainDue (s : State) (p : Nat) : Bool :=
  let x := getLink s p
  x.unacked.any (fun u => decide (8 ≤ u.sends)) || !allBelow 8 fun l => decide (laneSyms s x l ≤ 65536)

/-- The counts that called for a retraining start again. -/
def retrained (s : State) (p : Nat) : State :=
  updLink s p fun x => { x with syms := [], unacked := x.unacked.map fun u => { u with sends := 0 } }

/-- LINK_RETRAIN (R413, R427): the port retrains on all lanes, or on one half, or on neither; replay resumes from the oldest block. Where both
halves fail, an ACTIVE port goes down, and any other keeps its state. -/
def execLinkRetrain (port lanes : Nat) (s : State) : Res :=
  .next <|
    if 32 ≤ port || !sendsBlocks (getLink s port) || !retrainDue s port then s
    else if lanes = 0 then (if (getLink s port).st == .active then portDown s port rTrainFail else s)
    else if lanes = 8 then
      let s := retrained s port
      resend (setBit (updLink s port fun x => { x with half := false }) (oPort port + 0x10) 2) port
    else if lanes = 4 then
      let s := setBits (updLink (retrained s port) port fun x => { x with half := true }) (oPort port + 0x10) 0xC
      raise (resend s port) 0x043 8 port .all
    else s

/-- NL_STALL_CFG.LIMIT, in microseconds. -/
def stallLimit (s : State) : Nat := bits (regOf s (oNl + 0x80C)) 15 0

/-- CREDIT_STALL (R415): reported once for a stall; `us` is how long the VC has had flits and no credit. -/
def execCreditStall (port vc us : Nat) (s : State) : Res :=
  .next <|
    let x := getLink s port
    if port < 32 && vc < 6 && sendsBlocks x && !(SMap.get [] x.txq vc).isEmpty && SMap.get 0 x.credits vc == 0
        && decide (stallLimit s < us) && !x.stalled.contains vc then
      let s := updLink s port fun x => { x with stalled := x.stalled ++ [vc] }
      ledgerRecord (setBit s (oPort port + 0x10) 4) 0x01C us (toLe 1 port ++ toLe 1 vc)
    else s

/-! Blocks received (R411, R412, R415, R416). -/

/-- A packet is discarded and counted (R417, R418, R421). -/
def dropPacket (s : State) : State := bump s (oNl + 0x830) 1

/-- A packet at the front of its virtual channel is discarded: its flits that have arrived leave the buffer, the others as they come. -/
def discardPkt (s : State) (src : Option Nat) (k : Pkt) : State :=
  match src with
  | none => s
  | some p =>
    let s := creditsBack s p k.vc (1 + k.payload.length / 64)
    pump (updLink s p fun x => { x with skip := SMap.upd 0 x.skip k.vc (· + k.left) }) p false

/-- A header flit has arrived at a port: discarded when malformed (R417), the header of a discovery record, or into the router, which may
send it on before the flits behind it have come (R421). -/
def headerIn (p v : Nat) (s : State) (f : List Byte) : State :=
  let h := hdrOf f
  let k : Pkt := { hdr := f, payload := [], left := h.len, vc := v }
  if hdrBad f then dropPacket (discardPkt s (some p) (if 16384 < h.len then { k with left := 0 } else k))
  else if h.kind = 9 then updLink s p fun x => { x with rx := SMap.put [] x.rx v [f] }
  else if (getLink s p).st == .active then { s with links := { s.links with queue := s.links.queue ++ [(some p, k)] } }
  else dropPacket (discardPkt s (some p) k)

/-- The packet whose flits arrive at a port on a virtual channel. -/
def opened (p v : Nat) (e : Option Nat × Pkt) : Bool := e.1 == some p && e.2.vc == v && e.2.left != 0

/-- One more flit of a packet. -/
def grow (p v : Nat) (f : List Byte) (l : List (Option Nat × Pkt)) : List (Option Nat × Pkt) :=
  l.map fun e => if opened p v e then (e.1, { e.2 with payload := e.2.payload ++ f, left := e.2.left - 1 }) else e

/-- A flit of a packet that has been sent on follows it; with the last one the output VC is free (R415). -/
def streamFlit (s : State) (t : Stream) (f : List Byte) : State :=
  let others := s.links.streams.filter fun u => !(u.inPort == t.inPort && u.inVc == t.inVc)
  let t' := { t with left := t.left - 1 }
  let s := { s with links := { s.links with streams := if t'.left = 0 then others else others ++ [t'] } }
  match t.outPort with
  | none => creditsBack s t.inPort t.inVc 1
  | some q =>
    let s := queueFlits s q t.outVc [{ data := f, src := some (t.inPort, t.inVc) }]
    if t'.left = 0 then endStream s t' else pump s q false

/-- A flit has arrived at a port on a virtual channel (R415 to R417, R421). -/
def flitIn (p v : Nat) (s : State) (f : List Byte) : State :=
  let x := getLink s p
  if 0 < SMap.get 0 x.skip v then creditsBack (updLink s p fun x => { x with skip := SMap.upd 0 x.skip v (· - 1) }) p v 1
  else if !(SMap.get [] x.rx v).isEmpty then
    creditsBack (updLink s p fun x => { x with
      rx := SMap.put [] x.rx v [], records := if x.st == .discovery then x.records ++ [f] else x.records }) p v 2
  else match s.links.streams.find? fun t => t.inPort == p && t.inVc == v with
    | some t => streamFlit s t f
    | none =>
      if s.links.queue.any (opened p v) then { s with links := { s.links with queue := grow p v f s.links.queue } }
      else if s.links.inbox.any (opened p v) then
        creditsBack { s with links := { s.links with inbox := grow p v f s.links.inbox } } p v 1
      else headerIn p v s f

/-- An ACK covers every block up to its SEQ (R412). -/
def ackBlocks (us : List Sent) (ack : Nat) : List Sent :=
  if us.any fun u => u.block.seq == ack then (us.dropWhile fun u => u.block.seq != ack).drop 1 else us

/-- What an accepted block carries: ACK, NAK, credits and flits (R411, R443). -/
def takeBlock (s : State) (p : Nat) (b : LBlock) : State :=
  let s := updLink s p fun x => { x with
    rxSeq := (x.rxSeq + 1) % 512, unacked := ackBlocks x.unacked b.ack
    credits := SMap.upd 0 x.credits b.crVc (· + b.crCount)
    stalled := if b.crCount = 0 then x.stalled else x.stalled.filter (· != b.crVc) }
  let s := bump s (oPort p + 0x38) b.flits.length
  let s := if b.nak then resend s p else s
  pump (b.flits.foldl (flitIn p b.vc) s) p true

/-- A block that is not accepted: the port asks for it again (R412). -/
def refuseBlock (s : State) (p : Nat) : State := pump (updLink s p fun x => { x with nak := true }) p true

/-- A block whose FEC decoded: CRC and SEQ decide (R412). Values 21 to 31 of NFLITS and VC 6 and 7 are reserved: refused. -/
def offerBlock (s : State) (p : Nat) (d : List Byte) : State :=
  match blockOf d with
  | none => refuseBlock (setBit s (oPort p + 0x10) 1) p
  | some b =>
    if b.seq = (getLink s p).rxSeq && b.flits.length ≤ 20 && b.vc < 6 && b.crVc < 6 then takeBlock s p b
    else refuseBlock s p

/-- LINK_BLOCK_RECEIVE (R412). -/
def execLinkBlockReceive (port : Nat) (block : BlockIn) (s : State) : Res :=
  .next <|
    if 32 ≤ port || !sendsBlocks (getLink s port) then s
    else match block with
      | .good d => offerBlock s port d
      | .corrected d n =>
        let s := updLink s port fun x => { x with syms := x.syms.filter (fun e => decide (s.ticks - e.1 < 50000000)) ++ [(s.ticks, n)] }
        offerBlock (bump s (oPort port + 0x20) n.sum) port d
      | .bad => refuseBlock (bump s (oPort port + 0x28) 1) port

end Sys2Proof.Machine
end

