-- ==== Sys2Proof/Machine/Collective.lean ====
section
/-!
DEFINITION. The collective engine (R432 to R438, R449, R561). Log entries 27 to 29 say how ranks share the work of a staged reduction,
what a COLL_READY and the packets of a collective carry, and where chunks lie.
-/

namespace Sys2Proof.Machine

/-! Fields of the command (R561). -/

def clOp (m : List Byte) : Nat := leAt m 8 1
def clMode (m : List Byte) : Nat := leAt m 9 1
def clType (m : List Byte) : Nat := leAt m 10 1
def clCombine (m : List Byte) : Nat := leAt m 11 1
def clGroup (m : List Byte) : Nat := leAt m 12 1
def clSr (m : List Byte) : Bool := leAt m 13 1 == 1
def clId (m : List Byte) : Nat := leAt m 14 2
def clCount (m : List Byte) : Nat := leAt m 16 8
def clSource (m : List Byte) : Nat := leAt m 24 8
def clRegion (m : List Byte) : Nat := leAt m 32 2
def clNotify (m : List Byte) : Bool := bitB (leAt m 34 1) 0
def clJet (m : List Byte) : Nat := leAt m 35 2
def clChan (m : List Byte) : Nat := leAt m 37 1

/-- The mode, type and combination that R435 permits together. -/
def collOk (m : List Byte) : Bool :=
  let ty := clType m
  if clMode m = 0 then clCombine m == 0 && (ty == 0 || ty == 1 || ty == 4)
  else if clMode m = 1 then ty == 0
  else if clMode m = 2 then ty == 1
  else ty == 2 || ty == 3

/-- Combines toward a result (REDUCE_SCATTER, ALL_REDUCE). -/
def clReduces (m : List Byte) : Bool := clOp m == 0 || clOp m == 2

/-! Groups (R432, R433). -/

/-- Bytes of HBM pages that are not CACHEABLE or of SCRATCH slices; none where the range is not all of that. -/
def readPlain (s : State) (c a n : Nat) : Option (List Byte) :=
  (partsOf 64 a n).foldl (fun (r : Option (List Byte)) p =>
    match r, locate s c p.1 false with
    | some bs, some (.hbm pa false) => some (bs ++ readPhys s pa p.2)
    | some bs, some (.cistern pa) => some (bs ++ readPhys s pa p.2)
    | _, _ => none) (some [])

/-- The exponents given, or none where R432 does not admit them for `n` ranks. -/
def stagesOf (e : List Byte) (n : Nat) : Option (List Nat) :=
  let ex (i : Nat) : Nat := leAt e i 1
  let top := clog2 n
  if ex 1 = 0 then (if ex 2 = 0 && ex 3 = 0 then some [] else none)
  else if ex 2 = 0 then (if ex 3 = 0 && ex 1 ≤ top then some [ex 1] else none)
  else if ex 3 = 0 then (if ex 1 < ex 2 && ex 2 ≤ top then some [ex 1, ex 2] else none)
  else if ex 1 < ex 2 && ex 2 < ex 3 && ex 3 ≤ top then some [ex 1, ex 2, ex 3] else none

/-- The group that a collective names: rank, members and stage exponents; none for GROUP_BAD. -/
def groupOf (s : State) (c g : Nat) : Option (Nat × List Nat × List Nat) :=
  match readPlain s c ((getCtx s c).groupBase + 64 * g) 64 with
  | none => none
  | some e =>
    let n := leAt e 4 2
    let rank := leAt e 6 2
    if leAt e 0 1 ≠ 1 || n = 0 || decide (32768 < n) || decide (n ≤ rank) || leAt e 8 6 % 64 ≠ 0 || (e.drop 14).any (· != 0) then none
    else match readPlain s c (leAt e 8 6) (2 * n), stagesOf e n with
      | some bs, some st =>
        let ids := (List.range n).map fun q => leAt bs (2 * q) 2
        if decide (ids.Nodup) && ids[rank]? == some s.links.devId then some (rank, ids, st) else none
      | _, _ => none

/-- The levels at which a node changes owner: leaves, the stage widths, the top (R436). -/
def levelsOf (st : List Nat) (n : Nat) : List Nat :=
  let l := 0 :: st
  if l.getLast? = some (clog2 n) then l else l ++ [clog2 n]

/-! Chunks as lines (log entry 29). -/

def Coll.n (x : Coll) : Nat := x.members.length

/-- Type of the lines at the destination region: W40 exact-partials in mode EXACT (R435). -/
def Coll.wireType (x : Coll) : Nat := if clMode x.raw = 0 then 4 else clType x.raw
/-- Lines of a chunk at the destination. -/
def Coll.lines (x : Coll) : Nat := ceilDiv (clCount x.raw) (elemCount x.wireType)

/-- Elements of source chunk `q`. -/
def sourceElems (s : State) (x : Coll) (q : Nat) : List Nat :=
  let ty := clType x.raw
  let n := 64 * ceilDiv (clCount x.raw) (elemCount ty)
  let bs := (partsOf 64 (clSource x.raw + n * q) n).flatMap fun p => readUn s x.ctx p.1 p.2
  ((List.range (n / 64)).flatMap fun i => lineElems ty (slice bs (64 * i) 64)).take (clCount x.raw)

/-- Elements as lines of a type; the last line is filled with zeros. -/
def packLines (ty : Nat) (es : List Nat) : List Byte :=
  (List.range (ceilDiv es.length (elemCount ty))).flatMap fun i =>
    elemsLine ty ((es.drop (elemCount ty * i)).take (elemCount ty))

/-- Elements as W40 exact-partial lines with a part index (R360, R435). -/
def packExact (ty part : Nat) (es : List Nat) : List Byte :=
  let ws := es.map fun v => if ty = 4 then (w40Canon (BitVec.ofNat 40 v)).toNat else (toW40 ((tyFmt ty).decode v)).toNat
  (List.range (ceilDiv ws.length 12)).flatMap fun i => slice (packLines 4 ((ws.drop (12 * i)).take 12)) 0 60 ++ toLe 4 part

/-- Lines of source chunk `q` as they travel. -/
def sourceLines (s : State) (x : Coll) (q part : Nat) : List Byte :=
  if clMode x.raw = 0 then packExact (clType x.raw) part (sourceElems s x q) else packLines (clType x.raw) (sourceElems s x q)

/-! Weir requests and packets of the engine (R417). -/

/-- Endpoint of the collective engine: the first link port's. -/
def collEp : Nat := 0x4000

/-- Weir requests to consecutive lines of this device from an address. -/
def weirLines (s : State) (c src va op ty mode tag : Nat) (d : List Byte) : State :=
  let mk (i : Nat) : WReq :=
    let a := va + 64 * i
    { ctx := c, src, addr := (physOf s c a true).getD 0, va := a, op, ty, mode, tag, data := slice d (64 * i) 64 }
  { s with mem := { s.mem with weirReqs := s.mem.weirReqs ++ (List.range (d.length / 64)).map mk } }

/-- A packet of the engine. -/
def collPkt (s : State) (x : Coll) (kind dev tag chan addr wop : Nat) (d : List Byte) : Pkt :=
  { hdr := ({ dstDev := dev, srcDev := s.links.devId, dstEp := collEp, srcEp := collEp, kind, len := d.length / 64
              job := (getCtx s x.ctx).job, tag, channel := chan, addr, wop, coll := clId x.raw } : Hdr).bytes
    payload := d }

/-- Data in packets of at most 16,384 flits, each with its address. -/
def cut (addr : Nat) (d : List Byte) : List (Nat × List Byte) :=
  (List.range (ceilDiv d.length 0x100000)).map fun i => (addr + 0x100000 * i, (d.drop (0x100000 * i)).take 0x100000)

/-- Lines for the destination region of rank `q`: weir requests here, WEIR_STREAM packets elsewhere. -/
def sendLines (s : State) (x : Coll) (q addr : Nat) (d : List Byte) : State :=
  let mode := if clMode x.raw = 0 then 2 else 0
  if q = x.rank then weirLines s x.ctx collEp addr 0 x.wireType mode 0 d
  else (cut addr d).foldl (fun s e =>
    inject s (collPkt s x 6 (x.members.getD q 0) 0 0 e.1 (4 * x.wireType + 32 * mode) e.2)) s

/-! Nodes of a reduction (R435, R436). -/

def Coll.width (x : Coll) (k : Nat) : Nat := 2 ^ x.exps.getD k 0

/-- The rank that holds the node of level number `k` over the block of rank `p`, for chunk `r` (log entry 27). -/
def Coll.owner (x : Coll) (k p r : Nat) : Nat :=
  let w := x.width k
  if k = 0 then p else if k + 1 = x.exps.length then r else Nat.min (p / w * w + r % w) (x.n - 1)

/-- Key of a node: level number, chunk, rank that holds it. -/
def nodeKey (k r p : Nat) : Nat := (k * 65536 + r) * 65536 + p

/-- Whether nodes travel: a reduction in a mode other than EXACT. -/
def Coll.treed (x : Coll) : Bool := clReduces x.raw && clMode x.raw != 0

/-- Line offset of chunk `r` in its destination region. -/
def Coll.place (x : Coll) (r : Nat) : Nat := if clOp x.raw = 0 then 0 else r * x.lines

/-- The region that a collective writes, while it is declared. -/
def collRegion (s : State) (x : Coll) : Option Region :=
  match getRegion s (clRegion x.raw) with
  | some g => if g.ctx = x.ctx then some g else none
  | none => none

/-- Rounding of element `e` of chunk `r` at stage `lv` (R435): keyed by the region of rank `r`, this device's own or another's (log entry
139). -/
def stageRnd (s : State) (x : Coll) (g : Region) (r lv e : Nat) : Rnd :=
  let step := stepOf s x.ctx
  let dev := x.members.getD r 0
  let tensor := if r = x.rank then rgTensor g.raw else Config.peerTensor dev (clId x.raw) step
  let e0 := if r = x.rank then rgE0 g.raw else Config.peerE0 dev (clId x.raw) step
  let k : SrKey := { seed := (getCtx s x.ctx).seed, tensor, point := 3, sub := lv, step }
  k.rnd (clSr x.raw) ((e0 + x.place r * elemCount x.wireType + e) % 2 ^ 48)

/-- One node: its two children, line by line (R435). -/
def combineNode (s : State) (x : Coll) (g : Region) (r lv : Nat) (a b : List Byte) : List Byte :=
  let ty := x.wireType
  (List.range (a.length / 64)).flatMap fun i =>
    weirLine (clCombine x.raw) ty (fun e => stageRnd s x g r lv (elemCount ty * i + e)) (slice a (64 * i) 64) (slice b (64 * i) 64)

/-- Levels `lv` to `lv + n - 1` of the tree. -/
def combineLevels (s : State) (x : Coll) (g : Region) (r : Nat) : Nat → Nat → List (List Byte) → List (List Byte)
  | 0, _, l => l
  | n + 1, lv, l => combineLevels s x g r n (lv + 1) (pairUp (combineNode s x g r lv) l)

/-- The node of level `k` over this rank's block, as this rank holds it. -/
def ownNode (s : State) (x : Coll) (k r : Nat) : List Byte :=
  if k = 0 then sourceLines s x r 0 else SMap.get [] x.nodes (nodeKey k r x.rank)

/-- The children of the level-`k` node over this rank's block: none until every one is here. -/
def childrenOf (s : State) (x : Coll) (k r : Nat) : Option (List (List Byte)) :=
  let w := x.width k
  let v := x.width (k - 1)
  let starts := ((List.range (w / v)).map fun i => x.rank / w * w + i * v).filter fun p => decide (p < x.n)
  let vals := starts.map fun p =>
    let q := x.owner (k - 1) p r
    if q = x.rank then ownNode s x (k - 1) r else SMap.get [] x.nodes (nodeKey (k - 1) r q)
  if vals.all fun d => d.length == 64 * x.lines then some vals else none

/-- Whether this rank holds the level-`k` node of chunk `r` over its block. -/
def Coll.holds (x : Coll) (k r : Nat) : Bool := x.owner k x.rank r == x.rank

/-- The rank that a node held here goes to. -/
def Coll.parent (x : Coll) (k r : Nat) : Nat := x.owner (k + 1) x.rank r

/-- Combines what can be combined at level `k` for chunk `r`. -/
def combineAt (s : State) (g : Region) (k : Nat) (x : Coll) (r : Nat) : Coll :=
  if k = 0 || !x.holds k r || !(ownNode s x k r).isEmpty then x
  else match childrenOf s x k r with
    | none => x
    | some l =>
      let lv := x.exps.getD (k - 1) 0
      match combineLevels s x g r (x.exps.getD k 0 - lv) lv l with
      | d :: _ => { x with nodes := SMap.put [] x.nodes (nodeKey k r x.rank) d }
      | [] => x

/-! What a rank sends (R437). -/

/-- Direct traffic to rank `q`: source chunk, line offset at the destination, part index. -/
def Coll.direct (x : Coll) (q : Nat) : List (Nat × Nat × Nat) :=
  if clOp x.raw = 1 then [(0, x.rank * x.lines, 0)]
  else if clOp x.raw = 3 then [(q, x.rank * x.lines, 0)]
  else if clMode x.raw ≠ 0 then []
  else if clOp x.raw = 0 then [(q, 0, x.rank)]
  else (List.range x.n).map fun r => (r, r * x.lines, x.rank)

/-- Sent keys: 254 direct traffic to a rank, 255 a result to a rank, else a node. -/
def directKey (q : Nat) : Nat := nodeKey 254 q 0
def resultKey (q : Nat) : Nat := nodeKey 255 q 0

/-- Sends the direct traffic to one rank that is ready. -/
def sendDirect (s : State) (x : Coll) (e : Nat × Nat) : State × Coll :=
  if x.treed || x.sent.contains (directKey e.1) then (s, x)
  else
    ((x.direct e.1).foldl (fun s d => sendLines s x e.1 (e.2 + 64 * d.2.1) (sourceLines s x d.1 d.2.2)) s,
     { x with sent := x.sent ++ [directKey e.1] })

/-- Sends the level-`k` node of chunk `r` to its parent's rank, once that is ready. -/
def sendNode (k r : Nat) (sx : State × Coll) : State × Coll :=
  let (s, x) := sx
  let q := x.parent k r
  match x.ready.find? fun e => e.1 == q with
  | none => sx
  | some e =>
    let d := ownNode s x k r
    if !x.holds k r || q == x.rank || x.sent.contains (nodeKey k r q) || d.isEmpty then sx
    else
      ((cut (e.2 + 64 * x.place r) d).foldl (fun s y =>
        inject s (collPkt s x 5 (x.members.getD q 0) r k y.1 0 y.2)) s,
       { x with sent := x.sent ++ [nodeKey k r q] })

/-- The own chunk's result, when the top node is here. -/
def ownResult (s : State) (x : Coll) : List Byte := ownNode s x (x.exps.length - 1) x.rank

/-- Sends the own result of an ALL_REDUCE to one rank that is ready. -/
def sendResult (s : State) (x : Coll) (e : Nat × Nat) : State × Coll :=
  if e.1 = x.rank || !x.applied || clOp x.raw ≠ 2 || x.sent.contains (resultKey e.1) then (s, x)
  else (sendLines s x e.1 (e.2 + 64 * x.place x.rank) (ownResult s x), { x with sent := x.sent ++ [resultKey e.1] })

/-- Whether rank `p` sends to rank `q`. -/
def Coll.sendsTo (x : Coll) (p q : Nat) : Bool :=
  !x.treed || clOp x.raw == 2 ||
    (List.range (x.exps.length - 1)).any fun k => (List.range x.n).any fun r => x.owner k p r == p && x.owner (k + 1) p r == q

/-- Sends COLL_READY to every rank that sends here; this rank is ready for itself. -/
def tellReady (s : State) (x : Coll) (g : Region) : State × Coll :=
  let base := rgBase g.raw
  let qs := (List.range x.n).filter fun q => q != x.rank && x.sendsTo q x.rank
  (qs.foldl (fun s q => inject s (collPkt s x 7 (x.members.getD q 0) 0 0 base 0 [])) s,
   { x with told := true, ready := x.ready ++ [(x.rank, base)] })

/-- Every level of a reduction, upward: combine, then send. -/
def climbColl (g : Region) (sx : State × Coll) : State × Coll :=
  (List.range sx.2.exps.length).foldl (fun sx k =>
    (List.range sx.2.n).foldl (fun (sx : State × Coll) r =>
      let x := combineAt sx.1 g k sx.2 r
      if k + 1 = x.exps.length then (sx.1, x) else sendNode k r (sx.1, x)) sx) sx

/-- The own result goes to the destination region, which is declared in plain add mode (R435). -/
def applyResult (s : State) (x : Coll) (g : Region) : State × Coll :=
  let d := ownResult s x
  if x.applied || d.isEmpty then (s, x)
  else (sendLines s x x.rank (rgBase g.raw + 64 * x.place x.rank) d, { x with applied := true })

/-- Everything that a collective can do now; `turn` when the earlier ones of its context have declared themselves ready. -/
def advance (s : State) (x : Coll) (turn : Bool) : State × Coll :=
  match collRegion s x with
  | none => (s, x)
  | some g =>
    let (s, x) := if !x.told && turn then tellReady s x g else (s, x)
    if !x.told then (s, x)
    else
      let sx := x.ready.foldl (fun (sx : State × Coll) e => sendDirect sx.1 sx.2 e) (s, x)
      if !x.treed then sx
      else
        let sx := climbColl g sx
        let sx := applyResult sx.1 sx.2 g
        sx.2.ready.foldl (fun (sx : State × Coll) e => sendResult sx.1 sx.2 e) sx

def putColl (s : State) (i : Nat) (x : Coll) : State :=
  { s with links := { s.links with colls := s.links.colls.set i x } }

/-- Advances the collectives of a context in ring order. -/
def advanceAll (s : State) (c : Nat) : State :=
  (List.range s.links.colls.length).foldl (fun s i =>
    match s.links.colls[i]? with
    | none => s
    | some x =>
      if x.ctx ≠ c then s
      else
        let turn := (s.links.colls.take i).all fun y => y.ctx != c || y.told
        let (s, x) := advance s x turn
        putColl s i x) s

/-! Start, completion (R438, R561). -/

/-- COLL_FAULT: the kernel is aborted (R432, R435). -/
def collFault (s : State) (c : Nat) : State := abortKernel (setBit s (oNl + 0x810) 4) c

/-- COLL_READY packets that came before the start. -/
def takeEarly (s : State) (x : Coll) : State × Coll :=
  let mine (e : Nat × Nat × Nat × Nat) : Bool := e.1 == x.ctx && e.2.1 == clId x.raw
  let ps := (s.links.early.filter mine).filterMap fun e =>
    (leastBelow x.n fun q => x.members.getD q 0 == e.2.2.1).map fun q => (q, e.2.2.2)
  ({ s with links := { s.links with early := s.links.early.filter fun e => !mine e } }, { x with ready := x.ready ++ ps })

/-- COLLECTIVE (R432 to R438, R561). -/
def execCollective (ctx : Nat) (s : State) (fs : List MemFault := []) : Res :=
  .next <| memFaults fs s fun s => withCmd s ctx 0x0D fun s m =>
    let x := getCtx s ctx
    if !x.jobStarted || s.links.colls.any fun y => y.ctx == ctx && !y.done && clId y.raw == clId m.raw then commandBad s ctx m.slot
    else if !collOk m.raw then collFault s ctx
    else match groupOf s ctx (clGroup m.raw) with
      | none => collFault s ctx
      | some (rank, ids, st) =>
        let y : Coll := { ctx, slot := m.slot, raw := m.raw, rank, members := ids, exps := levelsOf st ids.length }
        let (s, y) := takeEarly s y
        advanceAll { s with links := { s.links with colls := s.links.colls ++ [y] } } ctx

/-- Lines of the destination region that the output of a rank takes. -/
def Coll.outLines (x : Coll) : Nat := if clOp x.raw = 0 then x.lines else x.n * x.lines

/-- Every line of the output has completed. -/
def outputDone (s : State) (x : Coll) : Bool :=
  match collRegion s x with
  | none => false
  | some g => x.told && allBelow x.outLines fun i => SMap.get false g.lines i

/-- Everything that other ranks wait for has been sent. -/
def allSent (x : Coll) : Bool :=
  let others := (List.range x.n).filter fun q => q != x.rank
  if !x.treed then others.all fun q => x.sent.contains (directKey q)
  else
    (clOp x.raw != 2 || others.all fun q => x.sent.contains (resultKey q)) &&
    (List.range (x.exps.length - 1)).all fun k => (List.range x.n).all fun r =>
      !x.holds k r || x.parent k r == x.rank || x.sent.contains (nodeKey k r (x.parent k r))

/-- A collective's output is complete: its message, and its command completes. -/
def finishColl (s : State) (i : Nat) (x : Coll) : State :=
  let s := putColl s i { x with done := true }
  let ep := 0x5000 + (portOf s x.ctx).getD 0
  let s := if clNotify x.raw then
      { s with mem := { s.mem with notes := s.mem.notes ++
        [{ ctx := x.ctx, ep, sluice := false, jet := clJet x.raw, ch := clChan x.raw, data := slice (toLe 2 (clId x.raw)) 0 64 }] } }
    else s
  completeCmd s x.ctx x.slot

/-- COLLECTIVE_COMPLETE (R438): every collective of a context whose output is complete completes; one that has nothing more to send is
forgotten. -/
def execCollectiveComplete (ctx : Nat) (s : State) : Res :=
  .next <|
    let s := advanceAll s ctx
    let s := (List.range s.links.colls.length).foldl (fun s i =>
      match s.links.colls[i]? with
      | none => s
      | some x => if x.ctx = ctx && !x.done && outputDone s x then finishColl s i x else s) s
    { s with links := { s.links with colls := s.links.colls.filter fun x => !(x.ctx == ctx && x.done && allSent x) } }

/-! Packets for the engine (R437). -/

/-- A COLL_READY: to the oldest collective of that number that has none from its device; kept until that starts. -/
def readyIn (s : State) (c id dev addr : Nat) : State :=
  let wants (x : Coll) : Bool :=
    x.ctx == c && clId x.raw == id && x.members.contains dev && !x.ready.any fun e => x.members.getD e.1 0 == dev
  match (List.range s.links.colls.length).find? fun i => (s.links.colls[i]?).any wants with
  | none => { s with links := { s.links with early := s.links.early ++ [(c, id, dev, addr)] } }
  | some i =>
    let add (x : Coll) : Coll :=
      { x with ready := x.ready ++ ((leastBelow x.n fun q => x.members.getD q 0 == dev).map fun q => (q, addr)).toList }
    advanceAll { s with links := { s.links with colls := s.links.colls.modify i add } } c

/-- A node of another rank: bytes of chunk `r` at level `k`, at an address of the destination region. False when no collective here waits
for them. -/
def nodeIn (s : State) (c id dev k r addr : Nat) (d : List Byte) : State × Bool :=
  let off (x : Coll) (g : Region) : Nat := addr - (rgBase g.raw + 64 * x.place r)
  let key (x : Coll) : Nat := nodeKey k r ((leastBelow x.n fun q => x.members.getD q 0 == dev).getD 0)
  let wants (x : Coll) : Bool :=
    x.ctx == c && clId x.raw == id && x.told && x.treed && x.members.contains dev &&
    match collRegion s x with
    | none => false
    | some g => (SMap.get [] x.nodes (key x)).length == off x g && decide (off x g + d.length ≤ 64 * x.lines)
                && decide (rgBase g.raw + 64 * x.place r ≤ addr)
  match (List.range s.links.colls.length).find? fun i => (s.links.colls[i]?).any wants with
  | none => (s, false)
  | some i =>
    let add (x : Coll) : Coll := { x with nodes := SMap.upd [] x.nodes (key x) (· ++ d) }
    (advanceAll { s with links := { s.links with colls := s.links.colls.modify i add } } c, true)

end Sys2Proof.Machine
end

