-- ==== Sys2Proof/Machine/Sluice.lean ====
section
/-!
DEFINITION. The commands of the sluices: blocks, schedules, commits with the records of the spouts, operands, root windows, snapshots
and checkpoint requests (R17 to R20, R280 to R287, R376 to R404).
-/

namespace Sys2Proof.Machine

/-! Ring commands (R378, R393, R557). -/

/-- A block command that is to start waits for a copy that has still to read its block (R401). -/
def blockHeld (s : State) (ctx : Nat) : Bool :=
  match nextCmd s ctx with
  | some m => (cmdOp m == 0x09 || cmdOp m == 0x0A) && copyHolds s ctx (leAt m.raw 16 2)
  | none => false

/-- BLOCK_INIT (R378). -/
def execBlockInit (ctx : Nat) (s : State) : Res :=
  .next <| if blockHeld s ctx then s else withSluiceCmd s ctx 0x09 fun s m =>
    completeCmd (installBlock s ctx (leAt m.raw 16 2) (slice m.raw 128 128)) ctx m.slot

/-- BLOCK_RELEASE (R378). -/
def execBlockRelease (ctx : Nat) (s : State) : Res :=
  .next <| if blockHeld s ctx then s else withSluiceCmd s ctx 0x0A fun s m =>
    let n := leAt m.raw 16 2
    let s := setRoot (setRoot (setBlock s ctx n none) ctx n false none) ctx n true none
    completeCmd s ctx m.slot

/-- The schedule record that a context holds; empty for none (R393). -/
def scheduleOf (s : State) (c : Nat) : List Byte := SMap.get [] s.sluice.schedules c

/-- SCHEDULE (R393): a malformed record sets SCHEDULE_BAD and is not held. -/
def execSchedule (ctx : Nat) (s : State) : Res :=
  .next <| withCmd s ctx 0x0B fun s m =>
    let r := slice m.raw 128 576
    let s := if schedOk r then { s with sluice := { s.sluice with schedules := SMap.put [] s.sluice.schedules ctx r } }
      else slcErr s 6
    completeCmd s ctx m.slot

/-! COMMIT (R394, R395, R560). -/

def cmBarrier (m : List Byte) : Nat := leAt m 8 1
def cmForm (m : List Byte) : Nat := leAt m 9 1
def cmPeer (m : List Byte) : Bool := leAt m 10 1 == 1
def cmStep (m : List Byte) : Nat := leAt m 16 8
def cmList (m : List Byte) : Nat := leAt m 24 8
def cmCount (m : List Byte) : Nat := leAt m 32 2
def cmDev (m : List Byte) : Nat := leAt m 34 2
def cmAddr (m : List Byte) : Nat := leAt m 40 8

/-- The listed block indices; none where the list cannot be read (R395). -/
def commitList (s : State) (c : Nat) (m : List Byte) : Option (List Nat) :=
  (ctxRead s c (cmList m) (2 * cmCount m)).map fun r => (List.range (cmCount m)).map fun i => leAt r.1 (2 * i) 2

/-- Every region that a listed block names and the context declares is complete (R17, R394). -/
def regionsDone (s : State) (c : Nat) (l : List Nat) : Bool :=
  l.all fun n =>
    match getBlock s c n with
    | none => true
    | some b => (bkRegions b.raw).all (regionDone s c)

/-- Bits of SLC_ERR_STATUS of the faults of a listed block (R395). -/
def blockFaults (s : State) (c : Nat) (sched : List Byte) (n : Nat) : List Nat :=
  match getBlock s c n with
  | none => [2]
  | some b =>
    (if sourcesOk s c b.raw then [] else [4]) ++
      (if !sched.isEmpty && decide (schedGroups sched ≤ bkGroup b.raw) then [5] else [])

/-- The faults of a whole list; an index that stands twice is a BAD_BLOCK. -/
def listFaults (s : State) (c : Nat) (sched : List Byte) : List Nat → List Nat
  | [] => []
  | n :: l => (if l.contains n then [2] else []) ++ blockFaults s c sched n ++ listFaults s c sched l

def updCommit (s : State) (c slot : Nat) (f : Commit → Commit) : State :=
  { s with sluice := { s.sluice with
      commits := s.sluice.commits.map fun m => if m.ctx = c && m.slot = slot then f m else m } }

/-- Records of a context that the step has touched, ascending (R280). -/
def touchedRecs (s : State) (c : Nat) : List Nat :=
  (List.range (getCtx s c).scaleLen).filter fun i => (leNat (rdCtx s c (recAddr s c i) 2).1).testBit 3

/-- The pairs that the arrival carries: touched records of GROUP scope with their pending amax (R281, R440). -/
def groupPairs (s : State) (c : Nat) : List (Nat × Int) :=
  ((touchedRecs s c).filter fun i => SMap.get 0 (getCtx s c).scopes i == 2).map fun i =>
    (i, toSigned 16 (leNat (rdCtx s c (recAddr s c i + 14) 2).1))

/-- Steps 2 to 4 of R394: checks, flags and the arrival at the commit barrier. -/
def commitArrive (s : State) (m : Commit) (list : Option (List Nat)) : State :=
  let c := m.ctx
  let l := list.getD []
  let faults := if list.isNone then [2] else listFaults s c m.sched l
  let s := faults.foldl slcErr s
  let s := (blocksOf s c).foldl (fun s b => rescan s c b.1) s
  let bad := (blocksOf s c).any fun b => b.2.bad
  let poison := (getCtx s c).poison || !faults.isEmpty || bad
  let n := (getCtx s c).step.toNat
  let mism := m.sched.isEmpty || cmStep m.raw != n || leAt m.sched 0 8 != n
  let s := if m.sched.isEmpty then slcErr s 6 else s
  let pairs := groupPairs s c
  let s := updCtx s c fun x => { x with poison := false, scopes := [] }
  let s := updCommit s c m.slot fun m => { m with blocks := l, poison, mismatch := mism, arrived := true }
  if cmBarrier m.raw = 0xFF then s
  else
    fbarArrive s (cmBarrier m.raw) (cmStep m.raw) (cmStep m.raw)
      (b2n poison + 2 * b2n mism + 4 * b2n s.sluice.request) pairs

/-- The oldest COMMIT of a context arrives once every earlier command and every region of its blocks is complete. -/
def commitTry (s : State) (c : Nat) : State :=
  match s.sluice.commits.find? fun m => m.ctx == c && !m.arrived with
  | none => s
  | some m =>
    let list := commitList s c m.raw
    if ctxRuns s c && (cmdsBefore (getCtx s c) m.slot).isEmpty && regionsDone s c (list.getD [])
        && (cmBarrier m.raw == 0xFF || !(getFBar s (cmBarrier m.raw)).here) then
      commitArrive s m list
    else s

/-- Fields that are out of place in the context's present state (R547, R560, R562). -/
def commitBad (s : State) (c : Nat) (m : List Byte) : Bool :=
  let x := getCtx s c
  x.eval || (cmBarrier m != 0xFF && (!x.fabric || !fabricBarOk s c (cmBarrier m)))
    || (cmForm m != 0 && cmPeer m && !x.jobStarted)

/-- COMMIT (R394): the command starts when it is the oldest not started; the oldest that has started arrives when it may. -/
def execCommit (ctx : Nat) (s : State) (fs : List MemFault := []) : Res :=
  .next <| memFaults fs s fun s =>
    let s := withCmd s ctx 0x0C fun s m =>
      if commitBad s ctx m.raw then commandBad s ctx m.slot
      else { s with sluice := { s.sluice with
        commits := s.sluice.commits ++ [{ ctx, slot := m.slot, raw := m.raw, blocks := [], sched := scheduleOf s ctx }] } }
    commitTry s ctx

/-! The outcome (R280, R285 to R287, R396). -/

/-- The combined values of a released commit barrier: flags, least and greatest step, pairs. -/
structure Released where
  flags : Nat
  min : Nat
  max : Nat
  pairs : List (Nat × Int)
  deriving DecidableEq, Repr

/-- The release of the barrier of an arrived COMMIT, when it has come. -/
def releaseOf (s : State) (m : Commit) : Option Released :=
  if cmBarrier m.raw = 0xFF then
    some ⟨b2n m.poison + 2 * b2n m.mismatch + 4 * b2n s.sluice.request, cmStep m.raw, cmStep m.raw, []⟩
  else
    let x := getFBar s (cmBarrier m.raw)
    if x.released then some ⟨x.relFlags, x.relMin, x.relMax, x.relPairs⟩ else none

/-- The outcome code of R396. -/
def outcomeOf (r : Released) : Nat := b2n (bitB r.flags 0) + 2 * b2n (bitB r.flags 1 || r.min != r.max)

/-- How the spouts process records under an outcome code (R280, R396). -/
def spoutOutcome (o : Nat) : StepOutcome := if o = 0 then .committed else if o = 1 then .poisoned else .mismatch

/-- One touched record at the commit (R280 to R283); the flags and counts of the spouts are those of block 0 (log entry 26). -/
def commitRecord (c step o : Nat) (pairs : List (Nat × Int)) (s : State) (i : Nat) : State :=
  let a := recAddr s c i
  let (r, s) := rdCtx s c a recLen
  let r := match pairs.find? fun p => p.1 == i with
    | some p => if recS16 r 14 < p.2 then putLe r 14 2 (ofSigned 16 p.2) else r
    | none => r
  let x := recCommit (spoutOutcome o) step r
  let s := wrCtx s c a x
  let s := if o = 1 && (0 < recCount r 4 && leAt r 14 2 != 0x8000) then setBit s (oSpt 0 + 4) 6 else s
  let s := if 2 ≤ o then setBit s (oSpt 0 + 4) 8 else s
  if (recFlags r).testBit 1 && !(recFlags x).testBit 1 then
    ledgerRecord (setBit s (oSpt 0 + 4) 5) 0x015 0 (toLe 2 c ++ toLe 2 i)
  else s

/-- LAYER_ID of the touched records of KIND 2 and 3, with the counts of the step (R285). -/
def layerCounts (s : State) (c : Nat) (recs : List Nat) : List (Nat × List Nat) :=
  recs.filterMap fun i =>
    let r := (rdCtx s c (recAddr s c i) 128).1
    if 2 ≤ leAt r 7 1 then some (leAt r 120 2, (List.range 6).map fun k => leAt r (64 + 8 * k) 8) else none

/-- SILENT_STEPS and THRESHOLD (R288). -/
def silentSteps (s : State) : Nat := bits (regOf s (oSpt 0 + 8)) 9 0
def silentThreshold (s : State) : Nat := bits (regOf s (oSpt 0 + 8)) 25 16

/-- One layer's evaluation (R285 to R287). -/
def silentLayer (c step : Nat) (ls : List (Nat × List Nat)) (s : State) (layer : Nat) : State :=
  let mine := ls.filter fun l => l.1 == layer
  let total (k : Nat) : Nat := (mine.map fun l => l.2.getD k 0).sum
  let t := ((List.range 6).map total).sum
  let silent := decide (total 0 = t) || decide (silentThreshold s * t < 1024 * total 3)
  let a := (getCtx s c).silentBase + 16 * layer
  if t = 0 then s
  else
    let (e, s) := rdCtx s c a 16
    let run := if silent then Nat.min (leAt e 0 2 + 1) 65535 else 0
    let alert := silent && decide (0 < run) && run % silentSteps s == 0 && (leAt e 0 2 != 65535)
    let e := patch e 0 (toLe 2 run)
    let e := if alert then patch (patch e 4 (toLe 4 (leAt e 4 4 + 1))) 8 (toLe 8 step) else e
    let s := wrCtx s c a e
    if alert then
      let s := bump (setBit s (oSpt 0 + 4) 3) (oSpt 0 + 0x38) 1
      let s := postEvent s c 0x07 0xFFFFFFFF (toLe 2 layer ++ toLe 2 run ++ [0, 0, 0, 0] ++ toLe 8 step)
      ledgerRecord s 0x016 run (toLe 2 c ++ toLe 2 layer ++ toLe 8 step)
    else s

/-- The silent table of a committed step (R285); nothing where the stream has set none. -/
def silentUpdate (s : State) (c step : Nat) (recs : List Nat) : State :=
  let ls := layerCounts s c recs
  let layers := (ls.map (·.1)).foldl (fun l n => if l.contains n then l else l ++ [n]) []
  if (getCtx s c).silentSet then layers.foldl (silentLayer c step ls) s else s

/-- Processing of the scale records and of the silent table (R280, R285). -/
def spoutCommit (s : State) (c step o : Nat) (pairs : List (Nat × Int)) : State :=
  let recs := touchedRecs s c
  let s := recs.foldl (commitRecord c step o pairs) s
  let s := if o = 0 then silentUpdate s c step recs else s
  ((List.range 6).filter fun b => (getBasin s b).lease == some c).foldl
    (fun s b => updSpout s b fun x => { x with poisoned := false }) s

/-! Snapshots (R400, R401). -/

/-- Bytes of a block in a form: 1 FP32T, 2 binary32 view, 3 derived copy. -/
def snapBytes (s : State) (c form : Nat) (d : List Byte) : List Byte :=
  let n := bkElems d
  if form = 1 then readArr s c (bkMaster d) (6 * n)
  else if form = 2 then (List.range n).flatMap fun e => toLe 4 (readMaster s c d e).hi
  else readArr s c (bkCopy d) (copySize (bkCopyFmt d) * n)

/-- The blocks in list order from an address on a 64-byte boundary, each on such a one: index, address, bytes. -/
def snapLayout (s : State) (c form : Nat) : Nat → List Nat → List (Nat × Nat × List Byte)
  | _, [] => []
  | a, n :: l =>
    match getBlock s c n with
    | none => snapLayout s c form a l
    | some b =>
      let bs := snapBytes s c form b.raw
      (chunks a bs).map (fun x => (n, x.1, x.2)) ++ snapLayout s c form (ceilDiv (a + bs.length) 64 * 64) l

/-- Inserts a piece in ascending block index, after those of the same block. -/
def insertPiece (x : Nat × Nat × List Byte) : List (Nat × Nat × List Byte) → List (Nat × Nat × List Byte)
  | [] => [x]
  | y :: l => if x.1 < y.1 then x :: y :: l else y :: insertPiece x l

/-- Takes the snapshot of a committed commit; in any other outcome none is taken. Writes to a block wait until its pieces have left
(R401), so the bytes stand as they are at the commit; the layout begins on a 64-byte boundary (log entries 106, 134). -/
def takeSnap (s : State) (m : Commit) (o : Nat) : State :=
  if cmForm m.raw = 0 then s
  else if o ≠ 0 then slcErr s 10
  else
    let ps := (snapLayout s m.ctx (cmForm m.raw) (ceilDiv (cmAddr m.raw) 64 * 64) m.blocks).foldl (fun l x => insertPiece x l) []
    { s with sluice := { s.sluice with
      snaps := s.sluice.snaps ++ [{ ctx := m.ctx, form := cmForm m.raw,
                                    dev := if cmPeer m.raw then some (cmDev m.raw) else none, left := ps }] } }

/-- A WRITE packet of a context's job (R417). -/
def jobWrite (s : State) (c dst addr : Nat) (data : List Byte) : Pkt :=
  let pl := padTo 64 data
  { hdr := ({ dstDev := dst, srcDev := s.links.devId, dstEp := stackEp, srcEp := stackEp, kind := 5, len := pl.length / 64,
              job := (getCtx s c).job, addr } : Hdr).bytes
    payload := pl }

/-- SNAPSHOT (R400): the next piece of snapshot `k` goes to its destination. -/
def execSnapshot (k : Nat) (s : State) (fs : List MemFault := []) : Res :=
  .next <|
    match s.sluice.snaps[k]? with
    | none => s
    | some z =>
      let drop (s : State) : State := { s with sluice := { s.sluice with snaps := s.sluice.snaps.eraseIdx k } }
      match z.left with
      | [] => drop s
      | (_, a, bs) :: rest =>
        if !unitsRun s then s
        else memFaults fs s fun s =>
          let s' := if rest.isEmpty then drop s
            else { s with sluice := { s.sluice with snaps := s.sluice.snaps.modify k fun z => { z with left := rest } } }
          match z.dev with
          | some d => inject s' (jobWrite s' z.ctx d a bs)
          | none => if inWindow s z.ctx a bs.length then hostWrite s' z.ctx a bs else hostFault (drop s) z.ctx

/-! COMMIT_BARRIER_RELEASE (R396, R397). -/

/-- Counters and flags of an outcome. -/
def outcomeNoted (s : State) (o : Nat) : State :=
  let s := if o = 0 then bump s (oSlc + 0x20) 1 else s
  let s := if o % 2 = 1 then slcErr (bump s (oSlc + 0x28) 1) 0 else s
  if 2 ≤ o then slcErr (bump s (oSlc + 0x30) 1) 1 else s

/-- Steps 5 and 6 of R394. -/
def applyCommit (s : State) (m : Commit) (r : Released) : State :=
  let c := m.ctx
  let o := outcomeOf r
  let step := (getCtx s c).step.toNat
  let s := { s with sluice := { s.sluice with commits := s.sluice.commits.filter fun e => !(e.ctx == c && e.slot == m.slot) } }
  let s := if cmBarrier m.raw = 0xFF then s else updFBar s (cmBarrier m.raw) fun x => { x with released := false }
  let s := outcomeNoted s o
  let s := if o = 0 then m.blocks.foldl (commitBlock c step m.sched) s else s
  let s := spoutCommit s c step o r.pairs
  let s := if o = 0 then
      let s := updCtx s c fun x => { x with step := x.step + 1 }
      { s with sluice := { s.sluice with sinceSteps := s.sluice.sinceSteps + 1 } }
    else s
  let s := takeSnap s m o
  let s := if o = 0 && bitB r.flags 2 then startBuddy s step else s
  let s := updCtx s c fun x => { x with outcome := o, outcomeValid := true }
  let s := postEvent s c 0x02 m.slot (toLe 8 (cmStep m.raw) ++ toLe 1 o)
  completeCmd s c m.slot

/-- A committed outcome waits: for a region declared again to be complete (R17), for a copy that has still to read a listed block, and with
a checkpoint for the copy in progress (R401). -/
def commitWaits (s : State) (m : Commit) (r : Released) : Bool :=
  outcomeOf r == 0 &&
    (!regionsDone s m.ctx m.blocks || m.blocks.any (copyHolds s m.ctx) || (bitB r.flags 2 && s.sluice.buddy.isSome))

/-- COMMIT_BARRIER_RELEASE (R394, R396): the oldest arrived COMMIT of a context whose barrier has released is applied. A sluice datapath that
computes an output again is S1, and S3 at the second failure on one output (R449). -/
def execCommitBarrierRelease (ctx recomputes : Nat) (s : State) (fs : List MemFault := []) : Res :=
  .next <|
    match s.sluice.commits.find? fun m => m.ctx == ctx && m.arrived with
    | none => s
    | some m =>
      match releaseOf s m with
      | none => s
      | some r =>
        if !unitsRun s || commitWaits s m r then s
        else memFaults fs s fun s =>
          if recomputes = 0 then applyCommit s m r
          else if recomputes = 1 then raise (applyCommit s m r) 0x024 6 0 .all
          else raise (raise s 0x024 6 0 .all) 0x069 6 0 .all

/-! Operands, checkpoint requests and root windows (R386, R391, R404). -/

/-- OPERAND_READY (R386): entry `k` of the operands to be written; nothing where its region has been declared again since (R17). -/
def execOperandReady (k : Nat) (s : State) (fs : List MemFault := []) : Res :=
  .next <|
    match (if unitsRun s then s.sluice.operands[k]? else none) with
    | none => s
    | some (c, n) => memFaults fs s fun s =>
      let s := { s with sluice := { s.sluice with operands := s.sluice.operands.eraseIdx k } }
      match getBlock s c n with
      | none => s
      | some b =>
        let d := b.raw
        let r := sourceOf s c (bkGrad d)
        if !bkPrecond d || r.isEmpty || !srcValid r (bkElems d) || !regionDone s c (bkGrad d) then s
        else
          let s := (List.range (bkElems d)).foldl (fun s e =>
            let x := if frozen s c d e && !bkStatFrozen d then 0 else bfBits (sourceElem s c r e 0).1
            writeArr s c (bkOperand d + 2 * e) (toLe 2 x)) s
          sluiceNote s c n d 0 (getCtx s c).step.toNat

/-- CHECKPOINT_REQUEST (R404). -/
def execCheckpointRequest (s : State) : Res :=
  .next <|
    let z := s.sluice
    if slotBytes s != 0 && (decide (buddySteps s ≤ z.sinceSteps) || decide (buddySeconds s ≤ s.ledger.opsec - z.sinceSec)) then
      { s with sluice := { z with request := true } }
    else s

/-- The basin as lease grant leaves it (R170), its queue and counters kept. -/
def freshBasin (x : Basin) : Basin :=
  { x with
    bank0 := {}, bank1 := {}, front := 0, sel := 0, token := false, acc := [], stack := [], terms := 0
    shAcc := [], shStack := [], shTerms := 0, groups := [], colOpen := none, entry := 3, cursor := 0 }

/-- The computation that a ROOT_WINDOW names: block and matrix. -/
def winBlock (i : Item) : Nat := wfld i.raw 1 13 0
def winRight (i : Item) : Bool := wfld i.raw 1 14 14 == 1
def winBudget (i : Item) : Nat := wfld i.raw 2 39 0

/-- The window may start: earlier COMMITs have completed, no group is open, and no other basin runs the same computation (R391, R406). -/
def windowClear (s : State) (b : Nat) (i : Item) : Bool :=
  let x := getBasin s b
  let c := basinCtx s b
  let earlier := (getCtx s c).cmds.any fun m => cmdOp m == 0x0C && (BitVec.ofNat 32 i.slot - BitVec.ofNat 32 m.slot).toNat < 2 ^ 31
  let groupOpen := x.colOpen.isSome || x.groups.any fun g => g.2.opened
  let same (n : Nat) : Bool := n != b && basinCtx s n == c && (getBasin s n).queue.any fun j =>
    isMark 3 j && j.started && winBlock j == winBlock i && winRight j == winRight i
  !earlier && !groupOpen && x.passes.isEmpty && !(List.range 6).any same

/-- The block of a window: none where it is not then a VALID PRECOND block (R391). -/
def windowDesc (s : State) (b : Nat) (i : Item) : Option (List Byte) :=
  (getBlock s (basinCtx s b) (winBlock i)).bind fun k => if bkPrecond k.raw then some k.raw else none

/-- The window completes: the basin is as lease grant leaves it (R170, R391). -/
def windowDone (s : State) (b : Nat) (i : Item) : State := itemDone (updBasin s b freshBasin) b i.seq false 0

/-- The computation's next pass starts, its tile in the front bank; the window completes where no further pass may start. -/
def windowPass (s : State) (b : Nat) (i : Item) : State :=
  let c := basinCtx s b
  match windowDesc s b i, getRoot s c (winBlock i) (winRight i) with
  | some d, some r =>
    if r.converged || decide (winBudget i < i.used + r.size) then windowDone s b i
    else
      let raw := windowRaw r.size
      let bank := (getBasin s b).front
      let s := setBank s b bank fun _ => windowBank d r
      let s := updBasin s b fun x => { x with
        cursor := 0, passes := x.passes ++ [{ seq := i.seq, raw, bank, since := s.ticks, win := true }] }
      let blank := List.replicate 128 0
      updSpout s b fun x => { x with passes := x.passes ++ [{ seq := i.seq, ctx := c, raw, prof := blank, route := blank }] }
  | _, _ => windowDone s b i

/-- The next row of the window's pass enters the array, journalled like any row. -/
def windowRowIn (s : State) (b : Nat) (i : Item) (p : PassRun) : State :=
  match windowDesc s b i, getRoot s (basinCtx s b) (winBlock i) (winRight i), segmentFor s b p 1 with
  | some d, some r, some s =>
    let data := windowRow d r p.cursor
    let s := passBubbles (bump (journalWrite s b data) (oBsn b + 0x48) 1) b
    let s := updRun s b p.seq fun p => { p with segSlots := p.segSlots + 1 }
    let s := updItem s b i.seq fun i => { i with used := i.used + 1 }
    enterRows s b p 1 1
      [{ seq := p.seq, row := p.cursor, data, segNo := ((findRun (getBasin s b) p.seq).map (·.segNo)).getD 0, bank := p.bank }]
  | _, _, none => s
  | _, _, _ => s

/-- The pass has completed: its result goes to the computation, once no copy has still to read the block (R401). -/
def windowPassEnd (s : State) (b : Nat) (i : Item) : State :=
  let c := basinCtx s b
  let n := winBlock i
  if copyHolds s c n then s
  else
    let s := ledgerRecord s 0x010 (((getRoot s c n (winRight i)).map (·.size)).getD 0) (toLe 1 b)
    let s := dropRuns s b fun q => q == i.seq
    match windowDesc s b i, getRoot s c n (winRight i) with
    | some d, some r => rootResult s c n (winRight i) (rootPass d r 0)
    | _, _ => s

/-- ROOT_WINDOW (R391, R406): the window at the head of a queue starts, and then starts a pass of its computation, takes the pass's next row,
takes the result of the pass, or completes. Its rows travel, are checked and are replayed as those of any pass, and a basin that stops
goes on with them after it resumes. -/
def execRootWindow (b : Nat) (s : State) (fs : List MemFault := []) : Res :=
  .next <|
    let x := getBasin s b
    match x.queue.head? with
    | none => s
    | some i =>
      if !basinRuns s b || !i.checked || i.failed.isSome || !isMark 3 i then s
      else if !i.started then
        if !windowClear s b i then s
        else if (windowDesc s b i).isNone then itemFail s b i.seq .badDesc
        else updItem s b i.seq fun i => { i with started := true }
      else match x.passes.head? with
        | none => memFaults fs s fun s => windowPass s b i
        | some p =>
          if p.allChecked then memFaults fs s fun s => windowPassEnd s b i
          else if p.full || !x.replay.isEmpty || !x.reloads.isEmpty || x.retire.isSome || x.subst then s
          else memFaults fs s fun s => windowRowIn s b i p

end Sys2Proof.Machine
end

