-- ==== Sys2Proof/Machine/Ring.lean ====
section
/-!
DEFINITION. The command stream of a context: doorbells, fetching, the form of commands, and the commands that no other file has
(R402, R547, R552, R554 to R564).
-/

namespace Sys2Proof.Machine

/-! Doorbells (R554, R555, R568). -/

/-- A write of CTX_TAIL: an invalid one halts the context with COMMAND_BAD (R554). -/
def ringDoorbell (s : State) (c v : Nat) : State :=
  let x := getCtx s c
  let t := BitVec.ofNat 32 v
  let ahead := (t - x.head).toNat
  if x.st == .free then s
  else if 2 ^ x.ringLog2 < ahead || ahead < (x.tail - x.head).toNat then
    halt (hifFlag s ((portOf s c).getD 0) 3) c 2 0xFFFFFFFF 0
  else updCtx s c fun x => { x with tail := t }

/-- CHANTER_DOORBELL (R555): message `k` in flight reaches the chanter of a port, and its credit goes back. -/
def execChanterDoorbell (k : Nat) (s : State) : Res :=
  .next <|
    match s.jets.msgs[k]? with
    | none => s
    | some m =>
      let p := m.dst % 4096
      if m.dst / 4096 ≠ 5 || 4 ≤ p || !inTurn s k m then s
      else
        let own := ctxOfJet s m.src
        let c := leAt m.data 0 2
        let v := leAt m.data 4 4
        let s := dropMsg s k
        let s := countP1 { s with jets := { s.jets with credits := s.jets.credits ++ [(m.src, m.srcIdx)] } } 1
        let s := finishDisc s m.src m.srcIdx
        if own != some c || leAt m.data 2 2 != 0 || leAt m.data 8 56 != 0 then hifFlag s p 3 else ringDoorbell s c v

/-! The form of a command (R556, R558 to R561, R563). -/

/-- Slots of an opcode; none for a reserved one. -/
def slotsFor (raw : List Byte) : Option Nat :=
  let op := leAt raw 0 1
  if op = 0x01 then some (1 + leAt raw 9 1)
  else if op = 0x0B then some 6
  else if op = 0x03 || op = 0x04 || op = 0x07 || op = 0x09 then some 2
  else if op ≤ 0x13 then some 1
  else none

/-- Named bytes of an opcode beyond the header, as first and last byte. -/
def namedBytes (op : Nat) : List (Nat × Nat) :=
  match op with
  | 0x01 => [(8, 9), (128, 8191)]
  | 0x02 => [(8, 10), (16, 31)]
  | 0x03 => [(8, 9), (128, 255)]
  | 0x04 => [(8, 9), (128, 191)]
  | 0x05 => [(8, 8), (16, 35), (40, 75)]
  | 0x06 => [(16, 22)]
  | 0x07 => [(128, 191)]
  | 0x08 => [(16, 17)]
  | 0x09 => [(16, 17), (128, 255)]
  | 0x0A => [(16, 17)]
  | 0x0B => [(128, 703)]
  | 0x0C => [(8, 10), (16, 35), (40, 47)]
  | 0x0D => [(8, 37)]
  | 0x0E => [(16, 17)]
  | 0x10 => [(8, 8), (16, 39)]
  | 0x11 => [(8, 9), (16, 19)]
  | 0x12 => [(8, 8), (16, 31)]
  | _ => []

/-- Every byte that the opcode does not name is 0. -/
def restZero (raw : List Byte) (named : List (Nat × Nat)) : Bool :=
  allBelow raw.length fun i =>
    decide (i < 8) || named.any (fun r => decide (r.1 ≤ i) && decide (i ≤ r.2)) || leAt raw i 1 == 0

/-- A hint is an OP or NONE. -/
def hintOk (h : Nat) : Bool := decide (h ≤ 7) || h == 0xFF

/-- The fields of a command lie in their ranges. -/
def cmdFieldsOk (raw : List Byte) : Bool :=
  let b8 := leAt raw 8 1
  let b9 := leAt raw 9 1
  let w := leAt raw 16 2
  match leAt raw 0 1 with
  | 0x01 => decide (b8 ≤ 5) && decide (1 ≤ b9) && decide (b9 ≤ 63)
  | 0x02 => decide (leAt raw 10 1 ≤ 1)
  | 0x03 => decide (b8 ≤ 5) && decide (b9 ≤ 63)
  | 0x04 => decide (b8 ≤ 5) && decide (b9 ≤ 63)
  | 0x05 => decide (b8 < 128) && (!bitB b8 1 || (decide (1 ≤ leAt raw 32 4) && decide (leAt raw 32 4 ≤ 65535)))
  | 0x06 => allBelow 6 (fun i => hintOk (leAt raw (16 + i) 1)) && decide (leAt raw 22 1 ≤ 5)
  | 0x08 => decide (w ≤ 1023)
  | 0x09 => decide (w < 16384)
  | 0x0A => decide (w < 16384)
  | 0x0C => (decide (b8 ≤ 15) || b8 == 0xFF) && decide (b9 ≤ 3) && decide (leAt raw 10 1 ≤ 1) && decide (1 ≤ leAt raw 32 2)
            && decide (leAt raw 32 2 ≤ 16384)
  | 0x0D => decide (b8 ≤ 3) && decide (b9 ≤ 3) && decide (leAt raw 10 1 ≤ 5) && decide (leAt raw 11 1 ≤ 2) && decide (leAt raw 13 1 ≤ 1)
            && decide (1 ≤ leAt raw 16 8) && decide (leAt raw 16 8 < 2 ^ 32) && decide (leAt raw 32 2 ≤ 1023)
            && decide (leAt raw 34 1 ≤ 1) && decide (leAt raw 35 2 < 4096)
  | 0x10 => decide (b8 ≤ 3) && leAt raw 32 8 % 64 == 0
  | 0x11 => (b8 == 0 && decide (b9 ≤ 15)) || (b8 == 1 && decide (b9 ≤ 23))
  | 0x12 => decide (b8 ≤ 1) && leAt raw 16 8 % 8 == 0
  | _ => true

/-- What R563 decides from a command's own bytes. -/
def cmdWellFormed (raw : List Byte) : Bool :=
  slotsFor raw == some (bits (leAt raw 0 8) 13 8 + 1) && bits (leAt raw 0 8) 63 22 == 0
  && restZero raw (namedBytes (leAt raw 0 1)) && cmdFieldsOk raw

/-! Fetching (R540, R541, R552, R554, R557). -/

/-- The chanter fetches for a context. -/
def mayFetch (s : State) (c : Nat) : Bool :=
  let x := getCtx s c
  unitsRun s && (x.st == .ready || x.st == .running) && !x.suspending && !heldByRecovery s c && x.head != x.tail

/-- Address of the next slot to fetch, and its number within the ring. -/
def fetchIdx (x : Ctx) : Nat := x.head.toNat % 2 ^ x.ringLog2
def fetchAddr (x : Ctx) : Nat := x.ringBase + 128 * fetchIdx x

/-- A command of `n` slots is decoded, once the tail covers it; one that wraps or is malformed halts the context (R554, R563). -/
def decodeCmd (s : State) (c n : Nat) (raw : List Byte) : State :=
  let x := getCtx s c
  if fetchIdx x + n > 2 ^ x.ringLog2 then commandBad s c x.head.toNat
  else if (x.tail - x.head).toNat < n then s
  else if !cmdWellFormed raw then commandBad s c x.head.toNat
  else updCtx s c fun x => { x with
    head := x.head + BitVec.ofNat 32 n, cmds := x.cmds ++ [{ slot := x.head.toNat, raw, since := s.ticks }] }

/-- COMMAND_FETCHED (R552, R554, R557): the slots of the next command arrive: `data` from the host, where `ok` says that the reads completed,
or from the context's memory. -/
def execCommandFetched (ctx : Nat) (data : List Byte) (ok : Bool) (s : State) (fs : List MemFault := []) : Res :=
  .next <|
    let x := getCtx s ctx
    let a := fetchAddr x
    if !mayFetch s ctx then s
    else if x.ringHost then
      let n := bits (leAt data 0 8) 13 8 + 1
      if !inWindow s ctx a 128 || !ok || (fetchIdx x + n ≤ 2 ^ x.ringLog2 && !inWindow s ctx a (128 * n)) then hostFault s ctx
      else decodeCmd s ctx n (slice data 0 (128 * n))
    else memFaults fs s fun s => match ctxRead s ctx a 8 with
      | none => commandBad s ctx x.head.toNat
      | some (h, s) =>
        let n := bits (leNat h) 13 8 + 1
        match ctxRead s ctx a (128 * n) with
        | none => commandBad s ctx x.head.toNat
        | some (raw, s) => decodeCmd s ctx n raw

/-! Commands of one effect. -/

/-- Basin and terraces that the context's lease claims. -/
def claimsBasin (s : State) (c b : Nat) : Bool := bitB (getCtx s c).lease.basins b

/-- NOP (R558). -/
def execNopCmd (ctx : Nat) (s : State) : Res := .next <| withCmd s ctx 0x00 fun s m => completeCmd s ctx m.slot

/-- LAUNCH (R38, R558): it starts its threads when all of them are FREE; one that names no terrace completes. -/
def execLaunchCmd (ctx : Nat) (s : State) : Res :=
  .next <| withCmd s ctx 0x02 fun s m =>
    let mask := leAt m.raw 8 1
    if !onlyBits mask (getCtx s ctx).lease.terraces then commandBad s ctx m.slot
    else if mask = 0 then completeCmd s ctx m.slot
    else tryLaunch s ctx m

/-- PROFILE_WRITE and ROUTE_WRITE: the write is held until its index is free (R262, R326). -/
def holdWrite (route : Bool) (op n ctx : Nat) (s : State) : State :=
  withCmd s ctx op fun s m =>
    let b := leAt m.raw 8 1
    if !claimsBasin s ctx b then commandBad s ctx m.slot
    else updSpout s b fun x => { x with heldWrites := x.heldWrites ++ [(route, leAt m.raw 9 1, slice m.raw 128 n, m.slot)] }

/-- PROFILE_WRITE (R262, R558). -/
def execProfileWrite (ctx : Nat) (s : State) : Res := .next (holdWrite false 0x03 128 ctx s)
/-- ROUTE_WRITE (R326, R558). -/
def execRouteWrite (ctx : Nat) (s : State) : Res := .next (holdWrite true 0x04 64 ctx s)

/-- A context with the fields of a SET (R559). -/
def applySet (x : Ctx) (raw : List Byte) : Ctx :=
  let m := leAt raw 8 1
  let at8 (o : Nat) : Nat := leAt raw o 8
  { x with
    seed := if bitB m 0 then at8 16 else x.seed
    scaleBase := if bitB m 1 then at8 24 else x.scaleBase
    scaleLen := if bitB m 1 then leAt raw 32 4 else x.scaleLen
    silentBase := if bitB m 2 then at8 40 else x.silentBase
    silentSet := x.silentSet || bitB m 2
    updBase := if bitB m 3 then at8 48 else x.updBase
    updSet := x.updSet || bitB m 3
    groupBase := if bitB m 4 then at8 56 else x.groupBase
    remoteBase := if bitB m 5 then at8 64 else x.remoteBase
    fixed := if bitB m 6 then slice raw 72 4 else x.fixed }

/-- It sets or lengthens the scale, silent or update table. -/
def growsTables (x y : Ctx) : Bool := decide (x.scaleLen < y.scaleLen) || (!x.silentSet && y.silentSet) || (!x.updSet && y.updSet)

/-- SET (R559, R610). -/
def execSetCmd (ctx : Nat) (s : State) : Res :=
  .next <| withCmd s ctx 0x05 fun s m =>
    let x := getCtx s ctx
    let y := applySet x m.raw
    if growsTables x y && !buddyFits s (fun d => if d = ctx then y else getCtx s d) 0 then commandBad (slcErr s 11) ctx m.slot
    else completeCmd (updCtx s ctx fun x => applySet x m.raw) ctx m.slot

/-- PHASE (R482, R558). -/
def execPhaseCmd (ctx : Nat) (s : State) : Res :=
  .next <| withCmd s ctx 0x06 fun s m =>
    let s := updCtx s ctx fun x => { x with
      hints := (List.range 6).map fun i => leAt m.raw (16 + i) 1, phase := leAt m.raw 22 1 }
    settle (completeCmd s ctx m.slot)

/-- REGION_DECLARE (R361, R362, R558); a collective that waits for the region goes on. -/
def execRegionDeclare (ctx : Nat) (s : State) : Res :=
  .next <| withCmd s ctx 0x07 fun s m =>
    advanceAll (completeCmd (declareRegion s ctx (slice m.raw 128 64)) ctx m.slot) ctx

/-- REGION_RELEASE (R370, R558). -/
def execRegionRelease (ctx : Nat) (s : State) : Res :=
  .next <| withCmd s ctx 0x08 fun s m => completeCmd (releaseRegion s ctx (leAt m.raw 16 2)) ctx m.slot

/-- JOB_START (R562). -/
def execJobStart (ctx : Nat) (s : State) : Res :=
  .next <| withCmd s ctx 0x13 fun s m =>
    if !(getCtx s ctx).fabric then commandBad s ctx m.slot
    else if !fabricReady s then halt s ctx 4 m.slot 0
    else completeCmd (updCtx s ctx fun x => { x with jobStarted := true }) ctx m.slot

/-! Evaluation windows (R402, R547). -/

/-- EVAL_OPEN (R402): it starts once every earlier COMMIT has completed, and the window opens. -/
def execEvalOpen (ctx : Nat) (s : State) : Res :=
  .next <|
    match nextCmd s ctx with
    | none => s
    | some n =>
      if (cmdsBefore (getCtx s ctx) n.slot).any fun e => cmdOp e == 0x0C then s
      else withCmd s ctx 0x0E fun s m =>
        let e := leAt m.raw 16 2
        let y := getCtx s e
        if y.st == .free || !y.eval || y.evalOf != ctx || portOf s e != portOf s ctx then commandBad s ctx m.slot
        else
          let s := updCtx s ctx fun x => { x with window := some e }
          completeCmd (updCtx s e fun y => { y with windowOpen := true }) ctx m.slot

/-- EVAL_CLOSE (R402): of the evaluation context's stream. -/
def execEvalClose (ctx : Nat) (s : State) : Res :=
  .next <| withCmd s ctx 0x0F fun s m =>
    let x := getCtx s ctx
    if !x.eval then commandBad s ctx m.slot
    else
      let s := updCtx s ctx fun x => { x with windowOpen := false }
      completeCmd (updCtx s x.evalOf fun y => { y with window := none }) ctx m.slot

/-! Data (R552, R558). -/

/-- A write of a command to the host or to the context's memory; a device address that the context may not write is malformed
(log entry 50). -/
def cmdWrite (s : State) (c slot : Nat) (host : Bool) (a : Nat) (d : List Byte) : State :=
  if host then hostWrite s c a d
  else match ctxWrite s c a d with
    | some s => s
    | none => commandBad s c slot

/-- COPY (R552, R558): every byte at once; `data` is what the host's memory gives, where `ok` says that the reads completed. -/
def execCopyCmd (ctx : Nat) (data : List Byte) (ok : Bool) (s : State) (fs : List MemFault := []) : Res :=
  .next <| memFaults fs s fun s => withCmd s ctx 0x10 fun s m =>
    let fl := leAt m.raw 8 1
    let src := leAt m.raw 16 8
    let dst := leAt m.raw 24 8
    let n := leAt m.raw 32 8
    let put (s : State) (d : List Byte) : State := completeCmd (cmdWrite s ctx m.slot (bitB fl 1) dst d) ctx m.slot
    if n = 0 then completeCmd s ctx m.slot
    else if bitB fl 0 then
      if inWindow s ctx src n && ok then put s (slice data 0 n) else hostFault s ctx
    else match ctxRead s ctx src n with
      | none => commandBad s ctx m.slot
      | some (d, s) => put s d

/-- SIGNAL (R558). -/
def execSignalCommand (ctx : Nat) (s : State) : Res :=
  .next <| withCmd s ctx 0x12 fun s m =>
    completeCmd (cmdWrite s ctx m.slot (bitB (leAt m.raw 8 1) 0) (leAt m.raw 16 8) (slice m.raw 24 8)) ctx m.slot

/-! Commands that wait. -/

/-- The condition of a WAIT (R180, R558). -/
def waitMet (s : State) (c : Nat) (raw : List Byte) : Bool :=
  let i := leAt raw 9 1
  let v : Reg := if leAt raw 8 1 = 0 then SMap.get 0 (getCtx s c).counters i else SMap.get 0 (getBasin s (i / 4)).comp (i % 4)
  decide ((v - BitVec.ofNat 32 (leAt raw 16 4)).toNat < 2 ^ 31)

/-- Slot counts of the started commands of an opcode, oldest first. -/
def startedOf (s : State) (c op : Nat) : List Nat :=
  ((getCtx s c).cmds.filter fun m => m.started && cmdOp m == op).map (·.slot)

/-- A started WAIT completes when its condition holds. -/
def tryWait (c : Nat) (s : State) (slot : Nat) : State :=
  match (getCtx s c).cmds.find? fun m => m.slot == slot with
  | none => s
  | some m => if ctxRuns s c && waitMet s c m.raw then completeCmd s c slot else s

/-- WAIT (R180, R558): it starts, and every WAIT of the context whose condition holds completes. -/
def execWaitCmd (ctx : Nat) (s : State) : Res :=
  .next <|
    let s := withCmd s ctx 0x11 fun s m =>
      if leAt m.raw 8 1 = 1 && !claimsBasin s ctx (leAt m.raw 9 1 / 4) then commandBad s ctx m.slot else s
    (startedOf s ctx 0x11).foldl (tryWait ctx) s

/-- The next item of a BASIN_ITEMS command may enter its queue (R169, R262, R557): room, no earlier items of the basin, and no earlier write
of the profile that it names. -/
def mayMove (s : State) (c : Nat) (m : Cmd) : Bool :=
  let b := leAt m.raw 8 1
  let x := getBasin s b
  let i := slice m.raw (128 * (1 + m.moved)) 128
  let ahead := (cmdsBefore (getCtx s c) m.slot).any fun e => cmdOp e == 0x01 && leAt e.raw 8 1 == b
  let held := (getSpout s b).heldWrites.any fun h => kindOf i == 1 && h.2.1 == pProfile i && slotBefore h.2.2.2 m.slot
  ctxRuns s c && x.lease == some c && decide (x.queue.length < 32) && !ahead && !held && decide (m.moved < leAt m.raw 9 1)

/-- An item enters a queue with the next sequence number and the FIXED recipe of its context (R172, R273). -/
def queueItem (s : State) (c b slot : Nat) (raw : List Byte) : State :=
  updBasin s b fun x => { x with
    queue := x.queue ++ [{ seq := x.nextSeq, raw, fix := (getCtx s c).fixed, slot }], nextSeq := x.nextSeq + 1 }

/-- Moves items of one BASIN_ITEMS command; with the last one the command completes. -/
def moveItems (c slot : Nat) : Nat → State → State
  | 0, s => s
  | f + 1, s =>
    match (getCtx s c).cmds.find? fun m => m.slot == slot with
    | none => s
    | some m =>
      if mayMove s c m then
        let s := queueItem s c (leAt m.raw 8 1) slot (slice m.raw (128 * (1 + m.moved)) 128)
        let s := updCmd s c slot fun m => { m with moved := m.moved + 1 }
        if m.moved + 1 = leAt m.raw 9 1 then completeCmd s c slot else moveItems c slot f s
      else s

/-- BASIN_ITEMS (R169, R557, R558): it starts, and items of the context's commands enter the queues that have room. -/
def execBasinItems (ctx : Nat) (s : State) : Res :=
  .next <|
    let s := withCmd s ctx 0x01 fun s m =>
      if claimsBasin s ctx (leAt m.raw 8 1) then s else commandBad s ctx m.slot
    (startedOf s ctx 0x01).foldl (fun s k => moveItems ctx k 64 s) s

/-! Reports (R552, R564). -/

/-- A host read is outstanding: of the ring, or of the COPY that is next. -/
def hostReadOut (s : State) (c : Nat) : Bool :=
  (mayFetch s c && (getCtx s c).ringHost) ||
    (nextCmd s c).any fun m => cmdOp m == 0x10 && bitB (leAt m.raw 8 1) 0

/-- HOST_ACCESS_TIMEOUT (R552): a host read has not completed within 50 ms. -/
def execHostAccessTimeout (ctx : Nat) (s : State) : Res := .next (if hostReadOut s ctx then hostFault s ctx else s)

/-- A command waits to start, or its condition does not hold. -/
def cmdWaits (s : State) (c : Nat) (m : Cmd) : Bool :=
  !m.started || (cmdOp m == 0x11 && !waitMet s c m.raw) || (cmdOp m == 0x02 && m.threads.isEmpty)

/-- The oldest MARK WAIT of the context's basins that has stayed unsatisfied for longer than the limit, with its basin (R208, R564). -/
def markStalled (s : State) (c limit : Nat) : Option (Nat × Item) :=
  ((heldBasins s c).filterMap fun b =>
    ((getBasin s b).queue.find? fun i => isMark 1 i && i.checked && !i.stalled && decide (limit < s.ticks - i.since)).map fun i => (b, i)).head?

/-- COMMAND_STALL (R564): the oldest command, or MARK WAIT of a basin queue (R208), that has waited beyond HIF_WAIT_LIMIT and has not been
reported. -/
def execCommandStall (ctx : Nat) (s : State) : Res :=
  .next <|
    let limit := bits (regOf s (oHif ((portOf s ctx).getD 0) + 8)) 9 0 * 50000000
    let report (s : State) (slot since basin : Nat) : State :=
      ledgerRecord (postEvent s ctx 0x08 slot ([2, 0] ++ toLe 2 basin)) 0x01B ((s.ticks - since) / 50000000) (toLe 2 ctx ++ toLe 4 slot)
    match (getCtx s ctx).cmds.find? fun m => cmdWaits s ctx m && !m.stalled && decide (limit < s.ticks - m.since) with
    | some m => report (updCmd s ctx m.slot fun m => { m with stalled := true }) m.slot m.since 0
    | none =>
      match markStalled s ctx limit with
      | some (b, i) => report (updItem s b i.seq fun i => { i with stalled := true }) i.slot i.since b
      | none => s

end Sys2Proof.Machine
end

