-- ==== Sys2Proof/Machine/HostRows.lean ====
section
/-!
DEFINITION. What requesters do to the block's registers, context pages and apertures (R9 to R14, R341, R527, R536, R553, R554, R566).
-/

namespace Sys2Proof.Machine

/-! Register writes (R9, R10, R12). -/

/-- The data of an update's next block (SEC_UPDATE_WINDOW). -/
def windowData (s : State) : List Byte := (List.range 4096).map fun i => SMap.get 0 s.boot.updWindow i

/-- A command of SEC_UPDATE_CTRL (R527 to R529); a reserved one has no effect. -/
def secCommand (s : State) (v : Nat) : State :=
  match bits v 2 0 with
  | 1 => beginUpdate s true (bits v 3 3)
  | 2 => writeUpdate s true (regOf s (oSec + 8) % 2 ^ 14) (windowData s)
  | 3 => finishUpdate s true
  | 4 => abortUpdate s true
  | 5 => svnCommit s true (2 ^ 32)
  -- a reserved command is refused (R14; log entry 132)
  | _ => if s.boot.inReset then s else updRefuse s

/-- The host has consumed event records: the vector may be raised again (R566). -/
def evqAdvance (s : State) (c v : Nat) : State :=
  updCtx s c fun x => { x with evqHead := BitVec.ofNat 32 v, armed := true }

/-- A 32-bit write of the control space. -/
def writeCtl (s : State) (x v : Nat) : State :=
  let o := x % 0x10000
  if x / 0x10000 / 4 = 4 && o = 0x140 then (if bitB v 0 then adminGo s (x / 0x10000 % 4) else s)
  else if x = oSec + 4 then secCommand s v
  else if x / 0x10000 = 1 && 0x1000 ≤ o && o < 0x2000 then
    updBoot s fun b => { b with updWindow := putBytes b.updWindow (o - 0x1000) (toLe 4 v) }
  else if x / 0x10000 = 2 then settle (ctlWrite s x v)
  else ctlWrite s x v

/-- One 32-bit write by a port (0 to 3) or the I3C target (4): BAR0 below 64 MiB, BAR2 above (R536, log entry 37). -/
def writeWord (s : State) (port a v : Nat) : State :=
  if a < bar2 then (if responds s port a then writeCtl s a v else s)
  else
    let c := (a - bar2) / 0x10000
    let o := (a - bar2) % 0x10000
    if c < 1024 && ownCtx s port c then
      (if o = 0x004 then ringDoorbell s c v else if o = 0x00C && (getCtx s c).st != .free then evqAdvance s c v else s)
    else s

/-- REGISTER_WRITE (R9, R10, R12): an aligned write of 4 or 8 bytes, the low word first. -/
def execRegisterWrite (port addr size value : Nat) (s : State) : Res :=
  .next <|
    if s.boot.inReset || !wellSized addr size then s
    else
      let s := writeWord s port addr (value % 2 ^ 32)
      if size = 8 then writeWord s port (addr + 4) (value / 2 ^ 32 % 2 ^ 32) else s

/-- COUNTER_LOW_READ (R9, R12, R13): a read of a register, which latches the high word of a counter whose low word it reads. -/
def execCounterLowRead (port addr size : Nat) (s : State) : Res :=
  .next <|
    if s.boot.inReset then s
    else
      let r := readAccess s port addr size
      emit r.2 (.readData port addr r.1)

/-- CTX_TAIL (R554). -/
def execCtxTail (port ctx value : Nat) (s : State) : Res :=
  .next (if ctx < 1024 && ownCtx s port ctx then ringDoorbell s ctx value else s)

/-- CTX_EVQ_HEAD (R566). -/
def execCtxEvqHead (port ctx value : Nat) (s : State) : Res :=
  .next (if ctx < 1024 && ownCtx s port ctx && (getCtx s ctx).st != .free then evqAdvance s ctx value else s)

/-! The aperture (R341, R553). -/

/-- First address of basin and spout space. -/
def diagBase : Nat := 0x300000000000

/-- A byte of a bank, of the accumulators and stacks, or of a row store. -/
def bankByte (k : Bank) (o : Nat) : Byte := BitVec.ofNat 8 ((SMap.get (0 : BitVec 16) k.words (o / 2)).toNat / 256 ^ (o % 2))

def accByte (x : Basin) (o : Nat) : Byte :=
  let n := o / 85
  let v : W40 := if o % 85 < 5 then SMap.get 0 x.acc n else SMap.get 0 x.stack ((o % 85 / 5 - 1) * 2 ^ 18 + n)
  BitVec.ofNat 8 (v.toNat / 256 ^ (o % 5))

def storeByte (x : Spout) (k o : Nat) : Byte :=
  match x.groups.find? fun g => g.store == k && holdsStore x g with
  | none => 0
  | some g =>
    let v : F32 := if o % 8 < 4 then F32.ofVal (SMap.get (.f 0) g.vals (o / 8)).val else SMap.get 0 g.sides (o / 8)
    BitVec.ofNat 8 (v.toNat / 256 ^ (o % 4))

/-- A byte of basin and spout space: 0 of a unit that is leased or not STOPPED; none where nothing backs it (R341, R342). -/
def diagByte (s : State) (a : Nat) : Option Byte :=
  let o := a - diagBase
  let shown (b : Nat) (v : Byte) : Byte := if (getBasin s b).lease.isNone && (getBasin s b).stopped then v else 0
  if a < diagBase then none
  else if o < 0xC000000 then
    let b := o / 0x2000000
    let q := o % 0x2000000
    let x := getBasin s b
    if q < 0x80000 then some (shown b (bankByte x.bank0 q))
    else if q < 0x100000 then some (shown b (bankByte x.bank1 (q - 0x80000)))
    else if q < 0x100000 + 22282240 then some (shown b (accByte x (q - 0x100000)))
    else none
  else if o < 0xF000000 then
    let b := (o - 0xC000000) / 0x800000
    let q := (o - 0xC000000) % 0x800000
    if q < 0x400000 then some (shown b (storeByte (getSpout s b) (q / 0x200000) (q % 0x200000))) else none
  else none

/-- Where an aperture access goes. -/
inductive Aper where
  | phys (a : Nat)
  | ctx (c a : Nat)
  | diag (a : Nat)
  deriving DecidableEq, Repr

/-- The target of an access of `n` bytes through a port's window; none where the window is disabled or a check fails (R553). -/
def aperture (s : State) (port off n : Nat) (write : Bool) : Option Aper :=
  let w := off / 2 ^ 30
  let x := off % 2 ^ 30
  let lo := regOf s (oHif port + 0x200 + 8 * w)
  let a := bits (regOf s (oHif port + 0x204 + 8 * w)) 17 0 * 2 ^ 30 + x
  let q := getPort s port
  let c := bits lo 12 3
  if s.recov.st == .contained || 64 ≤ w || 2 ^ 30 < x + n || !bitB lo 0 || (write && bitB lo 2) then none
  else if bitB lo 1 then
    (if q.frameFirst * 2 ^ 21 ≤ a && a + n ≤ (q.frameFirst + q.frameCount) * 2 ^ 21 then some (.phys a) else none)
  else if diagBase ≤ a && a < diagBase + 0x10000000 then (if q.platform && !write then some (.diag a) else none)
  else if ownCtx s port c && (getCtx s c).st != .free then some (.ctx c a)
  else none

/-- The access fails: APER_FAULT, and Completer Abort for a read (R553). -/
def aperFault (s : State) (port off : Nat) (write : Bool) : State :=
  let s := hifFlag s port 1
  if write then s else emit s (.completerAbort port off)

/-- BAR4_ACCESS (R341, R348, R553): a write of `data`, or a read of as many bytes. -/
def execBar4Access (port offset : Nat) (write : Bool) (data : List Byte) (s : State) (fs : List MemFault := []) : Res :=
  .next <|
    let n := data.length
    if s.boot.inReset || 4 ≤ port || !(getPort s port).created then s
    else memFaults fs s fun s => match aperture s port offset n write with
      | none => aperFault s port offset write
      | some (.phys a) => if write then writePhys s a data else emit s (.readData port offset (readPhys s a n))
      | some (.diag a) =>
        let d := (List.range n).filterMap fun i => diagByte s (a + i)
        if d.length = n then emit s (.readData port offset d) else aperFault s port offset write
      | some (.ctx c a) =>
        if write then
          match ctxWrite s c a data with
          | some s => s
          | none => aperFault (cisRefused s) port offset write
        else
          match ctxRead s c a n with
          | some (d, s) => emit s (.readData port offset d)
          | none => aperFault (cisRefused s) port offset write

end Sys2Proof.Machine
end

