-- ==== Sys2Proof/Machine/JetVector.lean ====
section
/-!
DEFINITION. Vector instructions of a jet (R101 to R107): parts of one 128-byte access each, elements in their types.
-/

namespace Sys2Proof.Machine

/-- Bytes of an element of a vector type (R101). -/
def velem (ty : Nat) : Nat := if ty = 0 ∨ ty = 3 then 4 else if ty = 4 then 1 else 2

def vfmt (ty : Nat) : Fmt := if ty = 0 then f32 else if ty = 1 then bf16 else f16

def visFp (ty : Nat) : Bool := decide (ty ≤ 2)

def vwidth (ty : Nat) : Nat := 8 * velem ty

/-- An exact integer result saturated to the type, with OF (R103). -/
def satFlags (w : Nat) (z : Int) : Nat × Nat :=
  let lo : Int := -(2 ^ (w - 1) : Nat)
  let hi : Int := (2 ^ (w - 1) : Nat) - 1
  (ofSigned w (clampI lo hi z), if z < lo ∨ hi < z then fOF else 0)

/-- Product or sum of encodings exact in the type's own arithmetic, then one rounding or saturation (R103). The operands are
the encodings of a type, the scalar sC as a 64-bit register. -/
structure VArgs where
  ty : Nat
  a : Nat
  b : Nat
  d : Nat
  c : Word

/-- sC as an exact value: binary32, or a 64-bit integer for integer types (R104). -/
def VArgs.cF (x : VArgs) : FVal := f32.decode (x.c.toNat % 2 ^ 32)

def vresult (ty : Nat) (v : FVal) (ops : List Nat) (extraS : Bool) : Nat × Nat :=
  let f := vfmt ty
  let (r, fl) := roundFlags f v
  (r, fl ||| invalid f ops v ||| (if extraS then fNV else 0))

def vadd (x : VArgs) : Nat × Nat :=
  if visFp x.ty then vresult x.ty (((vfmt x.ty).decode x.a).add ((vfmt x.ty).decode x.b)) [x.a, x.b] false
  else satFlags (vwidth x.ty) (toSigned (vwidth x.ty) x.a + toSigned (vwidth x.ty) x.b)

def vsub (x : VArgs) : Nat × Nat :=
  if visFp x.ty then vresult x.ty (((vfmt x.ty).decode x.a).add ((vfmt x.ty).decode x.b).neg) [x.a, x.b] false
  else satFlags (vwidth x.ty) (toSigned (vwidth x.ty) x.a - toSigned (vwidth x.ty) x.b)

def vmul (x : VArgs) : Nat × Nat :=
  if visFp x.ty then vresult x.ty (((vfmt x.ty).decode x.a).mul ((vfmt x.ty).decode x.b)) [x.a, x.b] false
  else satFlags (vwidth x.ty) (toSigned (vwidth x.ty) x.a * toSigned (vwidth x.ty) x.b)

def vfma (x : VArgs) : Nat × Nat :=
  if visFp x.ty then fmaIn (vfmt x.ty) (vfmt x.ty) x.d x.a x.b
  else
    let g := toSigned (vwidth x.ty)
    satFlags (vwidth x.ty) (g x.d + g x.a * g x.b)

/-- a × sC + b: the scalar's own NaN and signalling NaN count as an operand's (R103, R104). -/
def vaxpy (x : VArgs) : Nat × Nat :=
  if visFp x.ty then
    let f := vfmt x.ty
    let a := f.decode x.a
    let b := f.decode x.b
    let c32 := x.c.toNat % 2 ^ 32
    let p := a.mul x.cF
    let v := p.add b
    let (r, fl) := roundFlags f v
    let anyNan := isNaN a || isNaN b || isNaN x.cF
    let inv := isSNaN f x.a || isSNaN f x.b || isSNaN f32 c32 || (isNaN v && !anyNan)
    let corner := isNaN b && isNaN p && !isNaN a && !isNaN x.cF && Config.fmaNanInvalid
    (r, fl ||| (if inv || corner then fNV else 0))
  else
    let g := toSigned (vwidth x.ty)
    satFlags (vwidth x.ty) (g x.a * x.c.toInt + g x.b)

def vminmax (mx : Bool) (x : VArgs) : Nat × Nat :=
  if visFp x.ty then fminmax (vfmt x.ty) mx x.a x.b
  else
    let g := toSigned (vwidth x.ty)
    (if decide (g x.a < g x.b) != mx then x.a else x.b, 0)

/-- VCOPY moves the bits of an element (R103, R104; a NaN: log entry 145). -/
def vcopy (x : VArgs) : Nat × Nat := (x.a, 0)

/-- sC converted to the type (R104). -/
def vfill (x : VArgs) : Nat × Nat :=
  if visFp x.ty then
    let (r, fl) := roundFlags (vfmt x.ty) x.cF
    (r, fl ||| (if isSNaN f32 (x.c.toNat % 2 ^ 32) then fNV else 0))
  else satFlags (vwidth x.ty) x.c.toInt

/-- VCVT of one element (R107). -/
def vcvt (src dst a : Nat) : Nat × Nat :=
  if visFp src then
    let v := (vfmt src).decode a
    if visFp dst then
      let (r, fl) := roundFlags (vfmt dst) v
      (r, fl ||| (if isSNaN (vfmt src) a then fNV else 0))
    else
      let (z, fl) := toIntFlags (vwidth dst) fOF v
      (ofSigned (vwidth dst) z, fl)
  else if visFp dst then roundFlags (vfmt dst) (ofIntF (toSigned (vwidth src) a))
  else satFlags (vwidth dst) (toSigned (vwidth src) a)

/-- Elements of a list of bytes. -/
def elemsOf (size : Nat) (bs : List Byte) : List Nat :=
  (List.range (bs.length / size)).map fun i => leAt bs (size * i) size

/-- One access of a vector instruction's chunk (R102). -/
inductive VAcc where
  | rdA | rdB | rdD | wr
  deriving DecidableEq, Repr

/-- A vector instruction: accesses per chunk in order, element sizes of its sources and destination. -/
structure VPlan where
  accs : List VAcc
  ssize : Nat
  dsize : Nat
  /-- Element function: a, b, d, sC. -/
  el : Nat → Nat → Nat → Word → Nat × Nat

/-- Elements per chunk: 128 bytes of the wider operand, by which overlapping operands are cut too (R102; log entry 17). -/
def VPlan.per (p : VPlan) : Nat := 128 / Nat.max p.ssize p.dsize

def VPlan.chunks (p : VPlan) (count : Nat) : Nat := ceilDiv count p.per

/-- Part `k` of a vector instruction (R85, R102): source bytes go to the latch, a write uses them up. -/
def VPlan.part (p : VPlan) (j t : Nat) (f : Fields) (k : Nat) (s : State) : State :=
  let x := getThread s j t
  let m := p.accs.length
  let ch := k / m
  let n := Nat.min p.per (f.count - ch * p.per)
  let at_ (r size : Nat) : Nat := (x.reg r).toNat + ch * p.per * size
  let load (r : Nat) : State :=
    updThread s j t fun x => { x with latch := x.latch ++ readPhys s (at_ r p.ssize) (n * p.ssize), parts := k + 1 }
  match p.accs.getD (k % m) .wr with
  | .rdA => load f.a
  | .rdB => load f.b
  | .rdD => load f.d
  | .wr =>
    let src (i : Nat) : List Nat := elemsOf p.ssize (slice x.latch (i * n * p.ssize) (n * p.ssize))
    let rs := (List.range n).map fun e =>
      p.el ((src 0).getD e 0) ((src 1).getD e 0) ((src 2).getD e 0) (x.reg f.creg)
    let s := writePhys s (at_ f.d p.dsize) (rs.map fun r => toLe p.dsize r.1).flatten
    updThread s j t fun x =>
      { (x.raiseFlags (rs.foldl (fun a r => a ||| r.2) 0)) with latch := [], parts := k + 1 }

/-- Parts from the present one, `n` of them or to the last. -/
def VPlan.run (p : VPlan) (j t : Nat) (f : Fields) (total : Nat) : Nat → State → State
  | 0, s => s
  | n + 1, s =>
    let k := (getThread s j t).parts
    if total ≤ k then s else p.run j t f total n (p.part j t f k s)

/-- Whether the operands of a vector instruction are aligned, and inside the jet's own memory (R83, R101). -/
def VPlan.aligned (p : VPlan) (x : Thread) (f : Fields) : Bool :=
  (!(p.accs.contains .rdA) || (x.reg f.a).toNat % p.ssize == 0) &&
  (!(p.accs.contains .rdB) || (x.reg f.b).toNat % p.ssize == 0) &&
  (!(p.accs.contains .wr) || (x.reg f.d).toNat % p.dsize == 0)

def VPlan.inside (p : VPlan) (j : Nat) (x : Thread) (f : Fields) : Bool :=
  (!(p.accs.contains .rdA) || ownRange j (x.reg f.a).toNat (f.count * p.ssize)) &&
  (!(p.accs.contains .rdB) || ownRange j (x.reg f.b).toNat (f.count * p.ssize)) &&
  (!(p.accs.contains .wr) || ownRange j (x.reg f.d).toNat (f.count * p.dsize))

/-- The issue of a vector instruction: the checks of R83, then its parts; `fin` when the last part is done. -/
def vissue (row : Nat → Nat → Bool) (plan : Fields → VPlan) (fin : Fields → Thread → Thread) (i : Issue) (s : State) :
    State :=
  issue row 0 i s fun s c f =>
    let j := i.jet
    let t := i.thread
    let p := plan f
    let x := getThread s j t
    if !p.aligned x f then threadFault s c j t fAlign
    else if !p.inside j x f then threadFault s c j t fAccess
    else memFaults (jlmFaults i.faults) s fun s =>
      let total := p.chunks f.count * p.accs.length
      let s := p.run j t f total (issueSlots s i) s
      if total ≤ (getThread s j t).parts then retire s j t (fin f) else s

/-- Vector arithmetic of OP 0x10 (R104). -/
def varith (fn : Nat) (accs : List VAcc) (g : VArgs → Nat × Nat) (i : Issue) (s : State) : State :=
  vissue (row1 0x10 fn)
    (fun f => { accs, ssize := velem f.vty, dsize := velem f.vty
                el := fun a b d c => g { ty := f.vty, a, b, d, c } })
    (fun _ x => x) i s

/-- VADD (R104). -/
def execVadd (i : Issue) (s : State) : Res := .next (varith 0 [.rdA, .rdB, .wr] vadd i s)
/-- VSUB (R104). -/
def execVsub (i : Issue) (s : State) : Res := .next (varith 1 [.rdA, .rdB, .wr] vsub i s)
/-- VMUL (R104). -/
def execVmul (i : Issue) (s : State) : Res := .next (varith 2 [.rdA, .rdB, .wr] vmul i s)
/-- VFMA (R104): 4c issues. -/
def execVfma (i : Issue) (s : State) : Res := .next (varith 3 [.rdA, .rdB, .rdD, .wr] vfma i s)
/-- VAXPY (R104). -/
def execVaxpy (i : Issue) (s : State) : Res := .next (varith 4 [.rdA, .rdB, .wr] vaxpy i s)
/-- VMAX (R104, R94). -/
def execVmax (i : Issue) (s : State) : Res := .next (varith 5 [.rdA, .rdB, .wr] (vminmax true) i s)
/-- VMIN (R104, R94). -/
def execVmin (i : Issue) (s : State) : Res := .next (varith 6 [.rdA, .rdB, .wr] (vminmax false) i s)
/-- VCOPY (R104). -/
def execVcopy (i : Issue) (s : State) : Res := .next (varith 7 [.rdA, .wr] vcopy i s)
/-- VFILL (R104). -/
def execVfill (i : Issue) (s : State) : Res := .next (varith 8 [.wr] vfill i s)

/-- VCVT (R107). -/
def execVcvt (i : Issue) (s : State) : Res :=
  .next (vissue (fun o _ => o == 0x12)
    (fun f => { accs := [.rdA, .wr], ssize := velem f.vty, dsize := velem f.fn
                el := fun a _ _ _ => vcvt f.vty f.fn a })
    (fun _ x => x) i s)

/-- A node of VSUM on a floating-point type: binary32, with the flags gathered so far (R106). -/
def sumNode (x y : Nat × Nat) : Nat × Nat :=
  let (r, fl) := fadd x.1 y.1
  (r, fl ||| x.2 ||| y.2)

/-- A leaf of VSUM: the element as binary32, exactly. -/
def toF32 (ty a : Nat) : Nat := f32.ieeeRound ((vfmt ty).decode a)

/-- VSUM of the elements (R106): result and flags. -/
def vsum (ty : Nat) (es : List Nat) : Nat × Nat :=
  if visFp ty then
    let sn := if es.any (isSNaN (vfmt ty)) then fNV else 0
    let (r, fl) := pairwise sumNode (0, 0) (es.map fun e => (toF32 ty e, 0))
    (r, fl ||| sn)
  else (ofSigned 64 (es.map (toSigned (vwidth ty))).sum, 0)

/-- VAMAX of the elements (R105). -/
def vamax (ty : Nat) (es : List Nat) : Nat × Nat :=
  if visFp ty then
    let f := vfmt ty
    if es.any fun e => isNaN (f.decode e) then (f32.nanBits, 0)
    else ((es.map fun e => toF32 ty e % 2 ^ 31).foldl Nat.max 0, 0)
  else ((es.map fun e => (toSigned (vwidth ty) e).natAbs).foldl Nat.max 0, 0)

/-- VCHK: NaN and infinite elements (R105). -/
def vchk (ty : Nat) (es : List Nat) : Nat × Nat := ((es.filter fun e => !((vfmt ty).decode e).isFin).length, 0)

/-- VZTEST: every element equals zero, −0 counted (R105). -/
def vztest (ty : Nat) (es : List Nat) : Nat × Nat :=
  (b2n (es.all fun e => if visFp ty then ((vfmt ty).decode e).isZero else e == 0), 0)

/-- Vector reduce and check of OP 0x11 (R105): the result in register C after the last chunk. -/
def vreduce (fn : Nat) (g : Nat → List Nat → Nat × Nat) (i : Issue) (s : State) : State :=
  vissue (row1 0x11 fn)
    (fun f => { accs := [.rdA], ssize := velem f.vty, dsize := velem f.vty, el := fun _ _ _ _ => (0, 0) })
    (fun f x =>
      let r := g f.vty (elemsOf (velem f.vty) x.latch)
      (x.setReg f.creg (BitVec.ofNat 64 r.1)).raiseFlags r.2) i s

/-- VSUM (R106). -/
def execVsum (i : Issue) (s : State) : Res := .next (vreduce 0 vsum i s)
/-- VAMAX (R105). -/
def execVamax (i : Issue) (s : State) : Res := .next (vreduce 1 vamax i s)
/-- VCHK (R105). -/
def execVchk (i : Issue) (s : State) : Res := .next (vreduce 2 vchk i s)
/-- VZTEST (R105). -/
def execVztest (i : Issue) (s : State) : Res := .next (vreduce 3 vztest i s)

end Sys2Proof.Machine
end

