-- ==== Sys2Proof/Machine/LedgerRows.lean ====
section
/-!
DEFINITION. The ledger's die and readout (R576 to R582).
-/

namespace Sys2Proof.Machine

/-! The die (R576 to R578). -/

/-- Two readings of one slot, joined by the monotone rule of R576. -/
def joinSlot (a b : LSlot) : LSlot :=
  { count := Nat.max a.count b.count
    suppressed := Nat.max a.suppressed b.suppressed
    min := Nat.min a.min b.min
    max := Nat.max a.max b.max
    first := if a.used then a.first else b.first
    last := Nat.max a.last b.last
    hist := (List.range 16).map fun i => Nat.max (a.hist.getD i 0) (b.hist.getD i 0)
    detail := if a.last < b.last then b.detail else a.detail
    used := a.used || b.used
    saturated := a.saturated || b.saturated
    damaged := a.damaged || b.damaged }

/-- Whether the die accepts a slot over what it holds (R576). -/
def monotone (o n : LSlot) : Bool :=
  decide (o.count ≤ n.count) && decide (o.suppressed ≤ n.suppressed) && decide (n.min ≤ o.min) && decide (o.max ≤ n.max)
  && decide (o.last ≤ n.last) && allBelow 16 (fun i => decide (o.hist.getD i 0 ≤ n.hist.getD i 0))
  && (!o.used || (n.used && o.first == n.first)) && (!o.saturated || n.saturated) && (!o.damaged || n.damaged)
  && (o.detail == n.detail || decide (o.last < n.last) || !o.used)

/-- The codes that two maps of slots list. -/
def slotKeys (a b : SMap LSlot) : List Nat := a.map (·.1) ++ (b.map (·.1)).filter fun k => !(a.map (·.1)).contains k

/-- The shadow over an image: refused slots keep what the die holds. -/
def overlaySlots (old new : SMap LSlot) : SMap LSlot :=
  (slotKeys old new).foldl (fun m k =>
    let o := SMap.get {} old k
    let n := SMap.get {} new k
    SMap.put {} m k (if monotone o n then n else o)) []

/-- Every slot of the shadow is a monotone write over the image. -/
def allMonotone (old new : SMap LSlot) : Bool := (slotKeys old new).all fun k => monotone (SMap.get {} old k) (SMap.get {} new k)

def ldgErr (s : State) (i : Nat) : State := setBit s (oLdg + 4) i

/-- A flush that completes (R577): slots and counts, the image's CRC, its sequence number. -/
def flushDone (s : State) : State :=
  let l := s.ledger
  let k := olderImage l
  let old := if k = 0 then l.image0 else l.image1
  let ok := allMonotone old.slots l.slots
  let img : LImage :=
    { valid := true, seq := Nat.max l.image0.seq l.image1.seq + 1, slots := overlaySlots old.slots l.slots
      opsec := Nat.max old.opsec l.opsec, cycles := Nat.max old.cycles l.cycles }
  let l := setImage l k fun _ => img
  let s := { s with ledger := { l with flushes := l.flushes + 1, image := k, dieFault := false, flushing := false } }
  if ok then s else ldgErr s 2

/-- LEDGER_FLUSH (R577, R579, R584): once a second from the advance of the power-cycle count, and at a module reset. -/
def execLedgerFlush (res : FlushResult) (s : State) : Res :=
  .next <|
    let l := s.ledger
    if !(l.begun || l.flushing) || !s.boot.inputOk then s
    else match res with
    | .written => flushDone s
    | .powerLost => lockout { s with ledger := { l with flushing := true } } false
    | .unreachable => ldgErr { s with ledger := { l with dieFault := true } } 0

/-- A slot as the die gives it: from the images that are valid where one is, and from the copies that pass their CRC (R577, R578). -/
def loadSlot (a b : LSlot) (okA okB : Bool) : LSlot :=
  match okA, okB with
  | true, true => joinSlot a b
  | true, false => a
  | false, true => b
  | false, false => { joinSlot a b with damaged := true }

/-- LEDGER_LOAD (R577, R578): at power-on. Images whose CRC fails, and the slots of each whose CRC fails. -/
def execLedgerLoad (bad0 bad1 : Bool) (slots0 slots1 : List Nat) (s : State) : Res :=
  .next <|
    let l := s.ledger
    if l.ready then s
    else
      let v0 := l.image0.valid && !bad0
      let v1 := l.image1.valid && !bad1
      let swap := v1 && (!v0 || decide (l.image0.seq < l.image1.seq))
      let a := if swap then l.image1 else l.image0
      let b := if swap then l.image0 else l.image1
      let badA := if swap then slots1 else slots0
      let badB := if swap then slots0 else slots1
      let keys := slotKeys a.slots b.slots ++ (badA.filter badB.contains).filter fun k => !(slotKeys a.slots b.slots).contains k
      let one (k : Nat) : LSlot := loadSlot (SMap.get {} a.slots k) (SMap.get {} b.slots k) (!badA.contains k) (!badB.contains k)
      let m := keys.foldl (fun m k => SMap.put {} m k (joinSlot (SMap.get {} l.slots k) (one k))) l.slots
      let s := { s with ledger := { l with
        slots := m, ready := true
        opsec := Nat.max l.opsec (Nat.max a.opsec (if v0 = v1 then b.opsec else 0))
        cycles := Nat.max l.cycles (Nat.max a.cycles (if v0 = v1 then b.cycles else 0))
        image0 := { l.image0 with valid := v0 }, image1 := { l.image1 with valid := v1 } } }
      let s := if badA.any badB.contains then ldgErr s 1 else s
      if v0 || v1 then s else ldgErr s 3

/-! Readout (R580 to R582). -/

/-- A ledger response: nothing answers while the internal reset is asserted. -/
def ldgReply (s : State) (d : List Byte) : State := if s.boot.inReset then s else emit s (.mctp d)

/-- READ_HEADER (R582). -/
def execReadHeader (s : State) : Res :=
  .next <| ldgReply s ([0] ++ toLe 4 s.ledger.opsec ++ toLe 4 (s.ledger.cycles % 2 ^ 24) ++ toLe 8 s.ledger.flushes
    ++ toLe 4 (ldgStatus s 0) ++ toLe 4 (ldgStatus s 4))

/-- READ_SLOTS (R582). -/
def execReadSlots (first count : Nat) (s : State) : Res :=
  .next <|
    if count = 0 || 8 < count || 4096 < first + count then ldgReply s [2]
    else ldgReply s ([0] ++ ((List.range count).map fun i => (SMap.get {} s.ledger.slots (first + i)).bytes).flatten)

/-- LEDGER_UNSUPPORTED (R582): a request whose first byte is not in the table. -/
def execLedgerUnsupported (req : Nat) (s : State) : Res :=
  .next (if req % 256 = 1 || req % 256 = 2 then s else ldgReply s [1])

/-- LDG_READ_INDEX (R581): a write by a requester with the platform view. -/
def execLdgReadIndex (port value : Nat) (s : State) : Res :=
  .next (if !s.boot.inReset && platformView s port then ctlWrite s (oLdg + 0x10) value else s)

end Sys2Proof.Machine
end

