-- ==== Sys2Proof/Machine/MemEvents.lean ====
section
/-!
DEFINITION. Scrubs, HBM corrections and retirement, and what the device reads from its stacks (R343, R345, R350 to R358).
-/

namespace Sys2Proof.Machine

/-- JLM_SCRUB (R343): the patrol scrub reads one word of a jet's memory. -/
def execJlmScrub (addr : Nat) (wrong : List Nat) (s : State) : Res :=
  .next <|
    if jlmBase 0 ≤ addr && addr < jlmBase 4096 && addr % 0x100000 < 0x80000 && s.boot.locked then
      (jlmFault s ((addr - jlmBase 0) / 0x100000) wrong).2
    else s

/-- CISTERN_SCRUB (R345): the patrol scrub reads one word of a slice. -/
def execCisternScrub (addr : Nat) (wrong : List Nat) (s : State) : Res :=
  .next <|
    if sliceBase 0 ≤ addr && addr < sliceBase 64 && s.boot.locked then
      (sliceFault s ((addr - sliceBase 0) / 0x2000000) wrong).2
    else s

/-- Wrong symbols of a line: 64 of data, then 8 of check bits (R351). -/
def lineWrong (data check : List Nat) : List Nat := data.filter (· < 64) ++ (check.filter (· < 8)).map (64 + ·)

/-- HBM_SCRUB (R351, R353 to R356): the patrol scrub reads one line, with wrong symbols of its data and of its check bits. The last line
of a stack ends its scrub interval. -/
def execHbmScrub (addr : Nat) (data check : List Nat) (s : State) : Res :=
  .next <|
    if addr < 0x6000000000 && s.boot.locked then
      let n := bits addr 13 11
      let (ok, s) := hbmFault s addr (lineWrong data check)
      if ok && addr / 64 = (0x6000000000 - 0x4000 + 0x800 * n + 0x7C0) / 64 then
        updStack (bump s (oHbm + 0x58) 1) n fun x => { x with corr := [] }
      else s
    else s

/-- Address of line `o` of a pseudo-channel of a stack, as R349 selects it. -/
def hbmLine (stack pc o : Nat) : Nat := o * 0x4000 + stack * 0x800 + pc * 0x40

/-- The copy of the next line of a retiring pseudo-channel is read through the decoder: its data are at the spare location, or cannot be
copied (R354, R355, R373). -/
def copyLine (s : State) (stack : Nat) (wrong : List Nat) (done : State → State) : State :=
  let x := getStack s stack
  let pc := (x.retiredPc).getD 0
  match hbmFault s (hbmLine stack pc x.copied) wrong with
  | (true, s) => done s
  | (false, s) => s

/-- PC_LINE_COPY (R355): one line of a retiring pseudo-channel is at its spare location. Addresses and contents as programs see
them do not change (R358). -/
def execPcLineCopy (stack : Nat) (s : State) (wrong : List Nat := []) : Res :=
  .next <|
    let x := getStack s stack
    if stack < 8 && unitsRun s && x.migrating && x.copied + 1 < pcLines then
      copyLine s stack wrong fun s =>
        let s := updStack s stack fun x => { x with copied := x.copied + 1 }
        { s with mem := { s.mem with migrateStack := stack, migrateLines := x.copied + 1 } }
    else s

/-- PC_RETIREMENT_COMPLETE (R355): the last line is copied. -/
def execPcRetirementComplete (stack : Nat) (s : State) (wrong : List Nat := []) : Res :=
  .next <|
    let x := getStack s stack
    if stack < 8 && unitsRun s && x.migrating && x.copied + 1 == pcLines then
      copyLine s stack wrong fun s =>
        let s := updStack s stack fun x => { x with copied := pcLines, migrating := false }
        setBit { s with mem := { s.mem with migrateStack := stack, migrateLines := pcLines } } (oHbm + 0x30) 3
    else s

/-- HBM_PARITY_RETRY (R352, R356): a burst of pseudo-channel `pc` is repeated; `again` says that the repetition fails too. -/
def execHbmParityRetry (stack pc : Nat) (write again : Bool) (s : State) : Res :=
  .next <|
    if stack < 8 && pc < 32 && s.boot.locked then
      let k := 2 * pc + b2n write
      let n := SMap.get 0 (getStack s stack).burstFails k + 1
      let s := raise (bump (setBit s (oHbm + 0x30) 1) (oHbm + 0x50) 1) 0x006 4 stack .all
      let s := updStack s stack fun x => { x with burstFails := SMap.put 0 x.burstFails k (if again && n < 3 then n else 0) }
      if !again || n < 3 then s
      else if write then retirePc s stack pc
      else hbmLost s stack pc
    else s

/-- One on-die ECC or ECS report (R350). -/
def odeccReport (s : State) (stack : Nat) : State :=
  raise (bump (setBit s (oHbm + 0x30) 0) (oHbm + 0x48) 1) 0x005 4 stack .all

/-- ECS_READ (R350): the reports that each stack has counted since the last reading. -/
def execEcsRead (counts : List Nat) (s : State) : Res :=
  .next <|
    (List.range 8).foldl (fun s n =>
      let k := counts.getD n 0
      let s := updStack s n fun x => { x with ecs := k }
      (List.range k).foldl (fun s _ => odeccReport s n) s) s

/-- HBM_TEMP_READ (R350): the temperature in °C and whether the stack reports a raised refresh rate. -/
def execHbmTempRead (stack temp : Nat) (high : Bool) (s : State) : Res :=
  .next <| if stack < 8 then updStack s stack fun x => { x with temp := temp % 256, tcrHigh := high } else s

/-- RFM_REQUEST (R350): refresh management is issued. -/
def execRfmRequest (stack : Nat) (s : State) : Res :=
  .next <| if stack < 8 then updStack s stack fun x => { x with rfm := x.rfm + 1 } else s

end Sys2Proof.Machine
end

