-- ==== Sys2Proof/Machine/Packets.lean ====
section
/-!
DEFINITION. The router and what packets do at their destination (R417 to R422, R435 to R441).
-/

namespace Sys2Proof.Machine

/-! Routing (R420, R421). -/

/-- Order of R422: source, destination and class of a packet. -/
def flowOf (k : Pkt) : Nat × Nat × Nat :=
  let h := hdrOf k.hdr
  (h.srcDev, h.dstDev, kindClass h.kind)

/-- The routing entry for a destination: the member table for the own block, else the block table. -/
def routeEntry (s : State) (dst : Nat) : Nat :=
  let id := s.links.idPart
  if dst / 64 = s.links.devId / 64 then leAt s.links.planSec (leAt id 32 4 + 8 * (dst % 64)) 8
  else leAt s.links.planSec (leAt id 36 4 + 8 * (dst / 64 % 512)) 8

/-- The physical port that carries plan port `q` (R426). -/
def carrier (s : State) (q : Nat) : Option Nat :=
  (portsIn s .active).find? fun p => (getLink s p).planPort == q && !(getLink s p).excluded

/-- Plan ports of an entry's list, `n` of 5 bits from bit `lo`. -/
def entryPorts (e lo n : Nat) : List Nat := (List.range n).map fun i => bits e (lo + 5 * i + 4) (lo + 5 * i)

/-- The list L of R421. -/
def routeList (s : State) (e : Nat) : List Nat :=
  let a := (entryPorts e 0 (bits e 21 20 + 1)).filterMap (carrier s)
  if a.isEmpty && bitB e 44 then (entryPorts e 22 (bits e 43 42 + 1)).filterMap (carrier s) else a

/-- Buddy copies and restores leave by the ports that COPY_PORTS names (R405, R425, R461). -/
def copyWrite (s : State) (h : Hdr) : Bool :=
  h.srcDev == s.links.devId && h.kind == 5 && h.job == 0 && (h.dstDev == buddyDev s || h.dstDev == protectedDev s)

def copyList (s : State) : List Nat :=
  ((List.range 32).filter (copyPort s)).filterMap (carrier s)

/-- A packet with no way on is discarded; where the entry's ports are all lost and a job runs that it is of, the fabric is partitioned
(R421). -/
def noRoute (s : State) (h : Hdr) (valid : Bool) : State :=
  let s := setBit (dropPacket s) (oNl + 0x810) 0
  if valid && (created s).any fun c => (getCtx s c).jobStarted && (getCtx s c).job == h.job then fabricEvent s 0 [h.dstDev] else s

/-- The way of a packet: its output ports, and whether the entry sets LEVEL (R421). A buddy copy has the copy ports. -/
def wayOf (s : State) (k : Pkt) : List Nat × Bool :=
  let h := hdrOf k.hdr
  let e := routeEntry s h.dstDev
  if copyWrite s h then (copyList s, false) else (if bitB e 46 then routeList s e else [], bitB e 45)

/-- The port that a packet takes: L[SRC_DEV mod |L|]; the pieces of a buddy copy take the copy ports in turn (R405, R407, R421; log entry
135). -/
def outPort (s : State) (k : Pkt) : Option Nat :=
  let h := hdrOf k.hdr
  let l := (wayOf s k).1
  let pick := if copyWrite s h && s.recov.st == .normal then h.addr / 0x100000 else h.srcDev
  l[pick % l.length]?

/-- The header as it leaves: LEVEL after DLINE, and one hop fewer for a packet that came in by a port (R421). -/
def sentHdr (s : State) (inPort : Option Nat) (k : Pkt) : List Byte :=
  let h := hdrOf k.hdr
  let hops := if inPort.isSome then h.hops - 1 else h.hops
  patch (patch k.hdr 9 (toLe 1 hops)) 10 (toLe 1 (if (wayOf s k).2 then 1 else h.level))

/-- A packet leaves through a port: its flits join those that wait on the VC, and the ones still to arrive will follow them. -/
def leave (s : State) (inPort : Option Nat) (k : Pkt) (p : Nat) : State :=
  let hdr := sentHdr s inPort k
  let v := vcOf (hdrOf hdr)
  let fs : List TFlit := (hdr :: flitsOf k.payload).map fun d => { data := d, src := inPort.map fun i => (i, k.vc) }
  let s := queueFlits s p v fs
  let s := match inPort with
    | some i =>
      if k.left = 0 then s
      else { s with links := { s.links with
        streams := s.links.streams ++ [{ inPort := i, inVc := k.vc, outPort := some p, outVc := v, left := k.left }] } }
    | none => s
  pump s p false

/-- PACKET_ROUTE (R415, R420 to R422): packet `k` of the router leaves it, once no earlier packet of its flow waits and no other packet holds
its output VC; it need not have arrived whole. One for this device leaves the input port's buffer here. -/
def execPacketRoute (k : Nat) (s : State) : Res :=
  .next <|
    match s.links.queue[k]? with
    | none => s
    | some (src, x) =>
      if (s.links.queue.take k).any fun y => flowOf y.2 == flowOf x then s
      else
        let h := hdrOf x.hdr
        let t := { s with links := { s.links with queue := s.links.queue.eraseIdx k } }
        if src.isSome && h.hops == 0 then setBit (dropPacket (discardPkt t src x)) (oNl + 0x810) 1
        else if s.links.hasId && h.dstDev == s.links.devId then
          let t := match src with
            | none => t
            | some p => pump (creditsBack t p x.vc (1 + x.payload.length / 64)) p false
          { t with links := { t.links with inbox := t.links.inbox ++ [(src, x)] } }
        else match outPort t x with
          | none => noRoute (discardPkt t src x) h (copyWrite t h || bitB (routeEntry t h.dstDev) 46)
          | some p => if vcHeld s p (vcOf (hdrOf (sentHdr t src x))) then s else leave t src x p

/-! At the destination (R418). -/

/-- The context that accepts a packet of a job: its lease carries the tag and grants fabric access. -/
def ctxOfJob (s : State) (job : Nat) : Option Nat :=
  (created s).find? fun c => job != 0 && (getCtx s c).job == job && (getCtx s c).fabric

/-- A packet that is not accepted: counted, JOB_REJECT, and reported to the context that its JOB names, by an event whose kind and detail
R565 does not give (R418; log entry 30). -/
def rejectPacket (s : State) (job : Nat) : State :=
  let s := setBit (dropPacket s) (oNl + 0x810) 2
  match (created s).find? fun c => job != 0 && (getCtx s c).job == job with
  | none => s
  | some c => postEvent (fresh s) c Config.rejectKind.toNat 0xFFFFFFFF ((List.range 56).map (Config.freeByte s.free))

/-- Entry `k` of the packets that have arrived, where it is whole, of a kind and the first of its flow. -/
def inboxAt (s : State) (k kind : Nat) : Option (Option Nat × Pkt) :=
  match s.links.inbox[k]? with
  | none => none
  | some e =>
    let first := !(s.links.inbox.take k).any fun y => flowOf y.2 == flowOf e.2
    if first && e.2.left == 0 && (hdrOf e.2.hdr).kind == kind then some e else none

def dropInbox (s : State) (k : Nat) : State := { s with links := { s.links with inbox := s.links.inbox.eraseIdx k } }

/-- Runs `f` on a packet of a kind with its header, for the context that accepts its job; otherwise it is rejected. -/
def withJob (s : State) (k kind : Nat) (f : State → Nat → Hdr → Pkt → State) : State :=
  match inboxAt s k kind with
  | none => s
  | some (_, x) =>
    match ctxOfJob s (hdrOf x.hdr).job with
    | none => rejectPacket (dropInbox s k) (hdrOf x.hdr).job
    | some c => f s c (hdrOf x.hdr) x

/-- A jet of a context's lease that the context is not on now: a packet for it waits (R68). -/
def awaits (s : State) (c j : Nat) : Bool :=
  decide (j < 4096) && bitB (getCtx s c).lease.terraces (j / 512) && !holdsJet s c j

/-- A recovery notice (R418, R456): from a neighbour's management endpoint to this one. -/
def isNotice (h : Hdr) : Bool := h.kind == 1 && h.job == 0 && h.srcEp == 0x6000 && h.dstEp == 0x6000

/-- MESSAGE (R47, R417 to R419): packet `k` enters the lowest free slot of its channel, and an MSG_CREDIT of SEQTAG 1 tells its source
so (R57, R62; log entry 31). -/
def execMessagePkt (k : Nat) (s : State) : Res :=
  .next <|
    if ((s.links.inbox[k]?).any fun e => isNotice (hdrOf e.2.hdr)) then s
    else withJob s k 1 fun s c h x =>
      let j := h.dstEp
      let ch := getChan s j h.channel
      if awaits s c j then s
      else if !holdsJet s c j then rejectPacket (dropInbox s k) h.job
      else if ch.st == .closed || !ch.conns.contains (h.srcEp, remoteIdx h.srcDev) || decide (64 * ch.largest < x.payload.length) then
        discardMsg (dropInbox s k)
      else match leastBelow ch.slots fun n => SMap.get none ch.msgs n == none with
        | none => s
        | some n =>
          let s := storeMsg (dropInbox s k)
            { src := h.srcEp, srcIdx := remoteIdx h.srcDev, dst := j, ch := h.channel, tag := h.tag, thread := 0, data := x.payload } n
          inject s (remotePkt s 4 j h.srcDev h.srcEp h.channel 0 1 0)

/-- A CONN_GRANT packet in answer to a request: TAG 0 refuses (log entry 31). -/
def grantPkt (s : State) (h : Hdr) (credits : Nat) : Pkt :=
  { hdr := ({ dstDev := h.srcDev, srcDev := s.links.devId, dstEp := h.srcEp, srcEp := h.dstEp, kind := 3, job := h.job
              tag := credits, channel := h.channel } : Hdr).bytes, payload := [] }

/-- CONN_REQ (R49, R417 to R419): a request of another device at a channel of a jet; any other endpoint refuses. -/
def execConnReq (k : Nat) (s : State) : Res :=
  .next <|
    match inboxAt s k 2 with
    | none => s
    | some (_, x) =>
      let h := hdrOf x.hdr
      match ctxOfJob s h.job with
      | none => inject (rejectPacket (dropInbox s k) h.job) (grantPkt s h 0)
      | some c =>
        if awaits s c h.dstEp then s
        else if holdsJet s c h.dstEp then
          jetReq (dropInbox s k) { src := h.srcEp, srcIdx := remoteIdx h.srcDev, dst := h.dstEp, ch := h.channel }
        else inject (dropInbox s k) (grantPkt s h 0)

/-- The send-table entry of a jet for a remote channel that satisfies `p`. -/
def remoteConn (s : State) (j : Nat) (h : Hdr) (p : Conn → Bool) : Option Nat :=
  leastBelow 64 fun n =>
    let x := getConn s j n
    x.used && p x && x.remote == some (h.srcDev, h.srcEp, h.channel)

/-- CONN_GRANT (R49, R53, R417): the waiting CONN ends, with the credits in TAG and the largest message in SEQTAG, or refused. -/
def execConnGrant (k : Nat) (s : State) : Res :=
  .next <| withJob s k 3 fun s c h _ =>
    if awaits s c h.dstEp then s
    else if !holdsJet s c h.dstEp then rejectPacket (dropInbox s k) h.job
    else match remoteConn s h.dstEp h (·.pending) with
      | none => dropInbox s k
      | some n => jetGrant (dropInbox s k) { ep := h.dstEp, idx := n, granted := h.tag != 0, credits := h.tag, largest := h.seqtag }

/-- MSG_CREDIT (R52, R57, R417, R419): TAG credits return to the connection, and SEQTAG of its messages are in their buffer. With COLL_ID
1 it comes from a source, which disconnects (log entry 31). -/
def execMsgCredit (k : Nat) (s : State) : Res :=
  .next <| withJob s k 4 fun s c h _ =>
    if awaits s c h.dstEp then s
    else if !holdsJet s c h.dstEp then rejectPacket (dropInbox s k) h.job
    else if h.coll = 1 then leaveChan (dropInbox s k) h.dstEp h.channel h.srcEp (remoteIdx h.srcDev)
    else match remoteConn s h.dstEp h (!·.pending) with
      | none => dropInbox s k
      | some n =>
        let s := updConn (dropInbox s k) h.dstEp n fun x => { x with out := x.out.drop h.seqtag }
        let s := (List.range h.tag).foldl (fun s _ => creditIn s h.dstEp n 1) s
        finishDisc s h.dstEp n

/-! WRITE (R418). -/

/-- The whole of a range lies in another. -/
def within (a n lo len : Nat) : Bool := decide (lo ≤ a) && decide (a + n ≤ lo + len)

/-- A WRITE of the protected device into the buddy reserve. -/
def buddyWrite (s : State) (h : Hdr) (n : Nat) : Bool :=
  slotBytes s != 0 && h.srcDev == protectedDev s && protectedDev s != s.links.devId
  && within h.addr n (reserveBase s) (2 * slotBytes s)

/-- The arrays that the restored tables of a context name (R461): the tables and, by the entries of the update table, the arrays of its
blocks; first address and bytes. -/
def restoreArrays (s : State) (c : Nat) : List (Nat × Nat) :=
  let x := getCtx s c
  let arrays (d : List Byte) : List (Nat × Nat) :=
    if bkRows d = 0 then []
    else [(bkMaster d, 6 * bkElems d)] ++ (if slotUsed d 0 then [(bkState d, slotOff d 6)] else [])
      ++ (if bkPrecond d then [(bkRootWork d, workBytes (bkRows d) + workBytes (bkCols d))] else [])
      ++ (if bkCopyFmt d != 0 then [(bkCopy d, copySize (bkCopyFmt d) * bkElems d)] else [])
  [(x.scaleBase, 2176 * x.scaleLen)] ++ (if x.silentSet then [(x.silentBase, 65536)] else [])
  ++ (if x.updSet then (x.updBase, 2097152) :: (List.range 16384).flatMap fun i => arrays (rdCtx s c (tableAt s c i) 128).1 else [])

/-- Bytes of a WRITE of `n` bytes at `a` that lie in one of those arrays; none where it lies in no such array. What fills the last flit
beyond the array's end is not written. -/
def restoreRoom (s : State) (c a n : Nat) : Option Nat :=
  (restoreArrays s c).findSome? fun e =>
    if e.1 ≤ a && a < e.1 + e.2 && a + n ≤ e.1 + ceilDiv e.2 64 * 64 then some (Nat.min n (e.1 + e.2 - a)) else none

/-- A WRITE of the buddy's management endpoint while this device is in RESTORE; TAG names the context (log entry 25). -/
def restoreWrite (s : State) (h : Hdr) (n : Nat) : Option Nat :=
  if s.recov.st == .restore && h.job == 0 && h.srcEp == 0x6000 && h.srcDev == buddyDev s && slotBytes s != 0
      && s.recov.covered.contains h.tag then restoreRoom s h.tag h.addr n
  else none

/-- Data for the collective engine (log entry 28). -/
def collData (h : Hdr) : Bool := h.dstEp / 4096 == 4

/-- WRITE (R418, R435, R449, R461): packet `k` is written, or is a node for the collective engine; a combine node that the engine has to
compute again is S1, twice S3. -/
def execWritePkt (k recomputes : Nat) (s : State) : Res :=
  .next <|
    match inboxAt s k 5 with
    | none => s
    | some (_, x) =>
      let h := hdrOf x.hdr
      let n := x.payload.length
      let s := dropInbox s k
      if buddyWrite s h n then writePhys s h.addr x.payload
      else match restoreWrite s h n, ctxOfJob s h.job with
        | some m, _ => wrCtx s h.tag h.addr (x.payload.take m)
        | none, none => rejectPacket s h.job
        | none, some c =>
          if !plainRange s c h.addr n false false true then rejectPacket (cisRefused s) h.job
          else if collData h then
            if 2 ≤ recomputes then raise (raise s 0x025 8 0 .all) 0x069 8 0 .all
            else
              match nodeIn s c h.coll h.srcDev h.channel h.tag h.addr x.payload with
              | (s, true) => if recomputes = 1 then raise s 0x025 8 0 .all else s
              | (s, false) => rejectPacket s h.job
          else wrCtx s c h.addr x.payload

/-- WEIR_STREAM (R417): each payload flit is one weir request to consecutive lines from ADDR. -/
def execWeirStream (k : Nat) (s : State) : Res :=
  .next <| withJob s k 6 fun s c h x =>
    let s := dropInbox s k
    if h.addr % 64 ≠ 0 || !wopOk h.wop then rejectPacket s h.job
    else weirLines s c h.dstEp h.addr (bits h.wop 1 0) (bits h.wop 4 2) (bits h.wop 6 5) h.seqtag x.payload

/-- COLL_READY (R437). -/
def execCollReady (k : Nat) (s : State) : Res :=
  .next <| withJob s k 7 fun s c h _ => readyIn (dropInbox s k) c h.coll h.srcDev h.addr

/-! Fabric barriers (R439 to R441). -/

/-- The pairs of a BARRIER packet. -/
def barPairs (d : List Byte) : List (Nat × Int) :=
  (List.range (leAt d 21 2)).map fun i => (leAt d (64 + 4 * i) 2, toSigned 16 (leAt d (66 + 4 * i) 2))

/-- A packet whose generation is not this device's (R440): a fabric event that names its source. -/
def barrierGenBad (s : State) (dev : Nat) : State := fabricEvent (setBit s (oNl + 0x810) 5) 0 [dev]

/-- BARRIER (R439, R440): an ARRIVE of a child is combined, a RELEASE of the parent is passed on; any other is discarded. -/
def execBarrierPkt (k : Nat) (s : State) : Res :=
  .next <|
    match inboxAt s k 8 with
    | none => s
    | some (_, x) =>
      let h := hdrOf x.hdr
      let d := x.payload
      let b := leAt d 0 1
      let s := dropInbox s k
      let mn := leAt d 4 8
      let mx := leAt d 12 8
      let fl := leAt d 20 1
      if 16 ≤ b || !bitB (leAt s.links.idPart 14 2) b then dropPacket s
      else if leAt d 2 2 ≠ (getFBar s b).gen.toNat then barrierGenBad s h.srcDev
      else if leAt d 1 1 = 0 && (treeKids s b).contains h.srcDev then
        fbarAgain (fbarAdvance (updFBar s b fun z => { combine z mn mx fl (barPairs d) with kids := addIds z.kids [h.srcDev] }) b) b
      else if leAt d 1 1 = 1 && treeParent s b == h.srcDev && (getFBar s b).up then fbarRelease s b mn mx fl (barPairs d)
      else dropPacket s

/-- Contexts whose arrived COMMIT waits for a barrier. -/
def commitsAt (s : State) (b : Nat) : List Nat :=
  (s.sluice.commits.filter fun m => m.arrived && cmBarrier m.raw == b).map (·.ctx)

/-- FABRIC_BARRIER_TIMEOUT (R66, R441): a barrier at which this device has arrived, or at which its threads wait, has not released within
JET_WAIT_LIMIT. Waiting threads are reported as R66 says; a waiting COMMIT, once, with jet 0. -/
def execFabricBarrierTimeout (idx : Nat) (s : State) : Res :=
  .next <|
    let x := getFBar s idx
    let s := (barWaiters s (barKey 3 0 idx)).foldl (fun s w => reportWait w.1 w.2.1 s) s
    let cs := commitsAt s idx
    if 16 ≤ idx || !x.here || x.stalled || cs.isEmpty || decide (s.ticks - x.since ≤ waitLimit s) then s
    else
      let s := setBit (updFBar s idx fun x => { x with stalled := true }) (oJet + 0x50) 2
      let s := cs.foldl (fun s c => postEvent s c 0x08 0xFFFFFFFF (toLe 1 3 ++ [0, 0, 0])) s
      ledgerRecord s 0x019 ((s.ticks - x.since) / 50000000) []

end Sys2Proof.Machine
end

