-- ==== Sys2Proof/Machine/Recovery.lean ====
section
/-!
DEFINITION. The recovery handler: notices, queued records, the states from QUIESCE to RESUME, watchdogs and the timebase (R25, R445 to
R471).
-/

namespace Sys2Proof.Machine

/-! Notices and records (R453, R456). -/

/-- The lost devices that a notice names. -/
def noticeIds (d : List Byte) : List Nat := (List.range (leAt d 6 1)).map fun i => leAt d (7 + 2 * i) 2

/-- A notice that brings something new: a recovery starts, or restarts for a device not yet lost, and the notice goes on (R453, R456). -/
def takeNotice (s : State) (port : Option Nat) (d : List Byte) : State :=
  let ids := noticeIds d
  let origin := leAt d 4 2
  let higher := decide (s.recov.epoch < leAt d 0 4)
  let fresh := ids.any fun i => !s.recov.seen.contains i
  let busy := s.recov.st != .normal
  if !higher && !fresh then s
  else
    let lost := addIds s.recov.lost ids
    let s := { s with recov := { s.recov with epoch := Nat.max s.recov.epoch (leAt d 0 4) } }
    let s := if !busy || ids.any fun i => !s.recov.lost.contains i then
        startRecovery (noteErr s (mkErr s 0x06B 8 (port.getD 0) (ids.headD 0)) .all) false ids []
      else { s with recov := { s.recov with seen := addIds s.recov.seen ids } }
    sendNotices s lost origin port

/-- RECOVERY_NOTICE (R418, R456): packet `k` is a notice of a neighbour. -/
def execRecoveryNotice (k : Nat) (s : State) : Res :=
  .next <|
    match inboxAt s k 1 with
    | none => s
    | some (p, x) =>
      let h := hdrOf x.hdr
      let near := (p.map fun p => (getLink s p).nbrDev) == some h.srcDev
      let n := leAt x.payload 6 1
      if !isNotice h then s
      else
        let s := dropInbox s k
        if !near || n = 0 || 16 < n then rejectPacket s h.job
        else if s.recov.st == .contained then s
        else takeNotice s p x.payload

/-- S2_RECORD (R452, R453): the record at the head of the queue is processed, in NORMAL, in REPAIR or before REJOIN is left; a
parity error in the handler's queue or state is S4 (R465). -/
def execS2Record (s : State) (good : Bool := true) : Res :=
  .next <|
    let r := s.recov
    let free := r.st == .normal || r.st == .repair || r.st == .rejoin
    if !good then raiseS4 s 0x084 9 0
    else if free && !r.queue.isEmpty then
      let rest := r.queue.drop 1
      { s with recov := { r with queue := rest, sev := if r.st == .normal then (if rest.isEmpty then 0 else 2) else r.sev } }
    else s

/-! QUIESCE and REPAIR (R458, R459). -/

/-- A quiescent point: ACTIVE ports take part in routing again (R423). -/
def includePorts (s : State) : State :=
  { s with links := { s.links with
      ports := s.links.ports.map fun e => (e.1, { e.2 with excluded := e.2.excluded && e.2.st != .active }) } }

/-- QUIESCE_COMPLETE (R452, R458): REPAIR for a local S3 event, REJOIN otherwise. -/
def execQuiesceComplete (s : State) : Res :=
  .next <|
    if s.recov.st == .quiesce then
      let s := includePorts s
      { s with recov := { s.recov with st := if s.recov.localFaults.isEmpty then .rejoin else .repair, since := s.ticks } }
    else s

/-- A stack whose uncorrectable read finds no spare and no retirement in progress (R356, R358, R373). -/
def noSpare (s : State) (r : ErrRec) : Bool :=
  r.code == 0x062 && (getStack s r.inst).pendingRetire.isNone && !(getStack s r.inst).migrating

/-- A repair that needs a spare that does not exist (R459). -/
def repairFails (s : State) (r : ErrRec) : Bool :=
  r.code == 0x063 || r.code == 0x066 || r.code == 0x068 || noSpare s r

/-- The repair that a local fault calls for: a retirement without copy, or a spare jet (R72, R356, R373). -/
def repairFault (s : State) (r : ErrRec) : State :=
  if r.code = 0x062 then
    let x := getStack s r.inst
    match x.pendingRetire with
    | none => s
    | some pc =>
      let s := updStack s r.inst fun x => { x with retiredPc := some pc, migrating := false, copied := pcLines, pendingRetire := none }
      setBit s (oHbm + 0x30) 3
  else s

/-- A retirement in progress completes without copying (R373). -/
def endMigration (s : State) (n : Nat) : State :=
  if (getStack s n).migrating then
    setBit (updStack s n fun x => { x with migrating := false, copied := pcLines }) (oHbm + 0x30) 3
  else s

/-- DEVICE_FAILED (R454, R459). -/
def deviceFailed (s : State) : State := raiseS4 { s with recov := { s.recov with failed := true } } 0x080 9 0

/-- REPAIR_COMPLETE (R459): `good` says whether the self-check passes. -/
def execRepairComplete (good : Bool) (s : State) : Res :=
  .next <|
    let fs := s.recov.localFaults
    if s.recov.st != .repair then s
    else if fs.any (repairFails s) then
      deviceFailed (if fs.any (noSpare s) then setBit s (oHbm + 0x30) 5 else s)
    else if !good then deviceFailed s
    else
      let s := fs.foldl repairFault s
      let s := (fs.filter fun r => r.code == 0x062).foldl (fun s r => endMigration s r.inst) s
      { s with recov := { s.recov with st := .rejoin, since := s.ticks, localFaults := [] } }

/-! REJOIN and AGREE (R452, R460, R464). -/

def agreeBarrier (s : State) : Nat := leAt s.links.idPart 12 1
def restoreBarrier (s : State) : Nat := leAt s.links.idPart 13 1

/-- The newest step held in a valid slot at the buddy; 0 where none is. A drafted spare carries what its buddy holds, `held`. -/
def newestStep (s : State) (held : Nat) : Nat :=
  let z := s.sluice
  let a := if z.slot0Valid then z.slot0Step else 0
  let b := if z.slot1Valid then z.slot1Step else 0
  if s.links.drafted && !z.slot0Valid && !z.slot1Valid then held else Nat.max a b

/-- Contexts that take part in the recovery as it leaves REJOIN: on a drafted spare, those that its host has created again with fabric
access (R461). -/
def rejoinCover (s : State) : List Nat :=
  if s.recov.spare then addIds s.recov.covered ((created s).filter fun c => (getCtx s c).fabric) else s.recov.covered

/-- REJOIN_READY (R452, R460, R461): FABRIC_READY is 1, every other lost device is among those that are `back`, replaced or rejoined (log
entry 136), and no record waits: the device arrives at the recovery barrier. -/
def execRejoinReady (held : Nat) (s : State) (back : List Nat := []) : Res :=
  .next <|
    let all := s.recov.lost.all fun i => i == s.links.devId || back.contains i
    if s.recov.st == .rejoin && fabricReady s && all && s.recov.queue.isEmpty then
      let n := newestStep s held
      fbarArrive { s with recov := { s.recov with st := .agree, covered := rejoinCover s, spare := false } } (agreeBarrier s) n n 0 []
    else s

/-- CFG_RECOVERY_CFG.DRAFT_WAIT in timebase ticks. -/
def draftWait (s : State) : Nat := bits (regOf s (oCfg + 0x10C)) 6 0 * 50000000

/-- DRAFT_WAIT_EXPIRY (R452, R464). -/
def execDraftWaitExpiry (s : State) : Res :=
  .next <| if s.recov.st == .rejoin && decide (draftWait s < s.ticks - s.recov.since) then jobLost s else s

/-- The slot of this device's reserve that holds step `t` of the protected device. -/
def heldSlot (s : State) (t : Nat) : Option Nat :=
  leastBelow 2 fun k =>
    let a := reserveBase s + k * slotBytes s
    slotBytes s != 0 && leNat (readPhys s a 8) == 1 && leNat (readPhys s (a + 8) 8) == t

/-- The pieces of kind `kind` of a slot from an address, as WRITE packets to the protected device (log entry 25): 1 arrays of blocks,
3 tables; a step counter is not sent. -/
def restorePkts (s : State) (dst kind : Nat) : Nat → Nat → List Pkt
  | 0, _ => []
  | n + 1, a =>
    let d := readPhys s a 64
    let len := leAt d 10 6
    let mine := if leAt d 2 2 = kind then
        (cut (leAt d 4 6) (readPhys s (a + 64) len)).map fun e => bareWrite s dst (leAt d 0 2) e.1 e.2
      else []
    let room := if leAt d 2 2 = 2 then 8 else len
    mine ++ restorePkts s dst kind n (a + 64 + ceilDiv room 64 * 64)

/-- As a buddy, writes the protected device's slot of step `t` back to it (R461), the tables first, since they name the other addresses. -/
def sendRestore (s : State) (t : Nat) : State :=
  match heldSlot s t with
  | none => s
  | some k =>
    let a := reserveBase s + k * slotBytes s
    let pkts (kind : Nat) : List Pkt := restorePkts s (protectedDev s) kind (leNat (readPhys s (a + 16) 8)) (a + 4096)
    if protectedDev s = s.links.devId then s else (pkts 3 ++ pkts 1).foldl inject s

/-- A slot of this device at its buddy holds step `t`; what a drafted spare's buddy holds is the buddy's to say. -/
def holdsStep (s : State) (t : Nat) : Bool :=
  let z := s.sluice
  (z.slot0Valid && z.slot0Step == t) || (z.slot1Valid && z.slot1Step == t) ||
    (s.links.drafted && !z.slot0Valid && !z.slot1Valid)

/-- A recovery barrier has released: its release is used up. -/
def takeRelease (s : State) (b : Nat) : State := updFBar s b fun x => { x with released := false }

/-- RECOVERY_BARRIER_RELEASE (R460, R461): T is the released STEP_MIN. A member without a slot of T cannot recover (R464). -/
def execRecoveryBarrierRelease (s : State) (fs : List MemFault := []) : Res :=
  .next <|
    let b := agreeBarrier s
    if s.recov.st == .agree && (getFBar s b).released then
      memFaults fs s fun s =>
      let t := (getFBar s b).relMin
      let s := takeRelease s b
      if holdsStep s t then
        sendRestore { s with recov := { s.recov with st := .restore, target := t, restored := false } } t
      else jobLost s
    else s

/-! RESTORE and RESUME (R461, R462, R567). -/

/-- The derived copy of a block whose ROUND is RNE comes from its masters. -/
def regenCopy (s : State) (c : Nat) (d : List Byte) : State :=
  if bkCopyFmt d = 0 || bkSr d then s
  else (List.range (bkElems d)).foldl (fun s e =>
    let v := (elemCopy (bkCopyFmt d) .rne (readMaster s c d e)).1
    writeArr s c (bkCopy d + copySize (bkCopyFmt d) * e) (toLe (copySize (bkCopyFmt d)) v)) s

/-- The BF16 operands of an installed root, from its restored slot (R379, R392). -/
def restoreOperand (s : State) (c : Nat) (d : List Byte) (right : Bool) : State :=
  let k := bkSide d right
  let x := matOf (readArr s c (bkSlot d (if right then 5 else 4)) (4 * k * k))
  writeArr s c (bkRootOperand d + operandOff d right) (rootParts k x)

/-- Entry `n` of the restored update table: a block, with its pending roots and the operands of its installed ones (R28, R461). -/
def restoreBlock (c : Nat) (s : State) (n : Nat) : State :=
  let d := (rdCtx s c (tableAt s c n) 128).1
  if bkRows d = 0 then s
  else
    let s := regenCopy (setBlock s c n (some { raw := d })) c d
    if bkPrecond d then
      let left := workBytes (bkRows d)
      let s := restoreOperand (restoreOperand s c d false) c d true
      let s := setRoot s c n false (rootOfBytes (bkRows d) (readArr s c (bkRootWork d) left))
      setRoot s c n true (rootOfBytes (bkCols d) (readArr s c (bkRootWork d + left) (workBytes (bkCols d))))
    else s

/-- The committed state of a covered context: blocks and roots from the restored table, the step counter at T + 1, its basins as R170. -/
def restoreCtx (t : Nat) (s : State) (c : Nat) : State :=
  if !(getCtx s c).fabric then s
  else
    let s := { s with sluice := { s.sluice with
      blocks := SMap.clear (fun k => k / 16384 == c) s.sluice.blocks
      roots := SMap.clear (fun k => k / 32768 == c) s.sluice.roots
      schedules := SMap.put [] s.sluice.schedules c []
      operands := s.sluice.operands.filter fun e => e.1 != c } }
    let s := if (getCtx s c).updSet then (List.range 16384).foldl (restoreBlock c) s else s
    let s := updCtx s c fun x => { x with step := BitVec.ofNat 64 (t + 1), poison := false, scopes := [] }
    ((List.range 6).filter fun b => bitB (getCtx s c).lease.basins b).foldl (fun s b => updBasin s b freshBasin) s

/-- A restore WRITE of the buddy is still on its way here. -/
def restorePending (s : State) : Bool :=
  let mine (x : Pkt) : Bool :=
    let h := hdrOf x.hdr
    h.kind == 5 && h.job == 0 && h.srcEp == 0x6000 && h.srcDev == buddyDev s && h.dstDev == s.links.devId
  s.links.inbox.any (fun e => mine e.2) || s.links.queue.any fun e => mine e.2

/-- RESUME is reached (R448, R462): counted, recorded with T in CFG_ROLLBACK_STEP, and a checkpoint is requested. -/
def resume (s : State) : State :=
  let r := s.recov
  let s := setPair (bump (setBit s (oCfg + 0x104) 4) (oCfg + 0x140) 1) (oCfg + 0x118) r.target
  let s := ledgerRecord s 0x051 ((s.ticks - r.detect) / 50000) (toLe 8 r.target ++ toLe 4 r.epoch)
  { s with recov := { r with st := .resume }, sluice := { s.sluice with request := true } }

/-- RESTORE_COMPLETE (R461): the slot has been written back, and the device arrives at the second barrier; once that has released,
RESUME. -/
def execRestoreComplete (s : State) (fs : List MemFault := []) : Res :=
  .next <| memFaults fs s fun s =>
    let b := restoreBarrier s
    let s := if s.recov.st == .restore && !s.recov.restored && !restorePending s then
        let s := s.recov.covered.foldl (restoreCtx s.recov.target) s
        fbarArrive { s with recov := { s.recov with restored := true } } b 0 0 0 []
      else s
    if s.recov.st == .restore && s.recov.restored && (getFBar s b).released then resume (takeRelease s b) else s

/-- The rollback outcome of a covered context (R567). -/
def reportRollback (t : Nat) (s : State) (c : Nat) : State :=
  if !(getCtx s c).fabric then s
  else
    let s := updCtx (halt s c 5 0xFFFFFFFF 0) c fun x => { x with haltReason := 5, rollbackStep := BitVec.ofNat 64 t }
    postEvent s c 0x09 0xFFFFFFFF (toLe 8 t)

/-- ROLLBACK_REPORTED (R462, R567): the chanters report, and the handler is in NORMAL. -/
def execRollbackReported (s : State) : Res :=
  .next <|
    if s.recov.st == .resume then
      let s := s.recov.covered.foldl (reportRollback s.recov.target) s
      { s with recov := { s.recov with
        st := .normal, sev := if s.recov.queue.isEmpty then 0 else 2, restarts := 0, lost := [], covered := []
        restored := false, wdogs := 0 } }
    else s

/-! Watchdogs and the timebase (R25, R451, R465, R468). -/

/-- MGMT_WATCHDOG (R465, R468): the core is restarted, an S3 event; a second expiry within one recovery is S4. -/
def execMgmtWatchdog (core : Nat) (s : State) : Res :=
  .next <|
    if s.recov.st != .normal && decide (1 ≤ s.recov.wdogs) then raiseS4 s 0x083 9 core
    else
      let n := if s.recov.st == .normal then 1 else s.recov.wdogs + 1
      let s := raise s 0x06C 9 core .all
      { s with recov := { s.recov with wdogs := n } }

/-- TIMEBASE_LOST (R25, R451); before the configuration lock it is reported at the lock (R530). A loss within the second that must pass
without one is a loss again. -/
def execTimebaseLost (s : State) : Res :=
  .next <|
    let s := { s with recov := { s.recov with tbLost := true, tbAt := s.ticks } }
    if s.boot.locked then raise (setBit s (oCfg + 0x104) 6) 0x044 11 0 .all else s

/-- TIMEBASE_RESTORED (R25): 1 s has passed since the last loss. -/
def execTimebaseRestored (s : State) : Res :=
  .next <|
    if s.recov.tbLost && decide (50000000 ≤ s.ticks - s.recov.tbAt) then { s with recov := { s.recov with tbLost := false } } else s

end Sys2Proof.Machine
end

