-- ==== Sys2Proof/Machine/Dispatch.lean ====
section
/-! DEFINITION. One arm per command: its meaning, a direct call. -/

namespace Sys2Proof.Machine

def exec (i : Instr) (s : State) : Host.Outcome State Fault Refusal :=
  match i with
  | .add q => Sys2Proof.Machine.execAdd q s
  | .sub q => Sys2Proof.Machine.execSub q s
  | .andI q => Sys2Proof.Machine.execAndI q s
  | .orI q => Sys2Proof.Machine.execOrI q s
  | .xorI q => Sys2Proof.Machine.execXorI q s
  | .shl q => Sys2Proof.Machine.execShl q s
  | .shr q => Sys2Proof.Machine.execShr q s
  | .sra q => Sys2Proof.Machine.execSra q s
  | .mul q => Sys2Proof.Machine.execMul q s
  | .mulhu q => Sys2Proof.Machine.execMulhu q s
  | .div q => Sys2Proof.Machine.execDiv q s
  | .divu q => Sys2Proof.Machine.execDivu q s
  | .rem q => Sys2Proof.Machine.execRem q s
  | .remu q => Sys2Proof.Machine.execRemu q s
  | .min q => Sys2Proof.Machine.execMin q s
  | .max q => Sys2Proof.Machine.execMax q s
  | .minu q => Sys2Proof.Machine.execMinu q s
  | .maxu q => Sys2Proof.Machine.execMaxu q s
  | .clz q => Sys2Proof.Machine.execClz q s
  | .popc q => Sys2Proof.Machine.execPopc q s
  | .liz q => Sys2Proof.Machine.execLiz q s
  | .lih q => Sys2Proof.Machine.execLih q s
  | .eqI q => Sys2Proof.Machine.execEqI q s
  | .neI q => Sys2Proof.Machine.execNeI q s
  | .ltI q => Sys2Proof.Machine.execLtI q s
  | .ltu q => Sys2Proof.Machine.execLtu q s
  | .geI q => Sys2Proof.Machine.execGeI q s
  | .geu q => Sys2Proof.Machine.execGeu q s
  | .feq q => Sys2Proof.Machine.execFeq q s
  | .flt q => Sys2Proof.Machine.execFlt q s
  | .fle q => Sys2Proof.Machine.execFle q s
  | .funCmp q => Sys2Proof.Machine.execFunCmp q s
  | .pand q => Sys2Proof.Machine.execPand q s
  | .por q => Sys2Proof.Machine.execPor q s
  | .pxor q => Sys2Proof.Machine.execPxor q s
  | .pnot q => Sys2Proof.Machine.execPnot q s
  | .pset q => Sys2Proof.Machine.execPset q s
  | .pget q => Sys2Proof.Machine.execPget q s
  | .fadd q => Sys2Proof.Machine.execFadd q s
  | .fsub q => Sys2Proof.Machine.execFsub q s
  | .fmul q => Sys2Proof.Machine.execFmul q s
  | .ffma q => Sys2Proof.Machine.execFfma q s
  | .fdiv q => Sys2Proof.Machine.execFdiv q s
  | .fsqrt q => Sys2Proof.Machine.execFsqrt q s
  | .fmin q => Sys2Proof.Machine.execFmin q s
  | .fmax q => Sys2Proof.Machine.execFmax q s
  | .fcvti q => Sys2Proof.Machine.execFcvti q s
  | .fcvtf q => Sys2Proof.Machine.execFcvtf q s
  | .fabs q => Sys2Proof.Machine.execFabs q s
  | .fneg q => Sys2Proof.Machine.execFneg q s
  | .br q => Sys2Proof.Machine.execBr q s
  | .jal q => Sys2Proof.Machine.execJal q s
  | .ld q => Sys2Proof.Machine.execLd q s
  | .st q => Sys2Proof.Machine.execSt q s
  | .aadd q => Sys2Proof.Machine.execAadd q s
  | .aswap q => Sys2Proof.Machine.execAswap q s
  | .acas q => Sys2Proof.Machine.execAcas q s
  | .amin q => Sys2Proof.Machine.execAmin q s
  | .amax q => Sys2Proof.Machine.execAmax q s
  | .aminu q => Sys2Proof.Machine.execAminu q s
  | .amaxu q => Sys2Proof.Machine.execAmaxu q s
  | .aand q => Sys2Proof.Machine.execAand q s
  | .aor q => Sys2Proof.Machine.execAor q s
  | .fence q => Sys2Proof.Machine.execFence q s
  | .iflush q => Sys2Proof.Machine.execIflush q s
  | .bulk q => Sys2Proof.Machine.execBulk q s
  | .wop q => Sys2Proof.Machine.execWop q s
  | .vadd q => Sys2Proof.Machine.execVadd q s
  | .vsub q => Sys2Proof.Machine.execVsub q s
  | .vmul q => Sys2Proof.Machine.execVmul q s
  | .vfma q => Sys2Proof.Machine.execVfma q s
  | .vaxpy q => Sys2Proof.Machine.execVaxpy q s
  | .vmax q => Sys2Proof.Machine.execVmax q s
  | .vmin q => Sys2Proof.Machine.execVmin q s
  | .vcopy q => Sys2Proof.Machine.execVcopy q s
  | .vfill q => Sys2Proof.Machine.execVfill q s
  | .vsum q => Sys2Proof.Machine.execVsum q s
  | .vamax q => Sys2Proof.Machine.execVamax q s
  | .vchk q => Sys2Proof.Machine.execVchk q s
  | .vztest q => Sys2Proof.Machine.execVztest q s
  | .vcvt q => Sys2Proof.Machine.execVcvt q s
  | .chopen q => Sys2Proof.Machine.execChopen q s
  | .chclose q => Sys2Proof.Machine.execChclose q s
  | .conn q => Sys2Proof.Machine.execConn q s
  | .disc q => Sys2Proof.Machine.execDisc q s
  | .send q => Sys2Proof.Machine.execSend q s
  | .sendNb q => Sys2Proof.Machine.execSendNb q s
  | .feed q => Sys2Proof.Machine.execFeed q s
  | .feedNb q => Sys2Proof.Machine.execFeedNb q s
  | .recv q => Sys2Proof.Machine.execRecv q s
  | .recvNb q => Sys2Proof.Machine.execRecvNb q s
  | .recvs q => Sys2Proof.Machine.execRecvs q s
  | .recvsNb q => Sys2Proof.Machine.execRecvsNb q s
  | .msgfree q => Sys2Proof.Machine.execMsgfree q s
  | .barinit q => Sys2Proof.Machine.execBarinit q s
  | .bararr q => Sys2Proof.Machine.execBararr q s
  | .barwait q => Sys2Proof.Machine.execBarwait q s
  | .spawnNormal q => Sys2Proof.Machine.execSpawnNormal q s
  | .spawnFeed q => Sys2Proof.Machine.execSpawnFeed q s
  | .exitThread q => Sys2Proof.Machine.execExitThread q s
  | .getst q => Sys2Proof.Machine.execGetst q s
  | .clrflg q => Sys2Proof.Machine.execClrflg q s
  | .rdtime q => Sys2Proof.Machine.execRdtime q s
  | .poison q => Sys2Proof.Machine.execPoison q s
  | .memAccessComplete jet thread chunks fs => Sys2Proof.Machine.execMemAccessComplete jet thread chunks fs s
  | .fenceComplete jet thread => Sys2Proof.Machine.execFenceComplete jet thread s
  | .hopRetransmit hop failures => Sys2Proof.Machine.execHopRetransmit hop failures s
  | .messageArrival k slot => Sys2Proof.Machine.execMessageArrival k slot s
  | .connectionRequest k fs => Sys2Proof.Machine.execConnectionRequest k s fs
  | .connectionGrant k => Sys2Proof.Machine.execConnectionGrant k s
  | .creditReturn k => Sys2Proof.Machine.execCreditReturn k s
  | .waitStall jet thread => Sys2Proof.Machine.execWaitStall jet thread s
  | .jetSubstitution jet good => Sys2Proof.Machine.execJetSubstitution jet good s
  | .launchStart ctx => Sys2Proof.Machine.execLaunchStart ctx s
  | .terracePreempt ctx => Sys2Proof.Machine.execTerracePreempt ctx s
  | .contextResume ctx => Sys2Proof.Machine.execContextResume ctx s
  | .basinItemCheck b => Sys2Proof.Machine.execBasinItemCheck b s
  | .passItem b fs => Sys2Proof.Machine.execPassItem b s fs
  | .loadItem b => Sys2Proof.Machine.execLoadItem b s
  | .loadComplete b parity fs => Sys2Proof.Machine.execLoadComplete b parity s fs
  | .signalMark b => Sys2Proof.Machine.execSignalMark b s
  | .waitMark b => Sys2Proof.Machine.execWaitMark b s
  | .exchange b => Sys2Proof.Machine.execExchange b s
  | .rootWindow b fs => Sys2Proof.Machine.execRootWindow b s fs
  | .rowSegmentArrival k => Sys2Proof.Machine.execRowSegmentArrival k s
  | .rowAccept b fs => Sys2Proof.Machine.execRowAccept b s fs
  | .zeroRowMarker b fs => Sys2Proof.Machine.execZeroRowMarker b s fs
  | .outputRowAtSpout b fs => Sys2Proof.Machine.execOutputRowAtSpout b s fs
  | .rowChecked b res fs => Sys2Proof.Machine.execRowChecked b res s fs
  | .rowReplay b fs => Sys2Proof.Machine.execRowReplay b s fs
  | .segmentReplay b fs shadow => Sys2Proof.Machine.execSegmentReplay b s fs shadow
  | .tokenExit b => Sys2Proof.Machine.execTokenExit b s
  | .drain b => Sys2Proof.Machine.execDrain b s
  | .drainComplete b => Sys2Proof.Machine.execDrainComplete b s
  | .bankReload b fs => Sys2Proof.Machine.execBankReload b s fs
  | .basinSubstitution b shadow => Sys2Proof.Machine.execBasinSubstitution b s shadow
  | .basinPreempt b => Sys2Proof.Machine.execBasinPreempt b s
  | .basinResume b => Sys2Proof.Machine.execBasinResume b s
  | .feedStall b => Sys2Proof.Machine.execFeedStall b s
  | .passComplete b fs => Sys2Proof.Machine.execPassComplete b s fs
  | .sideRowRead b row fs => Sys2Proof.Machine.execSideRowRead b row s fs
  | .rowStoreAcquire b => Sys2Proof.Machine.execRowStoreAcquire b s
  | .rowKernelPhase2 b g fs => Sys2Proof.Machine.execRowKernelPhase2 b g s fs
  | .spoutDelivery b k => Sys2Proof.Machine.execSpoutDelivery b k s
  | .profileApplied b k => Sys2Proof.Machine.execProfileApplied b k s
  | .routeApplied b k => Sys2Proof.Machine.execRouteApplied b k s
  | .weirPlainRequest k failures fs => Sys2Proof.Machine.execWeirPlainRequest k failures s fs
  | .weirOrderedRequest k failures fs => Sys2Proof.Machine.execWeirOrderedRequest k failures s fs
  | .weirExactPartial k failures fs => Sys2Proof.Machine.execWeirExactPartial k failures s fs
  | .notifyDelivery k => Sys2Proof.Machine.execNotifyDelivery k s
  | .jlmScrub addr wrong => Sys2Proof.Machine.execJlmScrub addr wrong s
  | .cisternScrub addr wrong => Sys2Proof.Machine.execCisternScrub addr wrong s
  | .hbmScrub addr data check => Sys2Proof.Machine.execHbmScrub addr data check s
  | .pcRetirementComplete stack wrong => Sys2Proof.Machine.execPcRetirementComplete stack s wrong
  | .hbmParityRetry stack pc write again => Sys2Proof.Machine.execHbmParityRetry stack pc write again s
  | .ecsRead counts => Sys2Proof.Machine.execEcsRead counts s
  | .hbmTempRead stack temp high => Sys2Proof.Machine.execHbmTempRead stack temp high s
  | .rfmRequest stack => Sys2Proof.Machine.execRfmRequest stack s
  | .commitBarrierRelease ctx recomputes fs => Sys2Proof.Machine.execCommitBarrierRelease ctx recomputes s fs
  | .operandReady k fs => Sys2Proof.Machine.execOperandReady k s fs
  | .snapshot k fs => Sys2Proof.Machine.execSnapshot k s fs
  | .checkpointRequest => Sys2Proof.Machine.execCheckpointRequest s
  | .buddyCopy fs => Sys2Proof.Machine.execBuddyCopy s fs
  | .linkTrainingComplete port lanes => Sys2Proof.Machine.execLinkTrainingComplete port lanes s
  | .downRetry port => Sys2Proof.Machine.execDownRetry port s
  | .discoverySend port => Sys2Proof.Machine.execDiscoverySend port s
  | .discoveryRec port => Sys2Proof.Machine.execDiscoveryRec port s
  | .discoveryTimeout port => Sys2Proof.Machine.execDiscoveryTimeout port s
  | .signalLoss port => Sys2Proof.Machine.execSignalLoss port s
  | .linkBlockReceive port block => Sys2Proof.Machine.execLinkBlockReceive port block s
  | .replayTimeout port => Sys2Proof.Machine.execReplayTimeout port s
  | .linkRetrain port lanes => Sys2Proof.Machine.execLinkRetrain port lanes s
  | .creditStall port vc us => Sys2Proof.Machine.execCreditStall port vc us s
  | .packetRoute k => Sys2Proof.Machine.execPacketRoute k s
  | .messagePkt k => Sys2Proof.Machine.execMessagePkt k s
  | .connReq k => Sys2Proof.Machine.execConnReq k s
  | .connGrant k => Sys2Proof.Machine.execConnGrant k s
  | .msgCredit k => Sys2Proof.Machine.execMsgCredit k s
  | .writePkt k recomputes => Sys2Proof.Machine.execWritePkt k recomputes s
  | .weirStream k => Sys2Proof.Machine.execWeirStream k s
  | .collReady k => Sys2Proof.Machine.execCollReady k s
  | .barrierPkt k => Sys2Proof.Machine.execBarrierPkt k s
  | .fabricBarrierTimeout idx => Sys2Proof.Machine.execFabricBarrierTimeout idx s
  | .collectiveComplete ctx => Sys2Proof.Machine.execCollectiveComplete ctx s
  | .recoveryNotice k => Sys2Proof.Machine.execRecoveryNotice k s
  | .s2Record good => Sys2Proof.Machine.execS2Record s good
  | .quiesceComplete => Sys2Proof.Machine.execQuiesceComplete s
  | .repairComplete good => Sys2Proof.Machine.execRepairComplete good s
  | .rejoinReady held back => Sys2Proof.Machine.execRejoinReady held s back
  | .draftWaitExpiry => Sys2Proof.Machine.execDraftWaitExpiry s
  | .recoveryBarrierRelease fs => Sys2Proof.Machine.execRecoveryBarrierRelease s fs
  | .restoreComplete fs => Sys2Proof.Machine.execRestoreComplete s fs
  | .rollbackReported => Sys2Proof.Machine.execRollbackReported s
  | .mgmtWatchdog core => Sys2Proof.Machine.execMgmtWatchdog core s
  | .timebaseLost => Sys2Proof.Machine.execTimebaseLost s
  | .timebaseRestored => Sys2Proof.Machine.execTimebaseRestored s
  | .bellowsUpdate est => Sys2Proof.Machine.execBellowsUpdate est s
  | .currentSample amps watts => Sys2Proof.Machine.execCurrentSample amps watts s
  | .calibration fit => Sys2Proof.Machine.execCalibration fit s
  | .calCompare est meas => Sys2Proof.Machine.execCalCompare est meas s
  | .opChange => Sys2Proof.Machine.execOpChange s
  | .rampComplete => Sys2Proof.Machine.execRampComplete s
  | .capGovernorLower => Sys2Proof.Machine.execCapGovernorLower s
  | .capGovernorRaise => Sys2Proof.Machine.execCapGovernorRaise s
  | .pwrCap port value => Sys2Proof.Machine.execPwrCap port value s
  | .droopEnter region => Sys2Proof.Machine.execDroopEnter region s
  | .droopRelease region => Sys2Proof.Machine.execDroopRelease region s
  | .thermalUpdate junctions => Sys2Proof.Machine.execThermalUpdate junctions s
  | .thermalOpLimit => Sys2Proof.Machine.execThermalOpLimit s
  | .thermalTrip stack unit temp => Sys2Proof.Machine.execThermalTrip stack unit temp s
  | .currentTrip rail => Sys2Proof.Machine.execCurrentTrip rail s
  | .brakeFall => Sys2Proof.Machine.execBrakeFall s
  | .brakeQualified => Sys2Proof.Machine.execBrakeQualified s
  | .brakeRelease => Sys2Proof.Machine.execBrakeRelease s
  | .brakeHeld => Sys2Proof.Machine.execBrakeHeld s
  | .energyAttribution energies => Sys2Proof.Machine.execEnergyAttribution energies s
  | .pldmEffecterWrite value => Sys2Proof.Machine.execPldmEffecterWrite value s
  | .inputUndervoltage => Sys2Proof.Machine.execInputUndervoltage s
  | .inputOvervoltage => Sys2Proof.Machine.execInputOvervoltage s
  | .inputInRange => Sys2Proof.Machine.execInputInRange s
  | .modRst => Sys2Proof.Machine.execModRst s
  | .internalResetRelease => Sys2Proof.Machine.execInternalResetRelease s
  | .configurationLock => Sys2Proof.Machine.execConfigurationLock s
  | .perst port => Sys2Proof.Machine.execPerst port s
  | .updBegin path slot => Sys2Proof.Machine.execUpdBegin path slot s
  | .updateWrite path block data => Sys2Proof.Machine.execUpdateWrite path block data s
  | .updFinish path => Sys2Proof.Machine.execUpdFinish path s
  | .updateAbort path => Sys2Proof.Machine.execUpdateAbort path s
  | .svnCommit path fuses => Sys2Proof.Machine.execSvnCommit path fuses s
  | .getVersion req => Sys2Proof.Machine.execGetVersion req s
  | .getCapabilities req => Sys2Proof.Machine.execGetCapabilities req s
  | .negotiateAlgorithms req => Sys2Proof.Machine.execNegotiateAlgorithms req s
  | .getDigests req => Sys2Proof.Machine.execGetDigests req s
  | .getCertificate req => Sys2Proof.Machine.execGetCertificate req s
  | .chunkGet req => Sys2Proof.Machine.execChunkGet req s
  | .challenge req => Sys2Proof.Machine.execChallenge req s
  | .getMeasurements req => Sys2Proof.Machine.execGetMeasurements req s
  | .spdmUnsupported req => Sys2Proof.Machine.execSpdmUnsupported req s
  | .readHeader => Sys2Proof.Machine.execReadHeader s
  | .readSlots first count => Sys2Proof.Machine.execReadSlots first count s
  | .ledgerUnsupported req => Sys2Proof.Machine.execLedgerUnsupported req s
  | .ledgerFlush res => Sys2Proof.Machine.execLedgerFlush res s
  | .ledgerLoad bad0 bad1 slots0 slots1 => Sys2Proof.Machine.execLedgerLoad bad0 bad1 slots0 slots1 s
  | .ldgReadIndex port value => Sys2Proof.Machine.execLdgReadIndex port value s
  | .counterLowRead port addr size => Sys2Proof.Machine.execCounterLowRead port addr size s
  | .registerWrite port addr size value => Sys2Proof.Machine.execRegisterWrite port addr size value s
  | .bar4Access port offset write data fs => Sys2Proof.Machine.execBar4Access port offset write data s fs
  | .ctxTail port ctx value => Sys2Proof.Machine.execCtxTail port ctx value s
  | .chanterDoorbell k => Sys2Proof.Machine.execChanterDoorbell k s
  | .ctxEvqHead port ctx value => Sys2Proof.Machine.execCtxEvqHead port ctx value s
  | .commandFetched ctx data ok fs => Sys2Proof.Machine.execCommandFetched ctx data ok s fs
  | .ctxCreate port => Sys2Proof.Machine.execCtxCreate port s
  | .ctxDestroy port => Sys2Proof.Machine.execCtxDestroy port s
  | .lease port => Sys2Proof.Machine.execLease port s
  | .frames port => Sys2Proof.Machine.execFrames port s
  | .hostWindow port => Sys2Proof.Machine.execHostWindow port s
  | .invalidate port => Sys2Proof.Machine.execInvalidate port s
  | .suspend port => Sys2Proof.Machine.execSuspend port s
  | .restart port => Sys2Proof.Machine.execRestart port s
  | .ctxAbort port => Sys2Proof.Machine.execCtxAbort port s
  | .draft port => Sys2Proof.Machine.execDraft port s
  | .contextSchedule ctx => Sys2Proof.Machine.execContextSchedule ctx s
  | .quantumExpiry ctx => Sys2Proof.Machine.execQuantumExpiry ctx s
  | .hostAccessTimeout ctx => Sys2Proof.Machine.execHostAccessTimeout ctx s
  | .commandStall ctx => Sys2Proof.Machine.execCommandStall ctx s
  | .nopCmd ctx => Sys2Proof.Machine.execNopCmd ctx s
  | .basinItems ctx => Sys2Proof.Machine.execBasinItems ctx s
  | .launchCmd ctx => Sys2Proof.Machine.execLaunchCmd ctx s
  | .profileWrite ctx => Sys2Proof.Machine.execProfileWrite ctx s
  | .routeWrite ctx => Sys2Proof.Machine.execRouteWrite ctx s
  | .setCmd ctx => Sys2Proof.Machine.execSetCmd ctx s
  | .phaseCmd ctx => Sys2Proof.Machine.execPhaseCmd ctx s
  | .regionDeclare ctx => Sys2Proof.Machine.execRegionDeclare ctx s
  | .regionRelease ctx => Sys2Proof.Machine.execRegionRelease ctx s
  | .blockInit ctx => Sys2Proof.Machine.execBlockInit ctx s
  | .blockRelease ctx => Sys2Proof.Machine.execBlockRelease ctx s
  | .schedule ctx => Sys2Proof.Machine.execSchedule ctx s
  | .commit ctx fs => Sys2Proof.Machine.execCommit ctx s fs
  | .collective ctx fs => Sys2Proof.Machine.execCollective ctx s fs
  | .evalOpen ctx => Sys2Proof.Machine.execEvalOpen ctx s
  | .evalClose ctx => Sys2Proof.Machine.execEvalClose ctx s
  | .copyCmd ctx data ok fs => Sys2Proof.Machine.execCopyCmd ctx data ok s fs
  | .waitCmd ctx => Sys2Proof.Machine.execWaitCmd ctx s
  | .signalCommand ctx => Sys2Proof.Machine.execSignalCommand ctx s
  | .jobStart ctx => Sys2Proof.Machine.execJobStart ctx s
  | .ovlSelChange level => Sys2Proof.Machine.execOvlSelChange level s
  | .brakeRise ns => Sys2Proof.Machine.execBrakeRise ns s
  | .droopEnd region ns => Sys2Proof.Machine.execDroopEnd region ns s
  | .linkUp port width speed flit => Sys2Proof.Machine.execLinkUp port width speed flit s
  | .hbmTrain stack => Sys2Proof.Machine.execHbmTrain stack s
  | .pcLineCopy stack wrong => Sys2Proof.Machine.execPcLineCopy stack s wrong

end Sys2Proof.Machine
end

