-- ==== Sys2Proof/Machine/Tick.lean ====
section
/-!
DEFINITION. One tick of the 50 MHz timebase (R24): the counts that the manual ties to it.
-/

namespace Sys2Proof.Machine

/-- Another microsecond of each active reason (R497). -/
def reasonTimes (s : State) : State :=
  (List.range 14).foldl (fun s n => if bitB s.power.active n then bump s (oPwr + 0x100 + 8 * n) 1 else s) s

/-- Another operating second, and new rate windows (R572, R574). -/
def operatingSecond (s : State) : State :=
  { s with ledger := { s.ledger with opsec := sat32 (s.ledger.opsec + 1), updates := [] } }

/-- One tick: every 50 ticks a microsecond of the active reasons, every 50,000,000 ticks a second of operation out of reset. -/
def tick (s : State) : State :=
  let s := { s with ticks := s.ticks + 1 }
  if s.boot.inReset then s
  else
    let s := settle s
    let s := if s.ticks % 50 = 0 then reasonTimes s else s
    if s.ticks % 50000000 = 0 then operatingSecond s else s

end Sys2Proof.Machine
end

