-- ==== Sys2Proof/Safety.lean ====
section
/-!
DEFINITION. The terms that statements use: what a run must never do, when an instruction issues, and what its completion
writes.
-/

namespace Sys2Proof.Safety
open Sys2Proof.Machine

/-- A step answers a next state: the block never stops. -/
def Completes (s : State) : Prop := ∃ t, step s = .next t

/-- The memory is in its canonical form. -/
def MemCanonical (s : State) : Prop := s.mem.wf = true

/-- The thread that an issue is of. -/
def threadAt (s : State) (i : Issue) : Thread := getThread s i.jet i.thread

/-- What stands after a fetch, and after the jet has fetchReported one corrected parity error (R74). -/
def fetchReported (i : Issue) (s : State) : State :=
  if i.parity = 0 then s else setBit (raise s 0x021 0 (physJet s i.jet) (.terrace (i.jet / 512))) (oJet + 0x50) 4

/-- Thread `i.thread` of jet `i.jet`, of context `c`, issues the word `i.word` and nothing turns it away: the thread is READY in
a running context, its program counter is aligned and can be fetched from, the word is not reserved, its guard holds, no
operand keeps failing parity, and the fetched word can be used (R35, R36, R77 to R80, R74, R345, R354). `s'` is the state after the issue
slot and the fetch have been taken. -/
structure Issuing (i : Issue) (c : Nat) (s s' : State) : Prop where
  can : canIssue s i = some c
  aligned : (threadAt s i).pc.toNat % 8 = 0
  reach : fetchable s c (threadAt s i).pc.toNat = true
  fetch : ∃ sf sm, fetched (takeSlot s i.jet i.thread) c i.jet (threadAt s i).pc.toNat i.word = some sf ∧
    memChecks (farFaults i.faults) sf = (true, sm) ∧ undisturbed sf sm = true ∧ s' = fetchReported i sm
  kept : threadAt s' i = threadAt s i
  legal : legal (fieldsOf i.word) = true
  guarded : guardOn (threadAt s i) (fieldsOf i.word) = true
  parity : i.parity < 2

/-- The instruction gets the last of the `cost` issue slots that R87 gives it. -/
def LastSlot (i : Issue) (s : State) (cost : Nat) : Prop := cost ≤ (threadAt s i).parts + issueSlots s i

/-- The issuing thread goes on at the next instruction with its registers, predicates and flags changed by `f`; nothing else
changes. -/
def goesOn (i : Issue) (s : State) (f : Thread → Thread) : State :=
  updThread s i.jet i.thread fun x => { f x with pc := (f x).pc + 8, parts := 0, latch := [] }

/-- Register `d` receives `v`, and the thread goes on. -/
def writesReg (i : Issue) (s : State) (d : Nat) (v : Word) : State := goesOn i s fun x => x.setReg d v

/-- Predicate `d` receives `v`, and the thread goes on. -/
def writesPred (i : Issue) (s : State) (d : Nat) (v : Bool) : State := goesOn i s fun x => x.setPred d v

/-! Shapes that several rows share. Each says of a row that EVERY issue of it completes, with which result. -/

/-- The second operand of an integer instruction (R88): register B under OP 0x01; under OP 0x02 IMM, zero-extended for AND, OR
and XOR and sign-extended for every other function. -/
def secondOperand (x : Thread) (f : Fields) : Word :=
  if f.op = 0x01 then x.reg f.b
  else if f.fn = 2 ∨ f.fn = 3 ∨ f.fn = 4 then BitVec.ofNat 64 f.imm
  else (BitVec.ofNat 32 f.imm).signExtend 64

/-- Function `fn` of OP 0x01 and 0x02, of `cost` issues, writes to register D the `v` that stands in relation `rel` to A and the
second operand. -/
def IntegerRow (mk : Issue → Instr) (fn cost : Nat) (rel : Word → Word → Word → Prop) : Prop :=
  ∀ i c s s', Issuing i c s s' → LastSlot i s cost →
    let f := fieldsOf i.word
    (f.op = 0x01 ∨ f.op = 0x02) → f.fn = fn →
    ∃ v, exec (mk i) s = .next (writesReg i s' f.d v) ∧
      rel ((threadAt s i).reg f.a) (secondOperand (threadAt s i) f) v

/-- Function `fn` of OP 0x04 and 0x05 writes to predicate D the comparison of A with B, or with IMM sign-extended (R91). -/
def CompareRow (mk : Issue → Instr) (fn : Nat) (cmp : Word → Word → Bool) : Prop :=
  ∀ i c s s', Issuing i c s s' → LastSlot i s 1 →
    let f := fieldsOf i.word
    let x := threadAt s i
    (f.op = 0x04 → f.fn = fn → exec (mk i) s = .next (writesPred i s' f.d (cmp (x.reg f.a) (x.reg f.b)))) ∧
    (f.op = 0x05 → f.fn = fn →
      exec (mk i) s = .next (writesPred i s' f.d (cmp (x.reg f.a) ((BitVec.ofNat 32 f.imm).signExtend 64))))

/-- The row of one OP and FN, of `cost` issues, completes with the thread changed by `g` of the fields. -/
def ThreadRow (mk : Issue → Instr) (op fn cost : Nat) (g : Fields → Thread → Thread) : Prop :=
  ∀ i c s s', Issuing i c s s' → LastSlot i s cost →
    let f := fieldsOf i.word
    f.op = op → f.fn = fn → exec (mk i) s = .next (goesOn i s' (g f))

/-- Bits [31:0] of a register. -/
def low32 (v : Word) : Nat := v.toNat % 2 ^ 32

/-- A binary32 NaN, by its encoding. -/
def nan32 (n : Nat) : Bool := decide (0x7F800000 < n % 2 ^ 31)

/-- A number that orders the binary32 encodings that are no NaN as their values are ordered; both zeros have 0. -/
def key32 (n : Nat) : Int := if n.testBit 31 then -((n % 2 ^ 31 : Nat) : Int) else (n % 2 ^ 31 : Nat)

/-- A binary32 signalling NaN, by its encoding. -/
def snan32 (n : Nat) : Bool := nan32 n && !n.testBit 22

/-- The binary32 rounding of the exact value `v` of an operation on `ops` goes to register D, with its flags (R93). -/
def writesF32 (f : Fields) (ops : List Nat) (v : FVal) (more : Nat) (x : Thread) : Thread :=
  (x.setReg f.d (BitVec.ofNat 64 (f32.ieeeRound v))).raiseFlags ((roundFlags f32 v).2 ||| invalid f32 ops v ||| more)

/-- A finite value in units of 2^(−scale); exact where its exponent is at least −scale. -/
def scaled (scale : Nat) : FVal → Int
  | .fin neg m e => (if neg then -1 else 1) * ((m * 2 ^ (e + scale).toNat : Nat) : Int)
  | _ => 0

/-- Operation `op` of OP 0x0C, of two issues (R97): `new` gives the word stored from the operand's width, the old word, D and
B. -/
def AtomRow (mk : Issue → Instr) (op : Nat) (new : Nat → Nat → Nat → Nat → Nat) : Prop :=
  ∀ i c s s', Issuing i c s s' → LastSlot i s 2 →
    let f := fieldsOf i.word
    let x := threadAt s i
    let a := (x.reg f.a + (BitVec.ofNat 32 f.imm).signExtend 64).toNat
    let n := if f.fn.testBit 4 then 8 else 4
    let w := 8 * n
    f.op = 0x0C → f.fn % 16 = op →
    (a % n ≠ 0 → exec (mk i) s = .next (threadFault s' c i.jet i.thread 0x03)) ∧
    (a % n = 0 → ownRange i.jet a n = false → exec (mk i) s = .next (threadFault s' c i.jet i.thread 0x02)) ∧
    (a % n = 0 → ownRange i.jet a n = true → exec (mk i) s = .next (memFaults (jlmFaults i.faults) s' fun q =>
      let old := leNat (readPhys q a n)
      writesReg i (writePhys q a (toLe n (new w old ((x.reg f.d).toNat % 2 ^ w) ((x.reg f.b).toNat % 2 ^ w)))) f.d
        ((BitVec.ofNat w old).signExtend 64)))

/-- An operand of `count` elements at the address in register `r` is aligned, or lies in the jet's own memory (R101). -/
def operandAligned (x : Thread) (r size : Nat) : Bool := (x.reg r).toNat % size == 0
def operandInside (j : Nat) (x : Thread) (r count size : Nat) : Bool := ownRange j (x.reg r).toNat (count * size)

/-- One chunk of an elementwise vector instruction (R102): its sources are read, then its results are written; flags gather. -/
def vectorChunk (f : Fields) (x : Thread) (size dsize : Nat) (el : Nat → Nat → Nat → Word → Nat × Nat) (r : State × Nat)
    (ch : Nat) : State × Nat :=
  let per := 128 / Nat.max size dsize
  let elem (reg sz e : Nat) : Nat := leNat (readPhys r.1 ((x.reg reg).toNat + (ch * per + e) * sz) sz)
  let rs := (List.range (Nat.min per (f.count - ch * per))).map fun e =>
    el (elem f.a size e) (elem f.b size e) (elem f.d size e) (x.reg f.creg)
  (writePhys r.1 ((x.reg f.d).toNat + ch * per * dsize) (rs.map fun v => toLe dsize v.1).flatten,
   rs.foldl (fun fl v => fl ||| v.2) r.2)

/-- An elementwise row of OP `op` and FN `fn` (R83, R101, R102) that reads A and B as `ra` and `rb` say, with source and destination
element sizes, all its parts issued at once. -/
def VectorRow (mk : Issue → Instr) (op fn : Nat) (ra rb : Bool) (sizes : Fields → Nat × Nat)
    (el : Fields → Nat → Nat → Nat → Word → Nat × Nat) : Prop :=
  ∀ i c s s', Issuing i c s s' →
    let f := fieldsOf i.word
    let x := threadAt s i
    let (ss, ds) := sizes f
    let chunks := ceilDiv f.count (128 / Nat.max ss ds)
    let aligned := (!ra || operandAligned x f.a ss) && (!rb || operandAligned x f.b ss) && operandAligned x f.d ds
    let inside := (!ra || operandInside i.jet x f.a f.count ss) && (!rb || operandInside i.jet x f.b f.count ss) &&
      operandInside i.jet x f.d f.count ds
    f.op = op → f.fn = fn →
    (aligned = false → exec (mk i) s = .next (threadFault s' c i.jet i.thread 0x03)) ∧
    (aligned = true → inside = false → exec (mk i) s = .next (threadFault s' c i.jet i.thread 0x02)) ∧
    (aligned = true → inside = true → x.parts = 0 → x.latch = [] → 4 * chunks ≤ issueSlots s i →
      exec (mk i) s = .next (memFaults (jlmFaults i.faults) s' fun q =>
        let r := (List.range chunks).foldl (vectorChunk f x ss ds (el f)) (q, 0)
        goesOn i r.1 fun y => y.raiseFlags r.2))

/-- A reduction of OP 0x11 (R105): `g` gives the value of register C and the flags from the type and the elements at A. -/
def ReduceRow (mk : Issue → Instr) (fn : Nat) (g : Nat → List Nat → Word × Nat) : Prop :=
  ∀ i c s s', Issuing i c s s' →
    let f := fieldsOf i.word
    let x := threadAt s i
    let sz := velem f.vty
    f.op = 0x11 → f.fn = fn →
    (operandAligned x f.a sz = false → exec (mk i) s = .next (threadFault s' c i.jet i.thread 0x03)) ∧
    (operandAligned x f.a sz = true → operandInside i.jet x f.a f.count sz = false →
      exec (mk i) s = .next (threadFault s' c i.jet i.thread 0x02)) ∧
    (operandAligned x f.a sz = true → operandInside i.jet x f.a f.count sz = true → x.parts = 0 → x.latch = [] →
      ceilDiv f.count (128 / sz) ≤ issueSlots s i →
      exec (mk i) s = .next (memFaults (jlmFaults i.faults) s' fun q =>
        let r := g f.vty ((List.range f.count).map fun e => leNat (readPhys q ((x.reg f.a).toNat + e * sz) sz))
        goesOn i q fun y => (y.setReg f.creg r.1).raiseFlags r.2))

/-- A balanced binary tree of `2^d` leaves: the node over the leaves from `k · 2^d` on. -/
def sumTree {α : Type} (node : α → α → α) (leaf : Nat → α) : Nat → Nat → α
  | 0, k => leaf k
  | d + 1, k => node (sumTree node leaf d (2 * k)) (sumTree node leaf d (2 * k + 1))

/-- SEND (`port` false) or FEED of FN `fn`, blocking or not (`nb`): the checks of R111, R110, R108 and R53, then the credit of
R51. -/
def SendRow (mk : Issue → Instr) (fn : Nat) (nb port : Bool) : Prop :=
  ∀ i c s s', Issuing i c s s' → LastSlot i s 1 →
    let f := fieldsOf i.word
    let x := threadAt s i
    let j := i.jet
    let n := (x.reg f.a).toNat
    let a := (x.reg f.b).toNat
    let tag := if port then 0 else f.imm % 2 ^ 16
    let len := if port then 1 else f.imm / 2 ^ 16 % 16 + 1
    let k := getConn s' j n
    let usable := n < 64 ∧ connUsable k = true ∧ (k.dst / 4096 = 1 ↔ port = true)
    f.op = 0x18 → f.fn = fn →
    (¬ usable → exec (mk i) s = .next (threadFault s' c j i.thread 0x06)) ∧
    (usable → a % 64 ≠ 0 → exec (mk i) s = .next (threadFault s' c j i.thread 0x03)) ∧
    (usable → a % 64 = 0 → ownRange j a (64 * len) = false → exec (mk i) s = .next (threadFault s' c j i.thread 0x02)) ∧
    (usable → a % 64 = 0 → ownRange j a (64 * len) = true → k.largest < len →
      exec (mk i) s = .next (threadFault s' c j i.thread 0x07)) ∧
    (usable → a % 64 = 0 → ownRange j a (64 * len) = true → len ≤ k.largest → 0 < k.credits →
      exec (mk i) s = .next (memFaults (jlmFaults i.faults) s' fun q =>
        writesReg i (sendNow q j i.thread n (readPhys q a (64 * len)) tag) f.d 0)) ∧
    (usable → a % 64 = 0 → ownRange j a (64 * len) = true → len ≤ k.largest → k.credits = 0 → nb = true →
      exec (mk i) s = .next (writesReg i s' f.d 1)) ∧
    (usable → a % 64 = 0 → ownRange j a (64 * len) = true → len ≤ k.largest → k.credits = 0 → nb = false →
      exec (mk i) s = .next (memFaults (jlmFaults i.faults) s' fun q =>
        startWait (bump q (oRun + 0x20) 1) j i.thread .waitCredit
          (if port then .feed n (readPhys q a (64 * len)) f.d else .send n (readPhys q a (64 * len)) tag f.d)))

/-- RECV, or RECVS of a source (`named`), of FN `fn`, blocking or not (`nb`): the result word with the slot number and its address,
and the header word (R109). -/
def RecvRow (mk : Issue → Instr) (fn : Nat) (nb named : Bool) : Prop :=
  ∀ i c s s', Issuing i c s s' → LastSlot i s 1 →
    let f := fieldsOf i.word
    let y := threadAt s i
    let j := i.jet
    let ch := (y.reg f.a).toNat
    let src := if named then some (y.reg f.b).toNat else none
    let x := getChan s' j ch
    f.op = 0x18 → f.fn = fn →
    (256 ≤ ch ∨ x.st = .closed → exec (mk i) s = .next (threadFault s' c j i.thread 0x06)) ∧
    (ch < 256 → x.st ≠ .closed → named = false → x.any = false →
      exec (mk i) s = .next (threadFault s' c j i.thread 0x05)) ∧
    (∀ k m, ch < 256 → x.st ≠ .closed → named = true ∨ x.any = true → oldestMsg x src = some (k, m) →
      exec (mk i) s = .next (goesOn i (takeMsg s' j ch k) fun y =>
        (y.setReg f.d (BitVec.ofNat 64 (k * 2 ^ 8 + (x.base + k * x.largest * 64) * 2 ^ 16))).setReg (f.d + 1)
          (BitVec.ofNat 64 (m.src + ch * 2 ^ 16 + (m.len - 1) * 2 ^ 24 + m.tag * 2 ^ 28)))) ∧
    (ch < 256 → x.st ≠ .closed → named = true ∨ x.any = true → oldestMsg x src = none → nb = true →
      exec (mk i) s = .next (goesOn i s' fun y => (y.setReg f.d 2).setReg (f.d + 1) 0)) ∧
    (ch < 256 → x.st ≠ .closed → named = true ∨ x.any = true → oldestMsg x src = none → nb = false →
      exec (mk i) s = .next (startWait s' j i.thread .waitMsg (if named then .recvs ch (y.reg f.b).toNat f.d else .recv ch f.d)))

/-- SPAWN of FN `fn` (R39, R116): the lowest-numbered FREE thread of the jet starts as R38 says, or NO_THREAD is returned. -/
def SpawnRow (mk : Issue → Instr) (fn : Nat) (feed : Bool) : Prop :=
  ∀ i c s s', Issuing i c s s' → LastSlot i s 1 →
    let f := fieldsOf i.word
    let x := threadAt s i
    f.op = 0x1A → f.fn = fn →
    (∀ n < 256, (∀ m < n, (getThread s' i.jet m).st ≠ .free) → (getThread s' i.jet n).st = .free →
      ∃ y : Thread, y.st = .ready ∧ y.feed = feed ∧ y.pc = x.reg f.a ∧ y.preds = 0 ∧ y.flags = 0 ∧ y.wait = .none ∧
        (∀ r, y.reg r = if r = 1 then BitVec.ofNat 64 n else if r = 2 then BitVec.ofNat 64 i.jet
          else if r = 3 then x.reg f.b else 0) ∧
        exec (mk i) s = .next (writesReg i (updThread s' i.jet n fun _ => y) f.d (BitVec.ofNat 64 (256 * n)))) ∧
    ((∀ m < 256, (getThread s' i.jet m).st ≠ .free) → exec (mk i) s = .next (writesReg i s' f.d 5))

/-! The rows of the jet instruction set, each with the OP and FN values that it issues for. -/

/-- OP 0x01 to 0x03 (R88, R90). -/
def integerRows : List ((Issue → Instr) × (Nat → Nat → Bool)) :=
  [(.add, row2 0x01 0x02 0), (.sub, row2 0x01 0x02 1), (.andI, row2 0x01 0x02 2), (.orI, row2 0x01 0x02 3),
   (.xorI, row2 0x01 0x02 4), (.shl, row2 0x01 0x02 5), (.shr, row2 0x01 0x02 6), (.sra, row2 0x01 0x02 7),
   (.mul, row2 0x01 0x02 8), (.mulhu, row2 0x01 0x02 9), (.div, row2 0x01 0x02 10), (.divu, row2 0x01 0x02 11),
   (.rem, row2 0x01 0x02 12), (.remu, row2 0x01 0x02 13), (.min, row2 0x01 0x02 14), (.max, row2 0x01 0x02 15),
   (.minu, row2 0x01 0x02 16), (.maxu, row2 0x01 0x02 17), (.clz, row2 0x01 0x02 18), (.popc, row2 0x01 0x02 19),
   (.liz, row1 0x03 0), (.lih, row1 0x03 1)]

/-- OP 0x04 to 0x06 (R91, R92). -/
def predicateRows : List ((Issue → Instr) × (Nat → Nat → Bool)) :=
  [(.eqI, row2 0x04 0x05 0), (.neI, row2 0x04 0x05 1), (.ltI, row2 0x04 0x05 2), (.ltu, row2 0x04 0x05 3),
   (.geI, row2 0x04 0x05 4), (.geu, row2 0x04 0x05 5), (.feq, row1 0x04 16), (.flt, row1 0x04 17),
   (.fle, row1 0x04 18), (.funCmp, row1 0x04 19), (.pand, row1 0x06 0), (.por, row1 0x06 1), (.pxor, row1 0x06 2),
   (.pnot, row1 0x06 3), (.pset, row1 0x06 4), (.pget, row1 0x06 5)]

/-- OP 0x07 (R93). -/
def binary32Rows : List ((Issue → Instr) × (Nat → Nat → Bool)) :=
  [(.fadd, row1 0x07 0), (.fsub, row1 0x07 1), (.fmul, row1 0x07 2), (.ffma, row1 0x07 3), (.fdiv, row1 0x07 4),
   (.fsqrt, row1 0x07 5), (.fmin, row1 0x07 6), (.fmax, row1 0x07 7), (.fcvti, row1 0x07 8), (.fcvtf, row1 0x07 9),
   (.fabs, row1 0x07 10), (.fneg, row1 0x07 11)]

/-- OP 0x08 and 0x09 (R95). -/
def controlRows : List ((Issue → Instr) × (Nat → Nat → Bool)) :=
  [(.br, fun o n => o == 0x08 && n ≤ 1), (.jal, row1 0x09 0)]

/-- OP 0x0A to 0x0F (R96 to R100). -/
def memoryRows : List ((Issue → Instr) × (Nat → Nat → Bool)) :=
  [(.ld, fun o _ => o == 0x0A), (.st, fun o _ => o == 0x0B), (.aadd, fun o n => o == 0x0C && n % 16 == 0),
   (.aswap, fun o n => o == 0x0C && n % 16 == 1), (.acas, fun o n => o == 0x0C && n % 16 == 2),
   (.amin, fun o n => o == 0x0C && n % 16 == 3), (.amax, fun o n => o == 0x0C && n % 16 == 4),
   (.aminu, fun o n => o == 0x0C && n % 16 == 5), (.amaxu, fun o n => o == 0x0C && n % 16 == 6),
   (.aand, fun o n => o == 0x0C && n % 16 == 7), (.aor, fun o n => o == 0x0C && n % 16 == 8), (.fence, row1 0x0D 0),
   (.iflush, row1 0x0D 1), (.bulk, fun o _ => o == 0x0E), (.wop, fun o _ => o == 0x0F)]

/-- OP 0x10 to 0x12 (R104 to R107). -/
def vectorRows : List ((Issue → Instr) × (Nat → Nat → Bool)) :=
  [(.vadd, row1 0x10 0), (.vsub, row1 0x10 1), (.vmul, row1 0x10 2), (.vfma, row1 0x10 3), (.vaxpy, row1 0x10 4),
   (.vmax, row1 0x10 5), (.vmin, row1 0x10 6), (.vcopy, row1 0x10 7), (.vfill, row1 0x10 8), (.vsum, row1 0x11 0),
   (.vamax, row1 0x11 1), (.vchk, row1 0x11 2), (.vztest, row1 0x11 3), (.vcvt, fun o _ => o == 0x12)]

/-- OP 0x18 and 0x19 (R108, R113). -/
def messageRows : List ((Issue → Instr) × (Nat → Nat → Bool)) :=
  [(.chopen, row1 0x18 0), (.chclose, row1 0x18 1), (.conn, row1 0x18 2), (.disc, row1 0x18 3), (.send, row1 0x18 4),
   (.sendNb, row1 0x18 5), (.feed, row1 0x18 6), (.feedNb, row1 0x18 7), (.recv, row1 0x18 8),
   (.recvNb, row1 0x18 9), (.recvs, row1 0x18 10), (.recvsNb, row1 0x18 11), (.msgfree, row1 0x18 12),
   (.barinit, row1 0x19 0), (.bararr, row1 0x19 1), (.barwait, row1 0x19 2)]

/-- OP 0x1A and 0x1B (R116, R118). -/
def threadRows : List ((Issue → Instr) × (Nat → Nat → Bool)) :=
  [(.spawnNormal, row1 0x1A 0), (.spawnFeed, row1 0x1A 1), (.exitThread, row1 0x1A 2), (.getst, row1 0x1A 3),
   (.clrflg, row1 0x1A 4), (.rdtime, row1 0x1B 0), (.poison, row1 0x1B 2)]

/-- Every instruction of a jet. -/
def jetRows : List ((Issue → Instr) × (Nat → Nat → Bool)) :=
  integerRows ++ (predicateRows ++ (binary32Rows ++ (controlRows ++ (memoryRows ++ (vectorRows ++ (messageRows ++ threadRows))))))

/-- A READY thread in a running context comes to issue at an aligned address that it can fetch from, and fetches the word
(R35, R66, R80); `sf` is the state after the issue slot and the fetch have been taken, which find nothing wrong in memory. -/
structure Fetching (i : Issue) (c : Nat) (s sf : State) : Prop where
  can : canIssue s i = some c
  aligned : (threadAt s i).pc.toNat % 8 = 0
  reach : fetchable s c (threadAt s i).pc.toNat = true
  fetch : fetched (takeSlot s i.jet i.thread) c i.jet (threadAt s i).pc.toNat i.word = some sf
  sound : farFaults i.faults = []

/-- Packet `x`, of kind `kind`, is at place `k` of those that have arrived, whole and the first of its flow (R422). -/
def FirstOfFlow (s : State) (k kind : Nat) (x : Pkt) : Prop :=
  (∃ src, s.links.inbox[k]? = some (src, x)) ∧ (∀ e ∈ s.links.inbox.take k, flowOf e.2 ≠ flowOf x) ∧ x.left = 0 ∧
    (hdrOf x.hdr).kind = kind

/-- Packet `k` has been taken; it has been rejected for its job (R418). -/
def unqueued (s : State) (k : Nat) : State := { s with links := { s.links with inbox := s.links.inbox.eraseIdx k } }
def rejected (s : State) (k job : Nat) : State := rejectPacket (unqueued s k) job

end Sys2Proof.Safety
end

