-- ==== Sys2Proof/Certificates/Slice0/Obligations.lean ====
section
/-!
DEFINITION. The statements for the provers.
-/

section
open Sys2Proof Sys2Proof.Machine Sys2Proof.Safety

/-- What the reads of a step find wrong is corrected, and its events stop nothing: the step goes on from `q` (R343, R345, R354). -/
def Claim.Reads (fs : List MemFault) (s q : State) : Prop := memChecks fs s = (true, q) ∧ undisturbed s q = true

/-- A read is uncorrectable: its data are not used, and the step leaves `q` (R343, R345, R354). -/
def Claim.ReadFails (fs : List MemFault) (s q : State) : Prop := memChecks fs s = (false, q)

/-! The machine: its steps, its reset and its memory. -/

/-- A step takes the command at the front of the queue and runs it with the queue's rest. -/
def Obligations.StepRunsFrontCommand : Prop :=
  ∀ s c rest, s.pending = c :: rest → step s = exec c { s with pending := rest }

/-- R24, R497, R572, and the model's choice of log entry 2: with nothing commanded, a step is one tick of the 50 MHz timebase. Every 50
ticks add a microsecond to each active reason, and every 50,000,000 a second to LDG_OPSEC; within reset the ticks alone are
counted. -/
def Obligations.IdleStepIsOneTick : Prop :=
  ∀ s, s.pending = [] → ∃ t, step s = .next t ∧ t.ticks = s.ticks + 1 ∧ t.pending = [] ∧ t.mem = s.mem ∧ t.jets = s.jets ∧
    t.boot = s.boot ∧ t.recov = s.recov ∧ t.basins = s.basins ∧ t.spouts = s.spouts ∧ t.host = s.host ∧ t.sluice = s.sluice ∧ t.links = s.links ∧
    (s.boot.inReset = true → t = { s with ticks := s.ticks + 1 }) ∧
    (s.boot.inReset = false →
      t.ledger.opsec = (if (s.ticks + 1) % 50000000 = 0 then Nat.min (s.ledger.opsec + 1) 0xFFFFFFFF else s.ledger.opsec) ∧
      (∀ n < 14, counterOf t (oPwr + 0x100 + 8 * n) = (counterOf s (oPwr + 0x100 + 8 * n) +
        if (s.ticks + 1) % 50 = 0 ∧ bitB t.power.active n = true then 1 else 0) % 2 ^ 64) ∧
      (∀ n < 14, (bitB t.power.active n = true ↔ (reasonNow s n).isSome = true)))

/-- Every command completes, in every state: no fault and no refusal ends a run. -/
def Obligations.EveryStepAnswersANextState : Prop := ∀ s, Completes s

/-- Reset leaves every control register at its table's reset value: those listed here, and zero at every other offset. -/
def Claim.ResetRegisterValues : Prop :=
  (∀ e ∈ [(0x004, 0x0B0B), (0x008, 0xFFFF00), (0x010, 0x3C20), (0x10C, 0x64000A),
      (0x20000, 0x3F00), (0x2000C, 0x708), (0x20010, 0x1C20064), (0x20014, 0x58BFC5),
      (0x20020, 0xA3E80), (0x20024, 0xA0898), (0x20028, 0x140708), (0x2002C, 0x1407D0), (0x20030, 0x140078),
      (0x20034, 0x320D48), (0x20038, 0x3200FA), (0x20040, 0x28), (0x20044, 0x0A), (0x30024, 0x0A),
      (0x100008, 0x0A), (0x110008, 0x0A), (0x120008, 0x0A), (0x130008, 0x0A), (0x200048, 0x0A),
      (0x30003C, 0x0A), (0x300040, 4), (0x30103C, 0x0A), (0x301040, 4), (0x30203C, 0x0A), (0x302040, 4),
      (0x30303C, 0x0A), (0x303040, 4), (0x30403C, 0x0A), (0x304040, 4), (0x30503C, 0x0A), (0x305040, 4),
      (0x310008, 0x1000040), (0x31000C, 0x20), (0x4000E8, 0x1000), (0x4000EC, 0x1000), (0x4000F0, 0x1000),
      (0x4000F4, 0x1000), (0x4000F8, 0x1000), (0x4000FC, 0x1000), (0x410020, 1), (0x410024, 4), (0x410028, 0x10),
      (0x430008, 0x103C10), (0x500808, 0x1E), (0x50080C, 0x64)],
    (readCtl State.reset 4 e.1).1 = e.2) ∧
  (∀ x, x % 4 = 0 → SMap.get 0 resetRegs x = 0 → x ∉ [0x004, 0x008, 0x010, 0x20000, 0x30024, 0x300040, 0x301040, 0x302040, 0x303040,
      0x304040, 0x305040, 0x4000E8, 0x4000EC, 0x4000F0, 0x4000F4, 0x4000F8, 0x4000FC] → (readCtl State.reset 4 x).1 = 0)

/-- What stands in the units after reset: threads FREE, channels CLOSED, banks EMPTY, contexts FREE, ports DISABLED, the handler
NORMAL, the boot in ROM with no slot committed, and no command waits. -/
def Claim.ResetUnits : Prop :=
  (∀ j u, (getThread State.reset j u).st = .free) ∧ (∀ j c, (getChan State.reset j c).st = .closed) ∧
  (∀ b, (getBasin State.reset b).bank0.st = .empty ∧ (getBasin State.reset b).bank1.st = .empty ∧
    (getBasin State.reset b).queue = [] ∧ (getBasin State.reset b).lease = none) ∧
  (∀ τ, (getTerrace State.reset τ).lease = none) ∧ (∀ n, (getSlice State.reset n).lease = none) ∧
  (∀ c, (getCtx State.reset c).st = .free) ∧ (∀ p, (getLink State.reset p).st = .disabled) ∧
  State.reset.recov.st = .normal ∧ State.reset.recov.epoch = 0 ∧ State.reset.boot.st = .rom ∧
  State.reset.boot.locked = false ∧ State.reset.boot.codeA = 0x0B ∧ State.reset.boot.codeB = 0x0B ∧
  State.reset.ticks = 0 ∧ State.reset.pending = [] ∧ State.reset.out = []

/-- The memory of the reset state is in its canonical form. -/
def Claim.ResetMemoryCanonical : Prop := MemCanonical State.reset

/-- Every step keeps the memory in its canonical form, whatever it runs. -/
def Obligations.StepKeepsMemoryCanonical : Prop := ∀ s t, MemCanonical s → step s = .next t → MemCanonical t

/-! Jets: scalar instructions. -/

/-- R34: s0 reads as zero and ignores writes, every other register reads what was last written to it, and a write leaves the
other registers alone. -/
def Claim.ScalarRegisterFile : Prop :=
  ∀ (x : Thread) (r q : Nat) (v : Word),
    x.reg 0 = 0 ∧ x.setReg 0 v = x ∧ (r ≠ 0 → (x.setReg r v).reg r = v) ∧ (q ≠ r → (x.setReg r v).reg q = x.reg q)

/-- R88: the result of every integer instruction but the divisions; nothing else changes (`writesReg`). -/
def Claim.IntegerResults : Prop :=
  IntegerRow .add 0x000 1 (fun a b v => v = a + b) ∧
  IntegerRow .sub 0x001 1 (fun a b v => v = a - b) ∧
  IntegerRow .andI 0x002 1 (fun a b v => v = a &&& b) ∧
  IntegerRow .orI 0x003 1 (fun a b v => v = a ||| b) ∧
  IntegerRow .xorI 0x004 1 (fun a b v => v = a ^^^ b) ∧
  IntegerRow .shl 0x005 1 (fun a b v => v.toNat = a.toNat * 2 ^ (b.toNat % 64) % 2 ^ 64) ∧
  IntegerRow .shr 0x006 1 (fun a b v => v.toNat = a.toNat / 2 ^ (b.toNat % 64)) ∧
  IntegerRow .sra 0x007 1 (fun a b v => v.toInt = a.toInt / 2 ^ (b.toNat % 64)) ∧
  IntegerRow .mul 0x008 2 (fun a b v => v.toNat = a.toNat * b.toNat % 2 ^ 64) ∧
  IntegerRow .mulhu 0x009 2 (fun a b v => v.toNat = a.toNat * b.toNat / 2 ^ 64) ∧
  IntegerRow .min 0x00E 1 (fun a b v => v = if a.toInt ≤ b.toInt then a else b) ∧
  IntegerRow .max 0x00F 1 (fun a b v => v = if b.toInt ≤ a.toInt then a else b) ∧
  IntegerRow .minu 0x010 1 (fun a b v => v = if a.toNat ≤ b.toNat then a else b) ∧
  IntegerRow .maxu 0x011 1 (fun a b v => v = if b.toNat ≤ a.toNat then a else b) ∧
  IntegerRow .clz 0x012 1 (fun a _ v =>
    v.toNat ≤ 64 ∧ (∀ k, 64 - v.toNat ≤ k → a.getLsbD k = false) ∧ (v.toNat < 64 → a.getLsbD (63 - v.toNat) = true)) ∧
  IntegerRow .popc 0x013 1 (fun a _ v => v.toNat = (List.range 64).countP fun k => a.getLsbD k)

/-- R88, R89: quotients and remainders, with the divisor 0 and the division of −2^63 by −1. -/
def Claim.IntegerDivision : Prop :=
  IntegerRow .div 0x00A 16 (fun a b v =>
    if b = 0 then v = BitVec.ofNat 64 0xFFFFFFFFFFFFFFFF
    else if a.toInt = -2 ^ 63 ∧ b.toInt = -1 then v.toInt = -2 ^ 63
    else v.toInt = a.toInt.tdiv b.toInt) ∧
  IntegerRow .divu 0x00B 16 (fun a b v =>
    if b = 0 then v = BitVec.ofNat 64 0xFFFFFFFFFFFFFFFF else v.toNat = a.toNat / b.toNat) ∧
  IntegerRow .rem 0x00C 16 (fun a b v =>
    if b = 0 then v = a else if a.toInt = -2 ^ 63 ∧ b.toInt = -1 then v = 0 else v.toInt = a.toInt.tmod b.toInt) ∧
  IntegerRow .remu 0x00D 16 (fun a b v => if b = 0 then v = a else v.toNat = a.toNat % b.toNat)

/-- R90, R91 (integers), R92: load immediate, comparison and predicate logic. -/
def Claim.ImmediatesAndPredicates : Prop :=
  ThreadRow .liz 0x03 0 1 (fun f x => x.setReg f.d (BitVec.ofNat 64 f.imm)) ∧
  ThreadRow .lih 0x03 1 1 (fun f x => x.setReg f.d (BitVec.ofNat 32 f.imm ++ (x.reg f.d).setWidth 32)) ∧
  CompareRow .eqI 0 (fun a b => a == b) ∧
  CompareRow .neI 1 (fun a b => a != b) ∧
  CompareRow .ltI 2 (fun a b => a.slt b) ∧
  CompareRow .ltu 3 (fun a b => a.ult b) ∧
  CompareRow .geI 4 (fun a b => b.sle a) ∧
  CompareRow .geu 5 (fun a b => b.ule a) ∧
  ThreadRow .pand 0x06 0 1 (fun f x => x.setPred f.d (x.pred f.a && x.pred f.b)) ∧
  ThreadRow .por 0x06 1 1 (fun f x => x.setPred f.d (x.pred f.a || x.pred f.b)) ∧
  ThreadRow .pxor 0x06 2 1 (fun f x => x.setPred f.d (xor (x.pred f.a) (x.pred f.b))) ∧
  ThreadRow .pnot 0x06 3 1 (fun f x => x.setPred f.d (!x.pred f.a)) ∧
  ThreadRow .pset 0x06 4 1 (fun f x => x.setPred f.d ((x.reg f.a).getLsbD 0)) ∧
  ThreadRow .pget 0x06 5 1 (fun f x => x.setReg f.d (x.preds.setWidth 64))

/-- R91: the binary32 comparisons by the encodings of their operands, with no flag raised. -/
def Claim.Binary32Comparisons : Prop :=
  ThreadRow .feq 0x04 16 1 (fun f x => let a := low32 (x.reg f.a); let b := low32 (x.reg f.b)
    x.setPred f.d (!nan32 a && !nan32 b && decide (key32 a = key32 b))) ∧
  ThreadRow .flt 0x04 17 1 (fun f x => let a := low32 (x.reg f.a); let b := low32 (x.reg f.b)
    x.setPred f.d (!nan32 a && !nan32 b && decide (key32 a < key32 b))) ∧
  ThreadRow .fle 0x04 18 1 (fun f x => let a := low32 (x.reg f.a); let b := low32 (x.reg f.b)
    x.setPred f.d (!nan32 a && !nan32 b && decide (key32 a ≤ key32 b))) ∧
  ThreadRow .funCmp 0x04 19 1 (fun f x => let a := low32 (x.reg f.a); let b := low32 (x.reg f.b)
    x.setPred f.d (nan32 a || nan32 b))

/-- R93: sums, products, quotients and roots are the exact result rounded once to nearest even, with their flags; the
underflow and the NV corners that IEEE 754 leaves open are free (log entry 15). -/
def Claim.Binary32Arithmetic : Prop :=
  ThreadRow .fadd 0x07 0 1 (fun f x => let a := low32 (x.reg f.a); let b := low32 (x.reg f.b)
    writesF32 f [a, b] ((f32.decode a).add (f32.decode b)) 0 x) ∧
  ThreadRow .fsub 0x07 1 1 (fun f x => let a := low32 (x.reg f.a); let b := low32 (x.reg f.b)
    writesF32 f [a, b] ((f32.decode a).add (f32.decode b).neg) 0 x) ∧
  ThreadRow .fmul 0x07 2 1 (fun f x => let a := low32 (x.reg f.a); let b := low32 (x.reg f.b)
    writesF32 f [a, b] ((f32.decode a).mul (f32.decode b)) 0 x) ∧
  ThreadRow .ffma 0x07 3 1 (fun f x => let d := low32 (x.reg f.d); let a := low32 (x.reg f.a); let b := low32 (x.reg f.b)
    let p := (f32.decode a).mul (f32.decode b)
    writesF32 f [d, a, b] ((f32.decode d).add p)
      (if nan32 d && isNaN p && !nan32 a && !nan32 b && Config.fmaNanInvalid then fNV else 0) x) ∧
  ThreadRow .fdiv 0x07 4 12 (fun f x => let a := low32 (x.reg f.a); let b := low32 (x.reg f.b)
    if (f32.decode a).isFin && !(f32.decode a).isZero && (f32.decode b).isZero then
      (x.setReg f.d (BitVec.ofNat 64 (if (a.testBit 31 != b.testBit 31) then 0xFF800000 else 0x7F800000))).raiseFlags fDZ
    else writesF32 f [a, b] ((f32.decode a).div (f32.decode b)) 0 x) ∧
  ThreadRow .fsqrt 0x07 5 12 (fun f x => let a := low32 (x.reg f.a)
    let v := (f32.decode a).sqrt
    (x.setReg f.d (BitVec.ofNat 64 (f32.ieeeRound v))).raiseFlags (((roundFlags f32 v).2 ||| invalid f32 [a] v) &&& (fNV ||| fNX)))

/-- R93, R94: the lesser and the greater with −0 below +0 and with NaN operands, conversions from and to a signed 64-bit
integer, and the sign operations, with their flags. -/
def Claim.Binary32Selections : Prop :=
  ThreadRow .fmin 0x07 6 1 (fun f x => let a := low32 (x.reg f.a); let b := low32 (x.reg f.b)
    let r := if nan32 a && nan32 b then 0x7FC00000 else if nan32 a then b else if nan32 b then a
      else if key32 a < key32 b ∨ (key32 a = key32 b ∧ a.testBit 31) then a else b
    (x.setReg f.d (BitVec.ofNat 64 r)).raiseFlags (if snan32 a || snan32 b then fNV else 0)) ∧
  ThreadRow .fmax 0x07 7 1 (fun f x => let a := low32 (x.reg f.a); let b := low32 (x.reg f.b)
    let r := if nan32 a && nan32 b then 0x7FC00000 else if nan32 a then b else if nan32 b then a
      else if key32 a < key32 b ∨ (key32 a = key32 b ∧ a.testBit 31) then b else a
    (x.setReg f.d (BitVec.ofNat 64 r)).raiseFlags (if snan32 a || snan32 b then fNV else 0)) ∧
  ThreadRow .fcvti 0x07 8 1 (fun f x =>
    let r : Int × Nat := match f32.decode (low32 (x.reg f.a)) with
      | .nan => (0, fNV)
      | .inf n => (if n then -2 ^ 63 else 2 ^ 63 - 1, fNV)
      | .fin n m e =>
        let z := (roundInt .rne n m e).1
        if z < -2 ^ 63 then (-2 ^ 63, fNV) else if 2 ^ 63 ≤ z then (2 ^ 63 - 1, fNV)
        else (z, if (roundInt .rne n m e).2 then fNX else 0)
    (x.setReg f.d (BitVec.ofInt 64 r.1)).raiseFlags r.2) ∧
  ThreadRow .fcvtf 0x07 9 1 (fun f x =>
    let z := (x.reg f.a).toInt
    let v : FVal := .fin (decide (z < 0)) z.natAbs 0
    (x.setReg f.d (BitVec.ofNat 64 (f32.ieeeRound v))).raiseFlags (roundFlags f32 v).2) ∧
  ThreadRow .fabs 0x07 10 1 (fun f x => x.setReg f.d ((x.reg f.a) &&& BitVec.ofNat 64 0x7FFFFFFF)) ∧
  ThreadRow .fneg 0x07 11 1 (fun f x =>
    x.setReg f.d (((x.reg f.a) &&& BitVec.ofNat 64 0xFFFFFFFF) ^^^ BitVec.ofNat 64 0x80000000))

/-- R93, R103: a finite exact value that rounds to a finite encoding goes to a nearest one, and of two equally near ones to the
even one; it overflows to an infinity exactly from halfway between the largest finite value and the next power of two; NX is
raised exactly when the result is not the value, OF exactly when it is an infinity. -/
def Obligations.RoundingIsNearestEven : Prop :=
  ∀ f ∈ [f32, bf16, f16], ∀ (neg : Bool) (m : Nat) (e : Int) (scale n : Nat), 0 ≤ e + scale → f.bias + f.fb ≤ scale + 1 →
    let v : FVal := .fin neg m e
    let r := f.ieeeRound v
    let val (w : FVal) : Int := scaled scale w
    let fl := (roundFlags f v).2
    ((f.decode r).isFin = true → (f.decode n).isFin = true →
      (val (f.decode r) - val v).natAbs ≤ (val (f.decode n) - val v).natAbs ∧
      ((val (f.decode r) - val v).natAbs = (val (f.decode n) - val v).natAbs → val (f.decode n) ≠ val (f.decode r) →
        r % 2 = 0)) ∧
    ((f.decode r).isFin = false ↔ val (f.decode f.maxMag) + val (.fin false 1 (f.bias + 1)) ≤ 2 * (val v).natAbs) ∧
    (bitB fl 4 = true ↔ ¬ ((f.decode r).isFin = true ∧ val (f.decode r) = val v)) ∧
    (bitB fl 2 = true ↔ (f.decode r).isFin = false)

/-! Jets: control flow, and what holds of every instruction. -/

/-- R95: BR and JAL, with the link written where the form has one; the program counter takes the target whatever its alignment. -/
def Claim.BranchAndJump : Prop :=
  ∀ i c s s', Issuing i c s s' → LastSlot i s 1 →
    let f := fieldsOf i.word
    let x := threadAt s i
    let imm : Word := (BitVec.ofNat 32 f.imm).signExtend 64
    let goes (g : Thread → Thread) (pc : Word) : State :=
      updThread s' i.jet i.thread fun x => { g x with pc := pc, parts := 0, latch := [] }
    (f.op = 0x08 → f.fn = 0 → exec (.br i) s = .next (goes id (x.pc + 8 * imm))) ∧
    (f.op = 0x08 → f.fn = 1 → exec (.br i) s = .next (goes (fun x => x.setReg f.d (x.pc + 8)) (x.pc + 8 * imm))) ∧
    (f.op = 0x09 → f.fn = 0 → exec (.jal i) s = .next (goes (fun x => x.setReg f.d (x.pc + 8)) (x.reg f.a + imm)))

/-- R36: an issue slot of a jet goes to a READY thread: where both classes have one, a FEED thread gets three of four consecutive
slots and a NORMAL thread the fourth; within the class, the lowest-numbered one above the thread that last issued in it, wrapping
from 255 to 0. -/
def Claim.IssueSlotsByClass : Prop :=
  (∀ s j t, SMap.wf {} s.jets.threads = true → nextThread s j = some t →
    let q := getSched s j
    let x := getThread s j t
    let last := if x.feed then q.lastFeed else q.lastNormal
    let rivals (feed : Bool) (u : Nat) : Prop := u < 256 ∧ (getThread s j u).st = .ready ∧ (getThread s j u).feed = feed
    t < 256 ∧ x.st = .ready ∧
    ((∃ u, rivals true u) → (∃ u, rivals false u) → (x.feed = false ↔ q.turn = 3)) ∧
    (last < t → ∀ u, rivals x.feed u → u ≤ last ∨ t ≤ u) ∧
    (t ≤ last → ∀ u, rivals x.feed u → t ≤ u ∧ u ≤ last) ∧
    (let r := getSched (takeSlot s j t) j
     (if x.feed then r.lastFeed = t ∧ r.lastNormal = q.lastNormal else r.lastNormal = t ∧ r.lastFeed = q.lastFeed) ∧
     ((∃ u, rivals true u) → (∃ u, rivals false u) → r.turn = (q.turn + 1) % 4) ∧
     (¬ ((∃ u, rivals true u) ∧ (∃ u, rivals false u)) → r.turn = q.turn))) ∧
  (∀ s i c, canIssue s i = some c → nextThread s i.jet = some i.thread)

/-- R78: a guarded-off instruction of any row only advances its thread. -/
def Claim.GuardedOffOnlyAdvances : Prop :=
  ∀ r ∈ jetRows, ∀ i c s sf, Fetching i c s sf → legal (fieldsOf i.word) = true →
    r.2 (fieldsOf i.word).op (fieldsOf i.word).fn = true → guardOn (threadAt s i) (fieldsOf i.word) = false →
    exec (r.1 i) s = .next (goesOn i sf id)

/-- R79, R80: a reserved word faults with ILLEGAL_OP whether or not it is guarded off, an unaligned program counter faults with
ALIGN and a fetch that R80 forbids with ACCESS, on every row. -/
def Claim.FetchAndWordFaults : Prop :=
  ∀ r ∈ jetRows, ∀ i c s,
    (∀ sf, Fetching i c s sf → legal (fieldsOf i.word) = false →
      exec (r.1 i) s = .next (threadFault sf c i.jet i.thread 0x01)) ∧
    (canIssue s i = some c → (threadAt s i).pc.toNat % 8 ≠ 0 →
      exec (r.1 i) s = .next (threadFault (takeSlot s i.jet i.thread) c i.jet i.thread 0x03)) ∧
    (canIssue s i = some c → (threadAt s i).pc.toNat % 8 = 0 → fetchable s c (threadAt s i).pc.toNat = false →
      let q := takeSlot s i.jet i.thread
      exec (r.1 i) s = .next (threadFault (if reachable q c (threadAt s i).pc.toNat 8 false = true then q else cisRefused q)
        c i.jet i.thread 0x02))

/-- R74, R73: an operand that fails parity in two consecutive executions faults with DATA_PARITY, on every row, and its jet is one that
R71 substitutes. -/
def Claim.SecondParityErrorFaults : Prop :=
  ∀ r ∈ jetRows, ∀ i c s sf, Fetching i c s sf → legal (fieldsOf i.word) = true →
    r.2 (fieldsOf i.word).op (fieldsOf i.word).fn = true → guardOn (threadAt s i) (fieldsOf i.word) = true →
    2 ≤ i.parity →
    let q := fetchReported i sf
    exec (r.1 i) s = .next (threadFault { q with jets := { q.jets with failed := addIds q.jets.failed [i.jet] } }
      c i.jet i.thread 0x09)

/-- R85, R87: with fewer issue slots than R87 gives it, a multi-issue scalar instruction has only its completed parts counted; its
program counter stays, and it writes no register; a vector instruction stopped between parts goes on with the next one. -/
def Claim.PartsBeforeTheLast : Prop :=
  (∀ r ∈ [(Instr.mul, row2 1 2 8, 2), (Instr.mulhu, row2 1 2 9, 2), (Instr.div, row2 1 2 10, 16), (Instr.divu, row2 1 2 11, 16),
      (Instr.rem, row2 1 2 12, 16), (Instr.remu, row2 1 2 13, 16), (Instr.fdiv, row1 7 4, 12), (Instr.fsqrt, row1 7 5, 12)],
    ∀ i c s s', Issuing i c s s' → r.2.1 (fieldsOf i.word).op (fieldsOf i.word).fn = true → ¬ LastSlot i s r.2.2 →
      exec (r.1 i) s = .next (updThread s' i.jet i.thread fun x => { x with parts := x.parts + issueSlots s i })) ∧
  (∀ (p : VPlan) j t f total m n s, p.run j t f total (m + n) s = p.run j t f total n (p.run j t f total m s))

/-- R80: a fetch changes the jet's instruction cache, the memory and counters of the write-back cache and nothing else; after it
the jet holds the word, and every other word that it held unless its cache of 4,096 words was full. -/
def Claim.FetchFrame : Prop :=
  ∀ s sf c j pc w, fetched s c j pc w = some sf →
    sf = { s with jets := { s.jets with icache := sf.jets.icache }, mem := sf.mem, ctr := sf.ctr } ∧
    SMap.get none sf.jets.icache (icKey j pc) = some w ∧
    (∀ k, k ≠ icKey j pc → SMap.get none sf.jets.icache k ≠ SMap.get none s.jets.icache k →
      k / 2 ^ 48 = j ∧ SMap.get none sf.jets.icache k = none) ∧
    ((s.jets.icache.filter fun e => e.1 / 2 ^ 48 == j && e.1 != icKey j pc).length < 4096 →
      ∀ k, k ≠ icKey j pc → SMap.get none sf.jets.icache k = SMap.get none s.jets.icache k)

/-- R73, R541, R606: a thread fault sets THREAD_FAULT, writes the event record with the code, the logical jet and the thread, and
aborts the kernel: the context is HALTED with ABORTED, its commands are gone, and its jets hold no thread and no channel. -/
def Claim.ThreadFaultAbortsTheKernel : Prop :=
  ∀ s c j t code, code < 256 → j < 4096 → t < 256 →
    let x := getCtx s c
    let addr := x.evqBase + 64 * (x.evqTail.toNat % 2 ^ x.evqLog2)
    x.st = .running → x.window = none → x.suspending = false → (x.evqTail - x.evqHead).toNat < 2 ^ x.evqLog2 →
    inWindow s c addr 64 = true → ctxOfJet s j = some c →
    let r := threadFault s c j t code
    bitB (regOf r (oJet + 0x50)) 0 = true ∧
    (getCtx r c).st = .halted ∧ (getCtx r c).haltReason = 1 ∧ (getCtx r c).cmds = [] ∧ (getCtx r c).saved = false ∧
    (∀ q u, holdsJet s c q = true → u < 256 → getThread r q u = {} ∧ getChan r q u = {}) ∧
    Out.hostWrite ((portOf s c).getD 0) addr
      (toLe 2 0x04 ++ toLe 2 c ++ toLe 4 0xFFFFFFFF ++ slice (toLe 1 code ++ [0] ++ toLe 2 j ++ toLe 1 t) 0 56) ∈ r.out

/-! Jets: memory. -/

/-- R339: bytes written to physical memory read back, and every other byte of memory reads as before. -/
def Claim.MemoryReadsBackWrites : Prop :=
  ∀ (s : State) (a b : Nat) (bs : List Byte),
    byteAt (writePhys s a bs) b = if h : a ≤ b ∧ b < a + bs.length then bs[b - a]'(by omega) else byteAt s b

/-- R96, R41, R42: LD and ST. An unaligned address faults with ALIGN and an address outside R41's regions with ACCESS; jet-local
accesses complete at once, with the SECDED outcome of the read and the stored bytes at the address A + IMM; accesses to cistern or
HBM wait in WAIT_MEM, and their flits are counted (R45; log entry 125). -/
def Claim.LoadsAndStores : Prop :=
  ∀ i c s s', Issuing i c s s' → LastSlot i s 1 →
    let f := fieldsOf i.word
    let x := threadAt s i
    let a := (x.reg f.a + (BitVec.ofNat 32 f.imm).signExtend 64).toNat
    let n := 2 ^ (f.fn % 4)
    let own := jlmBase i.jet ≤ a ∧ a + n ≤ jlmBase i.jet + 0x80000
    let value (v : Nat) : Word := if bitB f.fn 2 then (BitVec.ofNat (8 * n) v).signExtend 64 else BitVec.ofNat 64 v
    (f.op = 0x0A → a % n ≠ 0 → exec (.ld i) s = .next (threadFault s' c i.jet i.thread 0x03)) ∧
    (f.op = 0x0A → a % n = 0 → own → exec (.ld i) s =
      .next (memFaults (jlmFaults i.faults) s' fun q => writesReg i q f.d (value (leNat (readPhys q a n))))) ∧
    (∀ l, f.op = 0x0A → a % n = 0 → ¬ own → external s' c a false = some l →
      exec (.ld i) s = .next (startWait (memFlits s' 1 1) i.jet i.thread .waitMem (.load l n (bitB f.fn 2) f.d))) ∧
    (f.op = 0x0A → a % n = 0 → ¬ own → external s' c a false = none →
      exec (.ld i) s = .next (accessFault s' c i.jet i.thread a n false)) ∧
    (f.op = 0x0B → a % n ≠ 0 → exec (.st i) s = .next (threadFault s' c i.jet i.thread 0x03)) ∧
    (f.op = 0x0B → a % n = 0 → own →
      exec (.st i) s = .next (goesOn i (writePhys s' a (toLe n (x.reg f.b).toNat)) id)) ∧
    (∀ l, f.op = 0x0B → a % n = 0 → ¬ own → external s' c a true = some l →
      exec (.st i) s = .next (startWait (memFlits s' 1 1) i.jet i.thread .waitMem (.store l (toLe n (x.reg f.b).toNat)))) ∧
    (f.op = 0x0B → a % n = 0 → ¬ own → external s' c a true = none →
      exec (.st i) s = .next (accessFault s' c i.jet i.thread a n true))

/-- R97: every ATOM on its own jet-local memory writes the new word at A + IMM and the old one, sign-extended from 32 bits, to D;
any other address faults with ACCESS, an unaligned one with ALIGN. -/
def Obligations.AtomicOperations : Prop :=
  AtomRow .aadd 0 (fun w old _ b => (old + b) % 2 ^ w) ∧
  AtomRow .aswap 1 (fun _ _ _ b => b) ∧
  AtomRow .acas 2 (fun _ old d b => if old = d then b else old) ∧
  AtomRow .amin 3 (fun w old _ b => if (BitVec.ofNat w old).slt (BitVec.ofNat w b) then old else b) ∧
  AtomRow .amax 4 (fun w old _ b => if (BitVec.ofNat w old).slt (BitVec.ofNat w b) then b else old) ∧
  AtomRow .aminu 5 (fun _ old _ b => if old ≤ b then old else b) ∧
  AtomRow .amaxu 6 (fun _ old _ b => if old ≤ b then b else old) ∧
  AtomRow .aand 7 (fun _ old _ b => old &&& b) ∧
  AtomRow .aor 8 (fun _ old _ b => old ||| b)

/-- R98, R80, R42: FENCE completes at once when no weir request of the thread is outstanding and waits in WAIT_MEM otherwise,
until FENCE_COMPLETE; IFLUSH empties the jet's instruction cache and no other jet's. -/
def Claim.FencesAndFlush : Prop :=
  (∀ i c s s', Issuing i c s s' → LastSlot i s 1 →
    let f := fieldsOf i.word
    f.op = 0x0D →
    (f.fn = 0 → (threadAt s i).wops = 0 → exec (.fence i) s = .next (goesOn i s' id)) ∧
    (f.fn = 0 → (threadAt s i).wops ≠ 0 → exec (.fence i) s = .next (startWait s' i.jet i.thread .waitMem .fence)) ∧
    (f.fn = 1 → ∃ m, exec (.iflush i) s = .next (goesOn i { s' with jets := { s'.jets with icache := m } } id) ∧
      ∀ k, SMap.get none m k = if k / 2 ^ 48 = i.jet then none else SMap.get none s'.jets.icache k)) ∧
  (∀ s jet thread c, ctxOfJet s jet = some c → (getThread s jet thread).st = .waitMem →
    (getThread s jet thread).wait = .fence →
    exec (.fenceComplete jet thread) s =
      .next (if (getThread s jet thread).wops = 0 then endWait s jet thread [] else s))

/-- R99, R100: BULK checks its alignment and its whole ranges, then waits in WAIT_MEM; WOP checks both addresses and sends its line,
read from the thread's own jet-local memory, to the weir without waiting. -/
def Claim.BulkAndWeirRequests : Prop :=
  ∀ i c s s', Issuing i c s s' → LastSlot i s 1 →
    let f := fieldsOf i.word
    let x := threadAt s i
    let a := (x.reg f.a).toNat
    let d := (x.reg f.d).toNat
    let b := (x.reg f.b).toNat
    let n := 128 * f.imm
    let parts := (partsOf 0x80000 a n).map fun p => (external s' c p.1 (f.fn == 1), p.2)
    let bulkOk := ownRange i.jet d n && parts.all (·.1.isSome)
    let flits := if f.fn = 0 then memFlits s' f.imm (2 * f.imm) else memFlits s' (2 * f.imm) f.imm
    (f.op = 0x0E → a % 128 ≠ 0 ∨ d % 128 ≠ 0 → exec (.bulk i) s = .next (threadFault s' c i.jet i.thread 0x03)) ∧
    (f.op = 0x0E → a % 128 = 0 → d % 128 = 0 → bulkOk = true →
      exec (.bulk i) s = .next (startWait flits i.jet i.thread .waitMem
        (.bulk (f.fn == 0) (parts.filterMap fun p => p.1.map fun l => (l, p.2)) d))) ∧
    (f.op = 0x0E → a % 128 = 0 → d % 128 = 0 → bulkOk = false →
      exec (.bulk i) s = .next (accessFault s' c i.jet i.thread a n (f.fn == 1))) ∧
    (f.op = 0x0F → a % 64 ≠ 0 ∨ b % 64 ≠ 0 → exec (.wop i) s = .next (threadFault s' c i.jet i.thread 0x03)) ∧
    (∀ pa cacheable, f.op = 0x0F → a % 64 = 0 → b % 64 = 0 → locate s' c a true = some (.hbm pa cacheable) →
      ownRange i.jet b 64 = true →
      exec (.wop i) s = .next (memFaults (jlmFaults i.faults) s' fun q =>
        goesOn i (memFlits { q with mem := { q.mem with weirReqs := q.mem.weirReqs ++
            [{ ctx := c, src := i.jet, thread := some (i.jet * 256 + i.thread), addr := pa, va := a, op := bits f.fn 1 0,
               ty := bits f.fn 4 2, mode := bits f.fn 6 5, tag := f.imm, data := readPhys q b 64 }] } } 1 1)
          fun x => { x with wops := x.wops + 1 })) ∧
    (f.op = 0x0F → a % 64 = 0 → b % 64 = 0 → (∀ pa cacheable, locate s' c a true ≠ some (.hbm pa cacheable)) →
      exec (.wop i) s = .next (accessFault s' c i.jet i.thread a 64 true)) ∧
    (∀ pa cacheable, f.op = 0x0F → a % 64 = 0 → b % 64 = 0 → locate s' c a true = some (.hbm pa cacheable) →
      ownRange i.jet b 64 = false → exec (.wop i) s = .next (threadFault s' c i.jet i.thread 0x02)) ∧
    (∀ n w, accessFault s' c i.jet i.thread a n w =
      threadFault (if reachable s' c a n w = true then s' else cisRefused s') c i.jet i.thread 0x02)

/-- R42, R96, R99, R345, R351, R354: MEM_ACCESS_COMPLETE performs the access of a thread in WAIT_MEM at the location that its address
translated to when it issued. A load writes its register, a store its bytes, a BULK its next chunks; a read that fails beyond
correction has no effect but its S3 event. -/
def Claim.WaitingAccessesComplete : Prop :=
  ∀ s jet thread chunks fs c, ctxOfJet s jet = some c → (getThread s jet thread).st = .waitMem →
    let done := exec (.memAccessComplete jet thread chunks fs) s
    (∀ l n sg d, (getThread s jet thread).wait = .load l n sg d →
      done = .next (memFaults fs s fun q =>
        let r := readLoc q (cacheSlices q c) l n
        let v := leNat r.1
        endWait r.2 jet thread [(d, if sg then (BitVec.ofNat (8 * n) v).signExtend 64 else BitVec.ofNat 64 v)])) ∧
    (∀ l bs, (getThread s jet thread).wait = .store l bs →
      done = .next (endWait (writeLoc s (cacheSlices s c) l bs) jet thread [])) ∧
    (∀ toJlm ext loc, (getThread s jet thread).wait = .bulk toJlm ext loc →
      done = .next (memFaults fs s fun q =>
        let r := bulkChunks (cacheSlices q c) toJlm chunks q ext loc
        if r.2.1 = [] then endWait r.1 jet thread []
        else updThread r.1 jet thread fun x => { x with wait := .bulk toJlm r.2.1 r.2.2 })) ∧
    (∀ toJlm l len rest loc n, bulkChunks (cacheSlices s c) toJlm (n + 1) s ((l, len) :: rest) loc =
      bulkChunks (cacheSlices s c) toJlm n (bulkChunk s (cacheSlices s c) toJlm l loc)
        (if len ≤ 128 then rest else (l.skip 128, len - 128) :: rest) (loc + 128)) ∧
    (∀ l n sg d r, (getThread s jet thread).wait = .load l n sg d → memChecks fs s = (false, r) → done = .next r)

/-! Jets: vectors. -/

/-- R83, R101, R102, R85: every elementwise vector instruction checks the alignment and then the whole range of each operand it
uses; then, chunk after chunk, it reads its sources and writes its destination, and its flags are those of all elements. -/
def Claim.VectorElementwise : Prop :=
  VectorRow .vadd 0x10 0 true true (fun f => (velem f.vty, velem f.vty)) (fun f a b d c => vadd ⟨f.vty, a, b, d, c⟩) ∧
  VectorRow .vsub 0x10 1 true true (fun f => (velem f.vty, velem f.vty)) (fun f a b d c => vsub ⟨f.vty, a, b, d, c⟩) ∧
  VectorRow .vmul 0x10 2 true true (fun f => (velem f.vty, velem f.vty)) (fun f a b d c => vmul ⟨f.vty, a, b, d, c⟩) ∧
  VectorRow .vfma 0x10 3 true true (fun f => (velem f.vty, velem f.vty)) (fun f a b d c => vfma ⟨f.vty, a, b, d, c⟩) ∧
  VectorRow .vaxpy 0x10 4 true true (fun f => (velem f.vty, velem f.vty)) (fun f a b d c => vaxpy ⟨f.vty, a, b, d, c⟩) ∧
  VectorRow .vmax 0x10 5 true true (fun f => (velem f.vty, velem f.vty)) (fun f a b d c => vminmax true ⟨f.vty, a, b, d, c⟩) ∧
  VectorRow .vmin 0x10 6 true true (fun f => (velem f.vty, velem f.vty)) (fun f a b d c => vminmax false ⟨f.vty, a, b, d, c⟩) ∧
  VectorRow .vcopy 0x10 7 true false (fun f => (velem f.vty, velem f.vty)) (fun _ a _ _ _ => (a, 0)) ∧
  VectorRow .vfill 0x10 8 false false (fun f => (velem f.vty, velem f.vty)) (fun f a b d c => vfill ⟨f.vty, a, b, d, c⟩) ∧
  (∀ k, VectorRow .vcvt 0x12 k true false (fun f => (velem f.vty, velem f.fn)) (fun f a _ _ _ => vcvt f.vty f.fn a))

/-- R103, R104, R94, R107: the element results. Floating-point elements are the exact result rounded once into the type; integer
elements saturate and then raise OF; conversions to integers round to nearest even, give 0 and NV for a NaN, and saturate with
OF. -/
def Claim.VectorElementResults : Prop :=
  ∀ x : VArgs,
    let f := vfmt x.ty
    let dec (n : Nat) : FVal := f.decode n
    let w := 8 * velem x.ty
    let int (n : Nat) : Int := (BitVec.ofNat w n).toInt
    let saturated (r : Nat × Nat) (z : Int) : Prop :=
      (BitVec.ofNat w r.1).toInt = max (-2 ^ (w - 1)) (min (2 ^ (w - 1) - 1) z) ∧
      r.2 = if -2 ^ (w - 1) ≤ z ∧ z < 2 ^ (w - 1) then 0 else fOF
    (x.ty ≤ 2 →
      (vadd x).1 = f.ieeeRound ((dec x.a).add (dec x.b)) ∧
      (vsub x).1 = f.ieeeRound ((dec x.a).add (dec x.b).neg) ∧
      (vmul x).1 = f.ieeeRound ((dec x.a).mul (dec x.b)) ∧
      (vfma x).1 = f.ieeeRound ((dec x.d).add ((dec x.a).mul (dec x.b))) ∧
      (vaxpy x).1 = f.ieeeRound (((dec x.a).mul (f32.decode (low32 x.c))).add (dec x.b)) ∧
      (vfill x).1 = f.ieeeRound (f32.decode (low32 x.c)) ∧
      (isNaN (dec x.a) = true → isNaN (dec x.b) = false →
        (vminmax true x).1 = x.b ∧ (vminmax false x).1 = x.b) ∧
      (isNaN (dec x.a) = false → isNaN (dec x.b) = false → (dec x.a).lt (dec x.b) = true →
        (vminmax true x).1 = x.b ∧ (vminmax false x).1 = x.a) ∧
      (∀ dst, dst ≤ 2 → (vcvt x.ty dst x.a).1 = (vfmt dst).ieeeRound (dec x.a)) ∧
      (∀ dst, 2 < dst → isNaN (dec x.a) = true → vcvt x.ty dst x.a = (0, fNV))) ∧
    (2 < x.ty →
      saturated (vadd x) (int x.a + int x.b) ∧ saturated (vsub x) (int x.a - int x.b) ∧
      saturated (vmul x) (int x.a * int x.b) ∧ saturated (vfma x) (int x.d + int x.a * int x.b) ∧
      saturated (vaxpy x) (int x.a * x.c.toInt + int x.b) ∧ saturated (vfill x) x.c.toInt ∧
      (vminmax true x).1 = (if int x.a < int x.b then x.b else x.a) ∧
      (vminmax false x).1 = (if int x.a < int x.b then x.a else x.b) ∧
      (∀ src, 2 < src → saturated (vcvt src x.ty x.a) (BitVec.ofNat (8 * velem src) x.a).toInt))

/-- R105, R106, R83: the reductions write register C. VSUM adds the elements as the balanced tree in index order with absent leaves
+0, or exactly in 64 bits; VAMAX is the largest magnitude, the canonical NaN when an element is a NaN; VCHK counts the elements
that are not finite; VZTEST tests for zeros of either sign. -/
def Obligations.VectorReductions : Prop :=
  ReduceRow .vsum 0 (fun ty es =>
    let n := es.length
    if ty ≤ 2 then
      let r := sumTree sumNode (fun k => if k < n then (toF32 ty (es.getD k 0), 0) else (0, 0)) (clog2 n) 0
      (BitVec.ofNat 64 r.1, r.2 ||| (if es.any (isSNaN (vfmt ty)) then fNV else 0))
    else (BitVec.ofInt 64 (es.map fun e => (BitVec.ofNat (8 * velem ty) e).toInt).sum, 0)) ∧
  ReduceRow .vamax 1 (fun ty es =>
    if ty ≤ 2 then
      (BitVec.ofNat 64 (if es.any fun e => isNaN ((vfmt ty).decode e) then 0x7FC00000
        else (es.map fun e => toF32 ty e % 2 ^ 31).foldl Nat.max 0), 0)
    else (BitVec.ofNat 64 ((es.map fun e => (BitVec.ofNat (8 * velem ty) e).toInt.natAbs).foldl Nat.max 0), 0)) ∧
  ReduceRow .vchk 2 (fun ty es => (BitVec.ofNat 64 (es.countP fun e => !((vfmt ty).decode e).isFin), 0)) ∧
  ReduceRow .vztest 3 (fun ty es =>
    (if es.all fun e => if ty ≤ 2 then ((vfmt ty).decode e).isZero else e == 0 then 1 else 0, 0))

/-! Jets: messages. -/

/-- R48, R49, R57, R58, R108, R111, R607: CHOPEN, CHCLOSE, CONN and DISC, with their faults. CHOPEN decides the requests held for its
channel; CONN to an endpoint that R607 closes faults with LEASE and sends nothing, and one that finds the send table full returns
CONN_FULL. -/
def Claim.ChannelsAndConnections : Prop :=
  ∀ i c s s', Issuing i c s s' → LastSlot i s 1 →
    let f := fieldsOf i.word
    let x := threadAt s i
    let j := i.jet
    let a := (x.reg f.a).toNat
    let b := (x.reg f.b).toNat
    let slots := bits f.imm 7 0 + 1
    let largest := bits f.imm 11 8 + 1
    let limit := bits f.imm 19 12 + 1
    let opens := a < 256 ∧ limit ≤ slots ∧ b % 64 = 0 ∧ jlmBase j ≤ b ∧
      b + slots * largest * 64 ≤ jlmBase j + 65536 * (getCtx s' c).lease.extent ∧ (getChan s' j a).st = .closed
    let mine (r : ConnReq) : Bool := r.dst == j && r.ch == a
    f.op = 0x18 →
    (f.fn = 0 → ¬ opens → exec (.chopen i) s = .next (threadFault s' c j i.thread 0x06)) ∧
    (f.fn = 0 → opens →
      let q := goesOn i (updChan s' j a fun _ =>
        { st := .opened, any := bitB f.imm 20, base := b, slots, largest, sources := limit }) id
      exec (.chopen i) s = .next ((s'.jets.held.filter mine).foldl decideReq
        { q with jets := { q.jets with held := s'.jets.held.filter fun r => !mine r } })) ∧
    (f.fn = 1 → 256 ≤ a → exec (.chclose i) s = .next (threadFault s' c j i.thread 0x06)) ∧
    (f.fn = 1 → a < 256 → (getChan s' j a).st = .closed → exec (.chclose i) s = .next (goesOn i s' id)) ∧
    (f.fn = 1 → a < 256 → (getChan s' j a).st ≠ .closed → ∃ t, exec (.chclose i) s = .next t ∧
      ((getChan s' j a).conns = [] → getChan t j a = {}) ∧
      ((getChan s' j a).conns ≠ [] → getChan t j a = { getChan s' j a with st := .closing } ∧
        (getThread t j i.thread).st = .waitCredit ∧ (getThread t j i.thread).wait = .chclose a)) ∧
    (f.fn = 2 → 256 ≤ b → exec (.conn i) s = .next (threadFault s' c j i.thread 0x06)) ∧
    (f.fn = 2 → b < 256 → Machine.opens s' c a = false →
      exec (.conn i) s = .next (threadFault (setBit s' oRun 2) c j i.thread 0x04)) ∧
    (f.fn = 2 → b < 256 → Machine.opens s' c a = true → (∀ n < 64, (getConn s' j n).used = true) →
      exec (.conn i) s = .next (writesReg i s' f.d 4)) ∧
    (∀ n < 64, f.fn = 2 → b < 256 → Machine.opens s' c a = true → (getConn s' j n).used = false →
      n = i.entry ∨ ((64 ≤ i.entry ∨ (getConn s' j i.entry).used = true) ∧ ∀ m < n, (getConn s' j m).used = true) →
      let q := updConn s' j n fun _ => { used := true, pending := true, dst := a, ch := b }
      exec (.conn i) s = .next (startWait
        (bump { q with jets := { q.jets with reqs := q.jets.reqs ++ [{ src := j, srcIdx := n, dst := a, ch := b }] } }
          (oRun + 0x10) 1) j i.thread .waitCredit (.conn n f.d))) ∧
    (f.fn = 3 → 64 ≤ a ∨ connUsable (getConn s' j a) = false →
      exec (.disc i) s = .next (threadFault s' c j i.thread 0x06)) ∧
    (f.fn = 3 → a < 64 → connUsable (getConn s' j a) = true → inFlight s' j a = true →
      exec (.disc i) s = .next (startWait s' j i.thread .waitCredit (.disc a))) ∧
    (f.fn = 3 → a < 64 → connUsable (getConn s' j a) = true → inFlight s' j a = false →
      ∃ t, exec (.disc i) s = .next t ∧ getConn t j a = {})

/-- R51, R53, R59, R108, R110, R111: SEND and FEED, blocking and not. With a credit, the credit is used and the payload, read from the
thread's own jet-local memory, enters the runnel; without one the blocking forms wait in WAIT_CREDIT and the others return
NO_CREDIT. -/
def Claim.SendAndFeed : Prop :=
  SendRow .send 0x4 false false ∧ SendRow .sendNb 0x5 true false ∧ SendRow .feed 0x6 false true ∧ SendRow .feedNb 0x7 true true ∧
  (∀ s j t n data tag,
    (sendNow s j t n data tag).jets.msgs = s.jets.msgs ++
      [{ src := j, srcIdx := n, dst := (getConn s j n).dst, ch := (getConn s j n).ch, tag, thread := t, data }] ∧
    getConn (sendNow s j t n data tag) j n = { getConn s j n with credits := (getConn s j n).credits - 1 })

/-- R52, R55, R56, R73, R109, R111: RECV and RECVS, blocking and not, take the message that reached the buffer first among those not
yet returned, from any source or from the named one; MSGFREE of a held slot frees it and returns its credit. -/
def Claim.ReceiveAndFree : Prop :=
  RecvRow .recv 0x8 false false ∧ RecvRow .recvNb 0x9 true false ∧ RecvRow .recvs 0xA false true ∧
  RecvRow .recvsNb 0xB true true ∧
  (∀ (x : Channel) src k m, oldestMsg x src = some (k, m) →
    (k, some m) ∈ x.msgs ∧ m.returned = false ∧ (∀ e, src = some e → m.src = e) ∧
    ∀ k' m', (k', some m') ∈ x.msgs → m'.returned = false → (∀ e, src = some e → m'.src = e) → m.order ≤ m'.order) ∧
  (∀ i c s s', Issuing i c s s' → LastSlot i s 1 →
    let f := fieldsOf i.word
    let ch := ((threadAt s i).reg f.a).toNat
    let k := bits ((threadAt s i).reg f.b).toNat 15 8
    f.op = 0x18 → f.fn = 0xC →
    (256 ≤ ch ∨ (getChan s' i.jet ch).st = .closed ∨ SMap.get none (getChan s' i.jet ch).msgs k = none →
      exec (.msgfree i) s = .next (threadFault s' c i.jet i.thread 0x06)) ∧
    (∀ m, ch < 256 → (getChan s' i.jet ch).st ≠ .closed → SMap.get none (getChan s' i.jet ch).msgs k = some m →
      exec (.msgfree i) s = .next (slotCredit
        (updChan (goesOn i s' id) i.jet ch fun x => { x with msgs := SMap.put none x.msgs k none }) i.jet ch m)))

/-! Jets: barriers and threads. -/

/-- R61 to R63, R65, R112 to R114: BARINIT, BARARR and BARWAIT on a barrier object, with the BAR_STATE faults. -/
def Claim.Barriers : Prop :=
  ∀ i c s s', Issuing i c s s' → LastSlot i s 1 →
    let f := fieldsOf i.word
    let x := threadAt s i
    let j := i.jet
    let h := (x.reg f.a).toNat
    let n := (x.reg f.b).toNat
    f.op = 0x19 →
    (handleKey s' c j h = none →
      (f.fn = 0 → exec (.barinit i) s = .next (threadFault s' c j i.thread 0x08)) ∧
      (f.fn = 1 → exec (.bararr i) s = .next (threadFault s' c j i.thread 0x08)) ∧
      (f.fn = 2 → exec (.barwait i) s = .next (threadFault s' c j i.thread 0x08))) ∧
    (∀ k, handleKey s' c j h = some k →
      let b := getBar s' k
      (f.fn = 0 → n = 0 ∨ maxMembers (k / 2 ^ 32) < n ∨ (b.broken = false ∧ b.arrivals ≠ 0) →
        exec (.barinit i) s = .next (threadFault s' c j i.thread 0x08)) ∧
      (f.fn = 0 → n ≠ 0 → n ≤ maxMembers (k / 2 ^ 32) → b.broken = true ∨ b.arrivals = 0 →
        exec (.barinit i) s = .next (updBar (goesOn i s' id) k fun b =>
          { init := true, broken := false, members := n, arrivals := 0, gen := b.gen, joined := [], inTree := false, used := 0 })) ∧
      (f.fn = 1 → b.broken = true → ∃ t, exec (.bararr i) s = .next t ∧ getBar t k = b ∧
        (getThread t j i.thread).st = .ready ∧ (getThread t j i.thread).pc = x.pc + 8 ∧
        (f.d ≠ 0 → (getThread t j i.thread).reg f.d = 6)) ∧
      (f.fn = 1 → b.broken = false → b.init = false → exec (.bararr i) s = .next (threadFault s' c j i.thread 0x08)) ∧
      (f.fn = 1 → b.broken = false → b.init = true → x.wops ≠ 0 ∨ messagesIn s' j i.thread = false →
        exec (.bararr i) s = .next (startWait s' j i.thread .waitMem (.bararr h f.d))) ∧
      (f.fn = 1 → b.broken = false → b.init = true → x.wops = 0 → messagesIn s' j i.thread = true →
        ∃ t, exec (.bararr i) s = .next t ∧
          (b.arrivals + 1 < b.members →
            getBar t k = { b with arrivals := b.arrivals + 1, joined := addIds b.joined [memberId c j i.thread] } ∧
            (getThread t j i.thread).st = .ready ∧ (getThread t j i.thread).pc = x.pc + 8 ∧
            (f.d ≠ 0 → (getThread t j i.thread).reg f.d = BitVec.ofNat 64 (256 * (barGen s' k).toNat))) ∧
          (b.arrivals + 1 = b.members → k / 2 ^ 32 ≠ 3 →
            getBar t k = { b with arrivals := 0, gen := b.gen + 1, joined := addIds b.joined [memberId c j i.thread] })) ∧
      (f.fn = 2 → b.broken = true → exec (.barwait i) s = .next (writesReg i s' f.d 6)) ∧
      (f.fn = 2 → b.broken = false → b.init = false → exec (.barwait i) s = .next (threadFault s' c j i.thread 0x08)) ∧
      (f.fn = 2 → b.broken = false → b.init = true →
        let ahead := (barGen s' k - BitVec.ofNat 16 n).toNat
        (1 ≤ ahead ∧ ahead ≤ 32767 → exec (.barwait i) s = .next (writesReg i s' f.d 0)) ∧
        (¬ (1 ≤ ahead ∧ ahead ≤ 32767) →
          exec (.barwait i) s = .next (startWait s' j i.thread .waitBar (.barwait h n f.d)))))

/-- R38 to R40, R64, R116 to R118, R18: SPAWN of the lowest-numbered FREE thread or NO_THREAD; EXIT frees the thread and takes it from
every barrier it has joined; GETST, CLRFLG, RDTIME and POISON. -/
def Claim.ThreadsAndSystem : Prop :=
  SpawnRow .spawnNormal 0 false ∧ SpawnRow .spawnFeed 1 true ∧
  (∀ i c s s', Issuing i c s s' → LastSlot i s 1 →
    let f := fieldsOf i.word
    let who := i.jet * 256 + i.thread
    let me := memberId c i.jet i.thread
    let free := updThread (orphanWops s' (· == who)) i.jet i.thread fun _ => {}
    let joined := (s'.jets.bars.filter fun e => e.2.joined.contains me).map (·.1)
    (f.op = 0x1A → f.fn = 2 →
      exec (.exitThread i) s = .next (launchedExit (joined.foldl (fun q k => leaveBar q me k) free) c who)) ∧
    (f.op = 0x1A → f.fn = 3 → exec (.getst i) s = .next (goesOn i s' fun x =>
      x.setReg f.d (BitVec.ofNat 64 ((if x.feed then 1 else 0) + 2 * x.flags.toNat)))) ∧
    (f.op = 0x1A → f.fn = 4 → exec (.clrflg i) s = .next (goesOn i s' fun x => { x with flags := 0 })) ∧
    (f.op = 0x1B → f.fn = 0 → exec (.rdtime i) s = .next (writesReg i s' f.d (BitVec.ofNat 64 s.ticks))) ∧
    (f.op = 0x1B → f.fn = 2 →
      exec (.poison i) s = .next (updCtx (goesOn i s' id) c fun x => { x with poison := true }))) ∧
  (∀ s who k,
    let b := getBar s k
    let r := getBar (leaveBar s who k) k
    b.members = 1 → r.members = 0 ∧ r.init = false ∧ r.arrivals = 0 ∧ r.gen = b.gen) ∧
  (∀ s who k,
    let b := getBar s k
    let r := getBar (leaveBar s who k) k
    k / 2 ^ 32 ≠ 3 → 1 < b.members → b.broken = false → b.inTree = false → b.arrivals = b.members - 1 →
      r.members = b.members - 1 ∧ r.gen = b.gen + 1 ∧ r.arrivals = 0) ∧
  (∀ s c who, ((getCtx s c).cmds.any fun m => m.threads.contains who) = false → launchedExit s c who = s)

/-! What the runnel and the terraces do between instructions. -/

/-- R46, R47, R49 to R52, R54, R110, R419, R555: hops, message arrival, connection requests and grants, and credits. Every message
goes to a jet, a row port, a link port or a chanter; of the two former, the rows here take those of jets and links. -/
def Claim.RunnelEvents : Prop :=
  (∀ s hop failures,
    (0 < failures → failures < 3 → exec (.hopRetransmit hop failures) s =
      .next (raise (setBit (bump s (oRun + 0x08) 1) oRun 0) 0x001 7 hop .all)) ∧
    (3 ≤ failures → exec (.hopRetransmit hop failures) s = .next (raise (setBit s oRun 1) 0x064 7 hop .all))) ∧
  (∀ s k slot m, s.jets.msgs[k]? = some m → inTurn s k m = true → unitsRun s = true → m.dst / 4096 = 0 →
    let x := getChan s m.dst m.ch
    let taken := x.st ≠ .closed ∧ (m.src, m.srcIdx) ∈ x.conns ∧ m.data.length ≤ 64 * x.largest
    (¬ taken → exec (.messageArrival k slot) s = .next (setBit (bump
      { s with jets := { s.jets with msgs := s.jets.msgs.eraseIdx k } } (oJet + 0x58) 1) (oJet + 0x50) 1)) ∧
    (taken → ∀ n, n < x.slots → SMap.get none x.msgs n = none →
      n = slot ∨ ((x.slots ≤ slot ∨ SMap.get none x.msgs slot ≠ none) ∧ ∀ u < n, SMap.get none x.msgs u ≠ none) →
      ∃ t, exec (.messageArrival k slot) s = .next t ∧ t.jets.msgs = s.jets.msgs.eraseIdx k ∧
        (∀ a, byteAt t a = byteAt (writePhys s (x.base + n * x.largest * 64) m.data) a) ∧
        ((∀ e ∈ s.jets.threads, e.2.wait = .none) → (getConn s m.src m.srcIdx).closing = false →
          getChan t m.dst m.ch = { x with
            next := x.next + 1
            msgs := SMap.put none x.msgs n (some
              { src := m.src, srcIdx := m.srcIdx, len := m.data.length / 64, tag := m.tag, order := x.next, returned := false })
            }))) ∧
  (∀ s k slot m c dev ep ch, s.jets.msgs[k]? = some m → inTurn s k m = true → unitsRun s = true → m.dst / 4096 = 4 →
    (getConn s m.src m.srcIdx).remote = some (dev, ep, ch) → ctxOfJet s m.src = some c →
    exec (.messageArrival k slot) s = .next (inject
      (updConn { s with jets := { s.jets with msgs := s.jets.msgs.eraseIdx k } } m.src m.srcIdx fun x =>
        { x with out := x.out ++ [m.thread] })
      { hdr := ({ dstDev := dev, srcDev := s.links.devId, dstEp := ep, srcEp := m.src, kind := 1, len := m.data.length / 64
                  job := (getCtx s c).job, tag := m.tag, channel := ch } : Hdr).bytes, payload := m.data })) ∧
  (∀ s k fs r q, s.jets.reqs[k]? = some r →
    (Claim.ReadFails fs s q → exec (.connectionRequest k fs) s = .next q) ∧
    (Claim.Reads fs s q → q.jets.reqs[k]? = some r → exec (.connectionRequest k fs) s = exec (.connectionRequest k []) q)) ∧
  (∀ s k r, s.jets.reqs[k]? = some r → r.srcIdx < 2 ^ 16 →
    let q : State := { s with jets := { s.jets with reqs := s.jets.reqs.eraseIdx k } }
    let reply (q : State) (ok : Bool) (credits largest : Nat) : State := bump { q with jets := { q.jets with
      grants := q.jets.grants ++ [{ ep := r.src, idx := r.srcIdx, granted := ok, credits, largest }] } } (oRun + 0x18) 1
    let x := getChan s r.dst r.ch
    let p := r.dst % 4096
    let sources := 2 ^ (getBasin s (p / 16)).feedSources
    (r.dst / 4096 = 0 → x.st = .closed → exec (.connectionRequest k []) s =
      .next { q with jets := { q.jets with held := q.jets.held ++ [r] } }) ∧
    (r.dst / 4096 = 0 → x.st = .opened → x.conns.length < x.sources → sourceOk x r.src = true →
      exec (.connectionRequest k []) s =
        .next (reply (updChan q r.dst r.ch fun x => { x with conns := x.conns ++ [(r.src, r.srcIdx)] }) true
          (x.slots / x.sources) x.largest)) ∧
    (r.dst / 4096 = 0 → x.st = .opened → x.sources ≤ x.conns.length ∨ sourceOk x r.src = false →
      exec (.connectionRequest k []) s = .next (reply q false 0 0)) ∧
    (r.dst / 4096 = 0 → x.st = .closing → exec (.connectionRequest k []) s = .next (reply q false 0 0)) ∧
    (r.dst / 4096 = 1 → r.ch = 0 → (getRowPort s p).conns.length < sources → exec (.connectionRequest k []) s =
      .next (reply (updRowPort q p fun y => { y with conns := y.conns ++ [(r.src, r.srcIdx)] }) true (32 / sources) 1)) ∧
    (r.dst / 4096 = 1 → r.ch ≠ 0 ∨ sources ≤ (getRowPort s p).conns.length → exec (.connectionRequest k []) s =
      .next (reply q false 0 0)) ∧
    (∀ c dev ep ch, r.dst / 4096 = 4 → ctxOfJet s r.src = some c → remoteEntry q c r.ch = some (dev, ep, ch) →
      exec (.connectionRequest k []) s = .next (inject (updConn q r.src r.srcIdx fun x => { x with remote := some (dev, ep, ch) })
        { hdr := ({ dstDev := dev, srcDev := s.links.devId, dstEp := ep, srcEp := r.src, kind := 2, job := (getCtx s c).job
                    channel := ch } : Hdr).bytes, payload := [] })) ∧
    (∀ c, r.dst / 4096 = 4 → ctxOfJet s r.src = some c → remoteEntry q c r.ch = none →
      exec (.connectionRequest k []) s = .next (reply q false 0 0)) ∧
    (r.dst / 4096 = 5 → r.ch = 0 → exec (.connectionRequest k []) s =
      .next (reply (updPort q p fun y => { y with conns := y.conns ++ [(r.src, r.srcIdx)] }) true 4 1)) ∧
    (r.dst / 4096 = 5 → r.ch ≠ 0 → exec (.connectionRequest k []) s = .next (reply q false 0 0))) ∧
  (∀ s k g, s.jets.grants[k]? = some g →
    let q : State := { s with jets := { s.jets with grants := s.jets.grants.eraseIdx k } }
    let granted := updConn q g.ep g.idx fun x => { x with pending := false, credits := g.credits, largest := g.largest }
    (∀ th d, g.ep / 4096 = 0 →
      firstWaiting s g.ep .waitCredit (fun w => match w with | .conn n _ => n == g.idx | _ => false) = some th →
      (getThread s g.ep th).wait = .conn g.idx d →
      exec (.connectionGrant k) s = .next (
        if g.granted then endWait granted g.ep th [(d, BitVec.ofNat 64 (256 * g.idx))]
        else endWait (setBit (updConn q g.ep g.idx fun _ => {}) oRun 3) g.ep th [(d, 3)])) ∧
    (g.ep / 4096 ≠ 0 → g.granted = true → (getConn s g.ep g.idx).closing = false →
      exec (.connectionGrant k) s = .next granted)) ∧
  (∀ s k ep idx, s.jets.credits[k]? = some (ep, idx) → connUsable (getConn s ep idx) = true →
    let q : State := { s with jets := { s.jets with credits := s.jets.credits.eraseIdx k } }
    let more := updConn q ep idx fun x => { x with credits := x.credits + 1 }
    (4096 ≤ ep → exec (.creditReturn k) s = .next more) ∧
    (firstWaiting s ep .waitCredit (waitsCredit idx) = none → exec (.creditReturn k) s = .next more) ∧
    (∀ th data tag d, ep < 4096 → firstWaiting s ep .waitCredit (waitsCredit idx) = some th →
      (getThread s ep th).wait = .send idx data tag d →
      exec (.creditReturn k) s = .next (endWait (sendNow more ep th idx data tag) ep th [(d, 0)])) ∧
    (∀ th data d, ep < 4096 → firstWaiting s ep .waitCredit (waitsCredit idx) = some th →
      (getThread s ep th).wait = .feed idx data d →
      exec (.creditReturn k) s = .next (endWait (sendNow more ep th idx data 0) ep th [(d, 0)])))

/-- R66, R38, R68, R70 to R72, R74: a wait beyond the limit is reported once and goes on; a failed jet's terrace comes to rest, and the
jet moves to the lowest spare of it, or is lost; a launch starts when all its threads are FREE; a pre-emption saves and releases the
units, and a resumption puts the threads back as they stopped. -/
def Claim.TerraceEvents : Prop :=
  (∀ s jet thread c,
    let x := getThread s jet thread
    let late := s.ticks - x.since
    let kind : Byte := match x.wait with
      | .barwait h _ _ => if bits h 17 16 = 3 then 3 else 0
      | _ => 0
    x.st = .waitMsg ∨ x.st = .waitCredit ∨ x.st = .waitBar → x.stalled = false →
    regOf s (oJet + 0x48) % 1024 * 50000000 < late → ctxOfJet s jet = some c →
    exec (.waitStall jet thread) s = .next (ledgerRecord (postEvent
      (setBit (updThread s jet thread fun x => { x with stalled := true }) (oJet + 0x50) 2) c 0x08 0xFFFFFFFF
        ([kind, 0] ++ toLe 2 jet)) 0x019 (late / 50000000) (toLe 2 jet ++ toLe 1 thread))) ∧
  (∀ s jet good, jet < 4096 → unitsRun s = true → jet ∈ s.jets.failed →
    let t := jet / 512
    let used := (getTerrace s t).sparesUsed
    let spare := 520 * t + 512 + used
    let q := resumeTerrace s t
    let moved := updTerrace { q with jets := { q.jets with
      map := SMap.put none q.jets.map jet (some spare), failed := q.jets.failed.filter (· != jet) } } t
        fun x => { x with sparesUsed := x.sparesUsed + 1 }
    (terraceQuiet s t = false → ∃ r, exec (.jetSubstitution jet good) s = .next r ∧ (getTerrace r t).stopped = true ∧
      ∀ j u, u < 256 → j / 512 = t → SMap.wf {} s.jets.threads = true → (getThread s j u).st = .ready →
        getThread r j u = stopThread (getThread s j u)) ∧
    (terraceQuiet s t = true → used < 8 → good = true → exec (.jetSubstitution jet good) s =
        .next (raise (setBit moved (oJet + 0x50) 5) 0x040 0 (physJet s jet) (.terrace t)) ∧
      physJet moved jet = spare ∧ ∀ j, j ≠ jet → physJet moved j = physJet s j) ∧
    (terraceQuiet s t = true → used < 8 → good = false → exec (.jetSubstitution jet good) s =
        .next (raise (retireJet q jet) 0x065 0 (physJet s jet) (.terrace t)) ∧
      physJet (retireJet q jet) jet = spare ∧ ∀ j, j ≠ jet → physJet (retireJet q jet) j = physJet s j) ∧
    (terraceQuiet s t = true → 8 ≤ used → exec (.jetSubstitution jet good) s =
      .next (raise (setBit (breakJet q jet) (oJet + 0x50) 6) 0x066 0 (physJet s jet) (.terrace t)))) ∧
  (∀ s ctx m, (getCtx s ctx).st = .running → (getCtx s ctx).saved = false → unitsRun s = true →
    (getCtx s ctx).cmds.find? (fun m => m.started && cmdOp m == 0x02 && m.threads.isEmpty) = some m →
    ((launchThreads m.raw).all (fun k => (getThread s (k / 256) (k % 256)).st == .free) = true →
      ∃ t, exec (.launchStart ctx) s = .next t ∧
        (∀ j u, u < 256 → j * 256 + u ∈ launchThreads m.raw →
          let y := getThread t j u
          y.st = .ready ∧ y.pc = BitVec.ofNat 64 (leAt m.raw 16 8) ∧ y.feed = bitB (leAt m.raw 10 1) 0 ∧ y.preds = 0 ∧
          ∀ r, y.reg r = if r = 1 then BitVec.ofNat 64 u else if r = 2 then BitVec.ofNat 64 j
            else if r = 3 then BitVec.ofNat 64 (leAt m.raw 24 8) else 0) ∧
        (∀ j u, u < 256 → j * 256 + u ∉ launchThreads m.raw → getThread t j u = getThread s j u) ∧
        t.mem = s.mem ∧ t.csr = s.csr) ∧
    ((launchThreads m.raw).all (fun k => (getThread s (k / 256) (k % 256)).st == .free) = false →
      exec (.launchStart ctx) s = .next s)) ∧
  (∀ s ctx,
    let x := getCtx s ctx
    let quiet := trafficClear s (heldTerraces s ctx) (heldBasins s ctx) && (heldBasins s ctx).all (basinQuiet s)
      && s.jets.threads.all fun e => !(heldTerraces s ctx).contains (e.1 / 256 / 512) || accessesDone e.2
    unitsRun s = true → mustYield s ctx = true → noUnits x = false → x.saved = false → quiet = true →
    ∃ t, exec (.terracePreempt ctx) s = .next t ∧ (getCtx t ctx).saved = true ∧
      (getCtx t ctx).st = (if x.suspending then .suspended else .ready) ∧
      (∀ j u, holdsJet s ctx j = true → u < 256 → getThread t j u = {} ∧ getChan t j u = {}) ∧
      (∀ τ < 8, holdsTerrace s ctx τ = true → (getTerrace t τ).lease = none)) ∧
  (∀ s ctx v,
    let x := getCtx s ctx
    unitsRun s = true → x.st = .running → x.saved = true → x.save = some v →
    ∃ t, exec (.contextResume ctx) s = .next t ∧ (getCtx t ctx).saved = false ∧ (getCtx t ctx).save = none ∧
      ∀ τ < 8, bitB x.lease.terraces τ = true → (getTerrace t τ).stopped = false) ∧
  (∀ x : Thread, x.st ≠ .stopped → x.back = .free → resumeThread (stopThread x) = x)

/-! Basins: sums. -/

/-- R219 to R221: adding zero changes no W40 sum and no sum is the encoding 0x80_0000_0000; a NaN operand gives the canonical NaN; an
INT40 addition is exact up to its bounds, and a saturated operand, the left one of two, is the result. -/
def Claim.AccumulatorAddition : Prop :=
  (∀ a : W40, w40Canon a = a → w40Add a 0 = a ∧ w40Add 0 a = a) ∧
  (∀ a b : W40, w40Add a b = w40Add b a ∧ w40Add a b ≠ BitVec.ofNat 40 0x8000000000) ∧
  (∀ a b : W40, w40Val a = .nan → w40Add a b = BitVec.ofNat 40 0x7FF0000000) ∧
  (∀ a b : W40,
    let sat (x : W40) : Prop := x.toInt = 2 ^ 39 - 1 ∨ x.toInt = -2 ^ 39
    (sat a → int40Add a b = a) ∧ (¬ sat a → sat b → int40Add a b = b) ∧
    (¬ sat a → ¬ sat b → (int40Add a b).toInt = max (-2 ^ 39) (min (2 ^ 39 - 1) (a.toInt + b.toInt))))

/-- R230, R231: the tree of the array is the canonical pairwise sum of its leaves in index order. -/
def Claim.PairwiseIsTheBalancedTree : Prop :=
  (∀ (α : Type) (add : α → α → α) (z : α) (l : List α), l ≠ [] →
    pairwise add z l = sumTree add (fun k => l.getD k z) (clog2 l.length) 0) ∧
  (∀ n : Nat, 0 < n → n ≤ 2 ^ clog2 n ∧ 2 ^ clog2 n < 2 * n)

/-- R131, R132, R134, R231: after at most 2^16 terms, the stack of a cell folded at the drain holds the canonical pairwise sum of the
terms in stream order. -/
def Obligations.StackHoldsTheCanonicalSum : Prop :=
  ∀ vs : List W40, vs ≠ [] → vs.length ≤ 65536 → (∀ v ∈ vs, w40Canon v = v) →
    cellFold false vs.length
        (vs.zipIdx.foldl (fun c v => cellTerm false v.2 v.1 c) { acc := 0, lv := List.replicate 16 0 })
      = sumTree w40Add (fun k => vs.getD k 0) (clog2 vs.length) 0

/-! Basins: the queue, loads and passes. -/

/-- R171, R180, R199, R203, R307: the check of the oldest unchecked item, and the marks. A SIGNAL at the head of the queue, a WAIT whose
counter has reached its target and an EXCHANGE behind idle rows complete; a completed item leaves the queue and increments its
counter. -/
def Claim.ItemsAndMarks : Prop :=
  (∀ s b i, basinRuns s b = true → ((getBasin s b).queue.any fun i => i.failed.isSome || (i.checked && isMark 3 i)) = false →
    findItem (getBasin s b) (fun i => !i.checked) = some i →
    let marked := updItem s b i.seq fun i => { i with checked := true }
    let checked := updItem s b i.seq fun i => { i with checked := true, since := s.ticks }
    (itemOk s b i = true → isPass i = false → exec (.basinItemCheck b) s = .next checked) ∧
    (itemOk s b i = true → isPass i = true → exec (.basinItemCheck b) s =
      .next (updBasin checked b fun x => groupsAfter x i.raw (profileOf s b (pProfile i.raw)))) ∧
    (itemOk s b i = false → exec (.basinItemCheck b) s = .next (itemFail marked b i.seq .badDesc))) ∧
  (∀ s b i rest, basinRuns s b = true → (getBasin s b).queue = i :: rest → i.checked = true →
    (∀ e ∈ i :: rest, e.failed = none) → isMark 0 i = true →
    let done := updBasin s b fun x => { x with
      queue := x.queue.filter fun e => e.seq != i.seq
      comp := if kCompEn i.raw then SMap.upd 0 x.comp (kCompCtr i.raw) (· + 1) else x.comp }
    (kNotify i.raw = false → exec (.signalMark b) s = .next done) ∧
    (kNotify i.raw = true → holdsJet s (basinCtx s b) (pNotifyJet i.raw) = false →
      exec (.signalMark b) s = .next (setBit done (oSpt b + 4) 9)) ∧
    (∀ n t, kNotify i.raw = true → holdsJet s (basinCtx s b) (pNotifyJet i.raw) = true →
      unitConnect done (spoutEp b) (pNotifyJet i.raw) (pNotifyChan i.raw) = (some n, t) →
      exec (.signalMark b) s = .next (updSpout t b fun y =>
        { y with notes := y.notes ++ [(n, slice (toLe 4 i.seq.toNat) 0 64)] }))) ∧
  (∀ s b i, basinRuns s b = true → findItem (getBasin s b) (isMark 1) = some i → i.checked = true →
    (∀ e ∈ (getBasin s b).queue, e.failed = none) → pathClear (getBasin s b) i.seq = true →
    let counter : Reg := SMap.get 0 (getBasin s (kBasin i.raw)).comp (kCounter i.raw)
    let reached := (counter - BitVec.ofNat 32 (kTarget i.raw)).toNat < 2 ^ 31
    (reached → exec (.waitMark b) s =
      .next (updBasin s b fun x => { x with queue := x.queue.filter fun e => e.seq != i.seq })) ∧
    (¬ reached → exec (.waitMark b) s = .next s)) ∧
  (∀ s b i, basinRuns s b = true → findItem (getBasin s b) (isMark 2) = some i → i.checked = true →
    (∀ e ∈ (getBasin s b).queue, e.failed = none) →
    let x := getBasin s b
    pathClear x i.seq = true → (itemsBefore x i.seq).all (fun e => !isPass e || e.started) = true →
    x.passes.all (·.full) = true → arrayIdle x = true → x.token = false → (itemsBefore x i.seq).any isLoad = false →
    (x.stOf (1 - x.front) ≠ .empty → exec (.exchange b) s = .next (updBasin s b fun x => { x with
      front := 1 - x.front, sel := 1 - x.sel, queue := x.queue.filter fun e => e.seq != i.seq })) ∧
    (x.stOf (1 - x.front) = .empty → exec (.exchange b) s = .next (itemFail s b i.seq .noTile)))

/-- R141, R142, R147, R168, R179, R182, R183, R199: LOAD starts into the back bank, starts
again at a parity failure of the load engine, and completes with the tile, its metadata and scales as
they stand in memory; a CRC that differs, malformed tags and malformed elements each end it with their status. -/
def Claim.TileLoads : Prop :=
  (∀ s b i,
    let x := getBasin s b
    let back := 1 - x.front
    basinRuns s b = true → findItem x (fun i => isLoad i && !i.started) = some i → i.checked = true → pathClear x i.seq = true →
    x.loading = none → x.token = false → x.retire = none →
    x.passes.all (fun p => pSparse p.raw == 0 || p.allChecked) = true →
    x.passes.all (fun p => p.bank != back || isOuter (pMode p.raw) || p.allChecked) = true →
    (itemsBefore x i.seq).all (fun e => !isPass e || e.started || (!pSwap e.raw && pSparse e.raw == 0)) = true →
    exec (.loadItem b) s = .next (updBasin s b fun x => { x with
      bank0 := if back = 0 then loadBank i.raw else x.bank0
      bank1 := if back = 0 then x.bank1 else loadBank i.raw
      queue := x.queue.map fun e => if e.seq = i.seq then { e with started := true } else e
      loading := some i.seq })) ∧
  (∀ s b i fs,
    let x := getBasin s b
    let c := basinCtx s b
    basinRuns s b = true → findItem x (fun i => some i.seq == x.loading) = some i →
    exec (.loadComplete b true fs) s = .next s ∧
    (∀ p, Claim.ReadFails fs s p → exec (.loadComplete b false fs) s = .next p) ∧
    (∀ p, Claim.Reads fs s p → readTile p c (loadBank i.raw) = none →
      exec (.loadComplete b false fs) s = .next (itemFail p b i.seq .badDesc)) ∧
    (∀ p k q, Claim.Reads fs s p → readTile p c (loadBank i.raw) = some (k, q) →
      let crcBad := lCrcCheck i.raw && k.crc.toNat != lExpCrc i.raw
      let tagsBad := lSparse i.raw != 0 && !tagsOk k
      (crcBad = true → exec (.loadComplete b false fs) s = .next (itemFail q b i.seq .sourceChanged)) ∧
      (crcBad = false → tagsBad = true → exec (.loadComplete b false fs) s = .next (itemFail q b i.seq .badMeta)) ∧
      (crcBad = false → tagsBad = false → bankMalformed k = true →
        exec (.loadComplete b false fs) s = .next (itemFail q b i.seq .badRow)) ∧
      (crcBad = false → tagsBad = false → bankMalformed k = false → exec (.loadComplete b false fs) s =
        .next (itemDone (updBasin (setBank q b (1 - (getBasin q b).front) fun _ => k) b fun x => { x with loading := none })
          b i.seq (lCompEn i.raw) (lCompCtr i.raw))))) ∧
  (∀ s c k t q, readTile s c k = some (t, q) → t.st = .ready ∧ t.rcd = k.rcd ∧ t.src = k.src ∧
    (isMx k.rcd.fmt = false → t.scales = []) ∧ (k.rcd.sparse = 0 → t.tags = []))

/-- R144, R145, R148, R199 to R202, R206: a pass starts when its bank is READY and those before it are full, with a SWAP exchanging the
banks; without a tile it ends with NO_TILE. It completes once its rows, its drain and its outputs are done: it leaves the queue,
its counter is incremented and its rows go to the ledger. A record that does not suit it, another scope in the step, or a
destination outside the context ends it with BAD_DESC (R194, R278, R281, R440). -/
def Claim.PassesStartAndComplete : Prop :=
  (∀ s b i,
    let x := getBasin s b
    let c := basinCtx s b
    let prof := profileOf s b (pProfile i.raw)
    let loadAhead := (itemsBefore x i.seq).any isLoad
    basinRuns s b = true → findItem x (fun i => isPass i && !i.started) = some i → i.checked = true → pathClear x i.seq = true →
    x.passes.all (·.full) = true → x.replay = [] → x.reloads = [] → x.retire = none →
    (∀ fs, noTile x i.raw loadAhead = true → exec (.passItem b fs) s = .next (itemFail s b i.seq .noTile)) ∧
    (∀ fs p, noTile x i.raw loadAhead = false → banksReady x i.raw loadAhead = true → turnOk x i.raw = true →
      Claim.ReadFails fs s p → exec (.passItem b fs) s = .next p) ∧
    (∀ fs p r pr sa pa sb q, noTile x i.raw loadAhead = false → banksReady x i.raw loadAhead = true → turnOk x i.raw = true →
      Claim.Reads fs s p → openRecord p b c prof = (r, pr) → readSigma pr c (fInA prof) = (sa, pa) →
      readSigma pa c (fInB prof) = (sb, q) →
      let unsuited := r ≠ [] ∧ recMatches prof r = false
      let outside := ∃ jc ∈ passConns i.raw prof, holdsJet q c jc.1 = false
      (unsuited → exec (.passItem b fs) s = .next (itemFail (setBit q (oSpt b + 4) 7) b i.seq .badDesc)) ∧
      (¬ unsuited → scopeOk q c prof = false → exec (.passItem b fs) s = .next (itemFail q b i.seq .badDesc)) ∧
      (¬ unsuited → scopeOk q c prof = true → outside →
        exec (.passItem b fs) s = .next (itemFail (setBit q (oSpt b + 4) 9) b i.seq .badDesc)) ∧
      (¬ unsuited → scopeOk q c prof = true → ¬ outside →
        exec (.passItem b fs) s = .next (startPass q b c i prof (routeOf s b (pProfile i.raw)) r sa sb)))) ∧
  (∀ s b c i prof route r sa sb,
    let x := getBasin s b
    let opened := openConns (noteScope s c prof) b (passConns i.raw prof)
    let y := getBasin (startPass s b c i prof route r sa sb) b
    let bank := if pSwap i.raw then 1 - x.sel else x.sel
    y.passes = x.passes ++ [{ seq := i.seq, raw := i.raw, bank, since := s.ticks, conns := opened.1 }] ∧ y.sel = bank ∧
    y.entry = entryClass (pMode i.raw) ∧ y.cursor = 0 ∧
    (isAccum (pMode i.raw) = true → pCont i.raw = false → y.acc = [] ∧ y.stack = [] ∧ y.terms = 0) ∧
    (isAccum (pMode i.raw) = true → pCont i.raw = true → y.acc = x.acc ∧ y.stack = x.stack ∧ y.terms = x.terms) ∧
    y.queue = x.queue.map fun e => if e.seq = i.seq then { e with started := true } else e) ∧
  (∀ s b p d fs, basinLive s b = true → (getBasin s b).passes.find? (passDone s b) = some p → findDrain s b p.seq = some d →
    (∀ q, Claim.ReadFails fs s q → exec (.passComplete b fs) s = .next q) ∧
    (∀ q, Claim.Reads fs s q → tooManyRecs q d = true → exec (.passComplete b fs) s = .next (itemFail q b p.seq .badDesc)) ∧
    (∀ q, Claim.Reads fs s q → tooManyRecs q d = false → exec (.passComplete b fs) s = .next (completePass q b p d))) ∧
  (∀ s b p d, d.replayStep = false → fScaleRec d.prof = 0xFFFF → rtEnable d.route = false → groupMember p.raw d.prof = false →
    pNotify p.raw = false → p.conns = [] → p.longsum = 0 → (∀ e ∈ (getBasin s b).queue, e.failed = none) →
    completePass s b p d = updBasin
      (updSpout (ledgerRecord s 0x010 (pRows p.raw) (toLe 1 b)) b fun x =>
        { x with passes := x.passes.filter fun e => e.seq != p.seq }) b fun x => { x with
          passes := x.passes.filter fun e => e.seq != p.seq
          queue := x.queue.filter fun e => e.seq != p.seq
          comp := if pCompEn p.raw then SMap.upd 0 x.comp (pCompCtr p.raw) (· + 1) else x.comp })

/-- R204, R205, R541: an item at the head of the queue that fails halts the queue: its status and number stand in the basin, its flag is
set, and the kernel of its context is aborted. -/
def Claim.ItemFailureAbortsTheKernel : Prop :=
  ∀ s b c i rest st, b < 6 →
    let x := getCtx s c
    let addr := x.evqBase + 64 * (x.evqTail.toNat % 2 ^ x.evqLog2)
    (getBasin s b).lease = some c → (getBasin s b).queue = i :: rest → st ≠ .ok →
    x.st = .running → x.window = none → x.suspending = false → (x.evqTail - x.evqHead).toNat < 2 ^ x.evqLog2 →
    inWindow s c addr 64 = true →
    let r := itemFail s b i.seq st
    (getBasin r b).lastStatus = st.code ∧ (getBasin r b).lastSeq = i.seq ∧ (getBasin r b).queue = [] ∧
    bitB (regOf r (oBsn b + 0x08)) (st.code - 1) = true ∧ (getCtx r c).st = .halted ∧ (getCtx r c).haltReason = 1

/-! Basins: rows. -/

/-- R59, R157, R187, R188, R191, R314, R317, R323: a segment is held at its port; a part is taken from the ports that its schedule
names, in the journal and with its credits returned, and a completed unit enters the array; a masked block and a marker enter as
rows without data; a feed that waits beyond the limit is reported once. -/
def Claim.RowsEnterTheArray : Prop :=
  (∀ s k m, s.jets.msgs[k]? = some m → m.dst / 4096 = 1 → inTurn s k m = true →
    let taken : State := { s with jets := { s.jets with msgs := s.jets.msgs.eraseIdx k } }
    let held := updRowPort taken (m.dst % 4096) fun q =>
      { q with held := q.held ++ [{ jet := m.src, idx := m.srcIdx, data := m.data }] }
    (m.srcIdx = goneIdx → exec (.rowSegmentArrival k) s = .next taken) ∧
    (m.srcIdx ≠ goneIdx → ∃ t, exec (.rowSegmentArrival k) s = .next t ∧
      ((∀ e ∈ s.jets.threads, e.2.wait = .none) → t = bump held (oRun + 0x18) 1))) ∧
  (∀ s b p d fs, acceptingRun s b = some (p, d) →
    (∀ q, Claim.ReadFails fs s q → exec (.rowAccept b fs) s = .next q) ∧
    (∀ q, Claim.Reads fs s q →
      (pMask p.raw = false ∨ p.partCount ≠ 0 → exec (.rowAccept b fs) s = .next ((acceptPart q b p).getD q)) ∧
      (∀ e r, p.partCount = 0 → maskAt q d.ctx p.raw p.cursor = (e, r) →
        (entryBad d.prof e = true → exec (.rowAccept b fs) s = .next (itemFail r b p.seq .badRow)) ∧
        (entryBad d.prof e = false → e % 65536 = 0 →
          let n := Nat.min (32 - p.cursor % 32) (pRows p.raw - p.cursor)
          exec (.rowAccept b fs) s = .next (enterRows r b p n n
            [{ seq := p.seq, row := p.cursor, data := [], zeros := n, masked := true, segNo := p.segNo, bank := p.bank }])) ∧
        (entryBad d.prof e = false → e % 65536 ≠ 0 → exec (.rowAccept b fs) s = .next ((acceptPart r b p).getD q))))) ∧
  (∀ s t b p, b < 6 → findRun (getBasin s b) p.seq = some p → acceptPart s b p = some t →
    let j := pSched p.raw (p.units % pSchedLen p.raw)
    let ports := List.range (portsPerPart p.raw)
    let data := ports.flatMap fun n => ((segmentOf s (16 * b + n) j).map (·.data)).getD []
    let slot := sliceBase (58 + b) + 1024 * ((getBasin s b).journal % 32768)
    (∀ n ∈ ports, (segmentOf s (16 * b + n) j).isSome = true) ∧
    (∀ a, byteAt t a = byteAt (writePhys s slot data) a) ∧
    counterOf t (oBsn b + 0x48) = (counterOf s (oBsn b + 0x48) + 1) % 2 ^ 64 ∧
    (∀ x, (getBasin s b).slotPhase < 64 → bubbleRun (ratioOf s (8 + b)) 8 (getBasin s b).slotPhase = x →
      counterOf t (oBsn b + 0x50) = (counterOf s (oBsn b + 0x50) + x.1) % 2 ^ 64) ∧
    (getBasin t b).journal = (getBasin s b).journal % 32768 + 1 ∧
    ((getBasin t b).array = if p.partCount + 1 = partsPerUnit p.raw
      then (getBasin s b).array ++ unitRows p (segOf t b p.seq) (p.parts ++ data) else (getBasin s b).array)) ∧
  (∀ s b p d h fs, acceptingRun s b = some (p, d) → segmentOf s (16 * b) (scheduledJet p) = some h →
    pZskip p.raw = true → p.partCount = 0 → isMarker h.data = true → (maskAt s d.ctx p.raw p.cursor).1 % 65536 ≠ 0 →
    (∀ q, Claim.ReadFails fs s q → exec (.zeroRowMarker b fs) s = .next q) ∧
    (∀ r, Claim.Reads fs s r → segmentFor r b p 1 = none → exec (.zeroRowMarker b fs) s = .next r) ∧
    (∀ r q, Claim.Reads fs s r → segmentFor r b p 1 = some q →
      let taken := takeSegment q (16 * b) (scheduledJet p)
      (spansOf r p d h.data = none → exec (.zeroRowMarker b fs) s = .next (itemFail taken b p.seq .badRow)) ∧
      (∀ spans, spansOf r p d h.data = some spans →
        let rows := (spans.map (·.2.1)).sum
        let fed := (spans.map fun x => if x.2.2 then 0 else x.2.1).sum
        let q := updRun (journalWrite taken b h.data) b p.seq fun p => { p with segSlots := p.segSlots + 1 }
        let q := bump q (oBsn b + 0x68) fed
        exec (.zeroRowMarker b fs) s = .next (enterRows q b p (rows / termsPerUnit p.raw) rows (spans.map fun x =>
          { seq := p.seq, row := x.1, data := [], zeros := x.2.1, masked := x.2.2, marker := true
            segNo := segOf q b p.seq, bank := p.bank }))))) ∧
  (∀ s b p, basinRuns s b = true → currentRun (getBasin s b) = some p → p.stalled = false → p.win = false →
    regOf s (oBsn b + 0x3C) % 1024 * 50000000 < s.ticks - p.since →
    exec (.feedStall b) s = .next (ledgerRecord (postEvent (setBit (updRun s b p.seq fun p => { p with stalled := true })
      (oBsn b + 0x08) 8) (basinCtx s b) 0x08 0xFFFFFFFF ([1, 0] ++ toLe 2 b)) 0x01A ((s.ticks - p.since) / 50000000)
        (toLe 1 b ++ toLe 2 (p.units % pSchedLen p.raw))))

/-- R127, R128, R150, R156, R159 to R163, R228, R230: the oldest row in the array crosses it, and its output elements are the
canonical sums of the exact products; a row that passes its checks leaves for the spout, a check that fails again in
one place calls for a spare line and sends the rows again, and a third replay or a lost journal is S3. -/
def Claim.RowsLeaveTheArray : Prop :=
  (∀ s b row p d fs, basinLive s b = true → spoutHeld s b = false → (getBasin s b).array.find? (fun r => !r.atSpout) = some row →
    findRun (getBasin s b) row.seq = some p → findDrain s b row.seq = some d →
    (∀ q, Claim.ReadFails fs s q → exec (.outputRowAtSpout b fs) s = .next q) ∧
    (∀ q, Claim.Reads fs s q → exec (.outputRowAtSpout b fs) s = .next (rowAtSpout q b p d row))) ∧
  (∀ s b row p d, row.masked = false → row.zeros = 0 → isAccum (pMode p.raw) = false → fConform d.prof = false → isMx (pFmtRow p.raw) = false → isOuter (pMode p.raw) = false →
    let x := getBasin s b
    let n := (x.array.takeWhile (·.atSpout)).length
    rowAtSpout s b p d row = updBasin s b fun y => { y with array := y.array.modify n fun r =>
      { r with atSpout := true,
               out := arrayOut (fun _ => none) p.raw (x.bank row.bank) (x.bank (1 - row.bank)) row.data row.row } }) ∧
  (∀ raw front back data r j, pMode raw = 0 → pSparse raw = 0 → isMx (pFmtRow raw) = false → j < 512 →
    let leaf (i : Nat) : W40 := toSum (pIsInt raw)
      ((elemVal (pFmtRow raw) (elemAt (pFmtRow raw) data i)).mul (bankVal front i j))
    (arrayOut (fun _ => none) raw front back data r)[j]? = some (pairwise (sumAdd (pIsInt raw)) 0
      ((List.range (tileHeight front.rcd)).map leaf))) ∧
  (∀ s b row rest p d, basinLive s b = true → (getBasin s b).drains = [] → (getBasin s b).array = row :: rest →
    findRun (getBasin s b) row.seq = some p → findDrain s b row.seq = some d → row.atSpout = true →
    let malformed := row.zeros = 0 ∧ rowMalformed p.raw ((getBasin s b).bank row.bank) row.data = true
    let spout (q : State) : State := raise q 0x023 2 b (.basin b)
    let before := p.fails.filter fun f => f.1 == row.segNo
    let accums (r : ArrRow) : Prop := ∀ q, findRun (getBasin s b) r.seq = some q → isAccum (pMode q.raw) = true
    let again (r : ArrRow) : ArrRow := { r with atSpout := false, out := [] }
    (∀ n fs, spoutHeld s b = false → malformed → exec (.rowChecked b (.good n) fs) s = .next (itemFail s b p.seq .badRow)) ∧
    (∀ n fs q, spoutHeld s b = false → ¬ malformed → Claim.ReadFails fs s q → exec (.rowChecked b (.good n) fs) s = .next q) ∧
    (∀ n fs q, spoutHeld s b = false → ¬ malformed → Claim.Reads fs s q →
      (n = 0 → exec (.rowChecked b (.good n) fs) s = .next (rowGood q b p d row)) ∧
      (n = 1 → exec (.rowChecked b (.good n) fs) s = .next (rowGood (spout q) b p d row)) ∧
      (2 ≤ n → exec (.rowChecked b (.good n) fs) s = .next (raise (spout q) 0x069 2 b (.basin b)))) ∧
    (∀ res fs, checkPassed res = false → placeUsed (getBasin s b) res = true →
      let same := locOf res ≠ none ∧ ∃ f ∈ before, f.2 = locOf res
      (¬ same → 2 ≤ before.length →
        exec (.rowChecked b res fs) s = .next (raise (raise s 0x020 1 b (.basin b)) 0x067 1 b (.basin b))) ∧
      (same ∨ before.length < 2 → ∃ t, exec (.rowChecked b res fs) s = .next t ∧ (getBasin t b).array = [] ∧
        (same → (getBasin t b).retire = locOf res ∧ (getBasin t b).subst = true) ∧
        (¬ same → (getBasin t b).retire = (getBasin s b).retire) ∧
        ((∀ r ∈ row :: rest, ¬ accums r) → (getBasin t b).replay = (row :: rest).map again) ∧
        (isAccum (pMode p.raw) = true → (getBasin t b).replay = ((getBasin s b).seg ++ row :: rest).map again)))) ∧
  (∀ s b fs shadow,
    let x := getBasin s b
    let terms := x.replay.any fun r => (findRun x r.seq).any fun p => isAccum (pMode p.raw)
    let sent (x : Basin) : Basin := { x with array := x.array ++ x.replay, replay := [], subst := false }
    let lost (q : State) : State := raise q 0x067 1 b (.basin b)
    basinLive s b = true → x.replay ≠ [] → x.reloads = [] → x.retire = none →
    (terms = true → exec (.rowReplay b fs) s = .next s) ∧ (terms = false → exec (.segmentReplay b fs shadow) s = .next s) ∧
    (∀ q, memChecks fs s = (false, q) →
      (terms = false → exec (.rowReplay b fs) s = .next (lost q)) ∧
      (terms = true → exec (.segmentReplay b fs shadow) s = .next (lost q))) ∧
    (∀ q, memChecks fs s = (true, q) →
      (terms = false → exec (.rowReplay b fs) s = .next (updBasin q b sent)) ∧
      (terms = true → shadow = false → exec (.segmentReplay b fs shadow) s = .next (lost q)) ∧
      (terms = true → shadow = true → exec (.segmentReplay b fs shadow) s = .next (updBasin q b fun x =>
        sent { x with acc := x.shAcc, stack := x.shStack, terms := x.shTerms })))) ∧
  (∀ s b, basinLive s b = true → (getBasin s b).token = true →
    ((getBasin s b).array.any (fun r => r.token && !r.atSpout) || (getBasin s b).replay.any (·.token)) = false →
    exec (.tokenExit b) s = .next (updBasin s b fun x => { x with
      front := x.sel, token := false, array := x.array.map fun r => { r with token := false } }))

/-- R134, R143, R152, R154, R161, R165 to R167: a drain sends the folded rows one after the other and ends the accumulation; a bank is read
again from its source and stops with SOURCE_CHANGED when its CRC-32C differs; a failing line is replaced by a spare, and a basin
stops at a row boundary and goes on with both banks read again. -/
def Obligations.DrainsBanksAndSpares : Prop :=
  (∀ s b p d, basinLive s b = true → spoutHeld s b = false → drainingRun (getBasin s b) = some p →
    findDrain s b p.seq = some d →
    (p.drain < 512 → exec (.drain b) s = .next (updBasin s b fun x => { x with
      passes := x.passes.map fun e => if e.seq = p.seq then { e with drain := e.drain + 1 } else e
      drains := x.drains ++ [(p.seq, p.drain, drainRow (fConform d.prof) p.raw (getBasin s b) p.drain)] })) ∧
    (512 ≤ p.drain → exec (.drain b) s = .next s)) ∧
  (∀ raw k i j, j < 512 → (drainRow false raw k i)[j]? =
    some (cellFold (pIsInt raw) k.terms (getCell k.acc k.stack (i * 512 + j)))) ∧
  (∀ s b p, basinLive s b = true → drainingRun (getBasin s b) = some p → p.drainOk = 512 →
    exec (.drainComplete b) s = .next (updBasin s b fun x => { x with
      passes := x.passes.map fun e => if e.seq = p.seq then { e with drained := true } else e
      acc := [], stack := [], terms := 0 })) ∧
  (∀ s b k rest fs, basinLive s b = true → (getBasin s b).reloads = k :: rest → (getBasin s b).retire = none →
    let bank := (getBasin s b).bank k
    let left (q : State) : State := updBasin q b fun x => { x with reloads := rest }
    (∀ q, Claim.ReadFails fs s q → exec (.bankReload b fs) s = .next q) ∧
    (∀ q, Claim.Reads fs s q → bank.st ≠ .ready ∨ (getBasin s b).passes.any (·.win) = true →
      exec (.bankReload b fs) s = .next (left q)) ∧
    (∀ p, Claim.Reads fs s p → bank.st = .ready → (getBasin s b).passes.any (·.win) = false →
      (readTile (left p) (basinCtx s b) bank = none → exec (.bankReload b fs) s = .next (sourceChanged (left p) b k)) ∧
      (∀ t q, readTile (left p) (basinCtx s b) bank = some (t, q) →
        (t.crc = bank.crc → exec (.bankReload b fs) s = .next (setBank q b k fun _ => t)) ∧
        (t.crc ≠ bank.crc → exec (.bankReload b fs) s = .next (sourceChanged q b k))))) ∧
  (∀ s b loc shadow, basinLive s b = true → (getBasin s b).retire = some loc →
    let x := getBasin s b
    let accum := x.replay.any fun r => (findRun x r.seq).any fun p => isAccum (pMode p.raw)
    let kind := loc / 2 ^ 20
    let saved := if accum then wrCtx s (basinCtx s b) (accSaveAt s b) (cellBytes x.shAcc x.shStack) else s
    let retired (isRow : Bool) (n : Nat) : State := raise (setBit (updBasin saved b fun x => { x with
      rowsRetired := if isRow then x.rowsRetired ++ [n] else x.rowsRetired
      colsRetired := if isRow then x.colsRetired else x.colsRetired ++ [n]
      retire := none, reloads := [0, 1]
      passes := x.passes.map fun p => { p with substituted := p.substituted || !p.allChecked } }) (oBsn b + 0x08) 6)
        0x041 1 b (.basin b)
    let none' : State := raise s 0x068 1 b (.basin b)
    (accum = true → shadow = false → exec (.basinSubstitution b shadow) s = .next none') ∧
    (accum = false ∨ shadow = true →
      (kind < 3 → x.rowsRetired.length < 8 → exec (.basinSubstitution b shadow) s = .next (retired true (loc % 2 ^ 20 / 1024))) ∧
      (kind < 3 → 8 ≤ x.rowsRetired.length → x.colsRetired.length < 8 →
        exec (.basinSubstitution b shadow) s = .next (retired false (loc % 1024))) ∧
      (kind = 3 → x.rowsRetired.length < 8 → exec (.basinSubstitution b shadow) s = .next (retired true (loc % 1024))) ∧
      (kind = 3 → 8 ≤ x.rowsRetired.length → exec (.basinSubstitution b shadow) s = .next none') ∧
      (3 < kind → x.colsRetired.length < 8 → exec (.basinSubstitution b shadow) s = .next (retired false (loc % 1024))) ∧
      (3 < kind → 8 ≤ x.colsRetired.length → exec (.basinSubstitution b shadow) s = .next none') ∧
      (8 ≤ x.rowsRetired.length → 8 ≤ x.colsRetired.length → exec (.basinSubstitution b shadow) s = .next none'))) ∧
  (∀ s b c, b < 6 → (getBasin s b).lease = some c → unitsRun s = true → mustYield s c = true → (getBasin s b).stopped = false →
    atBoundary (getBasin s b) = true → exec (.basinPreempt b) s = .next (stopBasin s b)) ∧
  (∀ s b c, b < 6 → (getBasin s b).lease = some c → unitsRun s = true → (getBasin s b).stopped = true →
    (getCtx s c).st = .running → (getCtx s c).saved = false → mustYield s c = false →
    exec (.basinResume b) s = .next (updBasin s b fun x => { x with stopped := false, loadPending := false, reloads := [0, 1] }))

/-! Spouts. -/

/-- R193, R195, R262, R269, R292, R295, R296, R326: side rows, row stores, phase 2, delivery to memory and weirs, and the held profile
and route writes. -/
def Obligations.SpoutEvents : Prop :=
  (∀ s b row d p fs, basinLive s b = true → (getSpout s b).passes.find? (wantsSide s b row) = some d →
    findRun (getBasin s b) d.seq = some p →
    (∀ q, Claim.ReadFails fs s q → exec (.sideRowRead b row fs) s = .next q) ∧
    (∀ q, Claim.Reads fs s q →
      let n := outElems p.raw ((getBasin q b).bank p.bank).rcd.unpacked
      let r := rdCtx q d.ctx (fSide d.prof + row * fSideStride d.prof)
        (sideBytes (fSideFmt d.prof) (if isGatedBwd (fFunc d.prof) then 2 * n else n))
      exec (.sideRowRead b row fs) s = .next (pumpRows b d.seq d.waiting.length
        (updDrain r.2 b d.seq fun d => { d with side := SMap.put [] d.side row r.1 })))) ∧
  (∀ s b p d n, n < 2 → basinRuns s b = true → currentRun (getBasin s b) = some p → findDrain s b p.seq = some d →
    groupMember p.raw d.prof = true → fColseg d.prof = 0 → groupIdx s b p.seq = none →
    let used := ((getSpout s b).groups.filter (holdsStore (getSpout s b))).map (·.store)
    n ∉ used → (∀ m < n, m ∈ used) →
    exec (.rowStoreAcquire b) s = .next (updSpout s b fun x => { x with groups := x.groups ++
      [{ store := n, func := fFunc d.prof, count := fColCount d.prof, rows := pRows p.raw, next := 1, prof := d.prof,
         members := [p.seq] }] })) ∧
  (∀ s b g x m d fs, basinRuns s b = true → spoutHeld s b = false → (getSpout s b).groups[g]? = some x → x.members.head? = some m →
    findDrain s b m = some d → x.next = x.count → x.phase2 < x.rows → SMap.get 0 x.segsIn x.phase2 = x.count →
    (∀ q, Claim.ReadFails fs s q → exec (.rowKernelPhase2 b g fs) s = .next q) ∧
    (∀ q, Claim.Reads fs s q → exec (.rowKernelPhase2 b g fs) s = .next (phase2 q b g x d x.phase2))) ∧
  (∀ s b k u d, basinLive s b = true → (getSpout s b).units[k]? = some u → findDrain s b u.seq = some d →
    (((getSpout s b).units.take k).any fun v => v.seq == u.seq) = false →
    let gone (t : State) : State :=
      let t := updSpout t b fun x => { x with units := x.units.eraseIdx k }
      if u.topk then bump t (oSpt b + 0x40) 1 else t
    (∀ a, u.dest = .mem a → exec (.spoutDelivery b k) s = .next (gone (wrCtx s d.ctx a u.data))) ∧
    (∀ a fmt, u.dest = .weir a fmt → exec (.spoutDelivery b k) s =
      .next (gone { s with mem := { s.mem with weirReqs := s.mem.weirReqs ++ unitLines s b d u a fmt } })) ∧
    (∀ j n i, u.dest = .jet j n → unitConn s b u = some i → connReady s (spoutEp b) i = false →
      exec (.spoutDelivery b k) s = .next s) ∧
    (∀ j n i, u.dest = .jet j n → unitConn s b u = some i → connReady s (spoutEp b) i = true →
      let x := getConn s (spoutEp b) i
      let piece := (u.data.drop (1024 * u.sent)).take 1024
      ∃ t, exec (.spoutDelivery b k) s = .next t ∧ getConn t (spoutEp b) i = { x with credits := x.credits - 1 } ∧
        t.jets.msgs = s.jets.msgs ++
          [{ src := spoutEp b, srcIdx := i, dst := x.dst, ch := x.ch, tag := 2048 * u.sent + n % 2048, thread := 0
             data := padTo 64 piece }] ∧
        (getSpout t b).units = if u.data.length ≤ 1024 * (u.sent + 1) then (getSpout s b).units.eraseIdx k
          else (getSpout s b).units.modify k fun u => { u with sent := u.sent + 1 })) ∧
  (∀ s b k p data slot route, (getSpout s b).heldWrites[k]? = some (route, p, data, slot) →
    (((getSpout s b).heldWrites.take k).any fun h => h.1 == route && h.2.1 == p) = false →
    profileFree (getBasin s b) p = true → (getBasin s b).lease.isSome = true → unitsRun s = true →
    ((getCtx s (basinCtx s b)).cmds.any fun m => slotBefore m.slot slot && unmovedNames m b p) = false →
    let applied := updSpout s b fun x => { x with
      heldWrites := x.heldWrites.eraseIdx k
      profiles := if route then x.profiles else SMap.put [] x.profiles p data
      routes := if route then SMap.put [] x.routes p data else x.routes }
    exec (.profileApplied b k) s = .next (if route then s else completeCmd applied (basinCtx s b) slot) ∧
    exec (.routeApplied b k) s = .next (if route then completeCmd applied (basinCtx s b) slot else s))

/-! Weirs. -/

/-- R42, R359, R364, R365, R366, R369, R373: an admitted request is applied to its line, in the way of its mode; a rejected one applies
nothing and aborts the kernel; a repeated computation is S1, and a second failure of one S3. The next plain request of a line
counts; an ordered one is applied when its tag is due, and else staged; a lone exact part is the result, a first part of a pair is kept in its slot, and the second
completes the node in part order. -/
def Claim.WeirRequests : Prop :=
  (∀ s k r fs, s.mem.weirReqs[k]? = some r → r.mode ≤ 2 → unitsRun s = true →
    (∀ e ∈ s.mem.weirReqs.take k, ¬ (e.ctx = r.ctx ∧ e.src = r.src ∧ e.va = r.va)) →
    let row (n : Nat) := if r.mode = 0 then Instr.weirPlainRequest k n fs
      else if r.mode = 1 then Instr.weirOrderedRequest k n fs else Instr.weirExactPartial k n fs
    let stack := bits r.addr 13 11
    let again (t : State) : State := raise (setBit t oWeir 10) 0x022 5 stack .all
    (∀ q n, Claim.ReadFails fs s q → exec (row n) s = .next q) ∧
    (∀ p, Claim.Reads fs s p →
      let q : State := { p with mem := { p.mem with weirReqs := p.mem.weirReqs.eraseIdx k } }
      exec (row 0) s = .next (weirApply q r) ∧ exec (row 1) s = .next (again (weirApply q r)) ∧
      (∀ n, 2 ≤ n → exec (row n) s = .next (raise (again (weirEnd q r)) 0x069 5 stack .all)))) ∧
  (∀ q r cause, weirCause q r (regionAt q r.ctx r.va) = some cause → weirApply q r = weirEnd (weirReject q r.ctx cause
    (bits r.addr 13 11) (((regionAt q r.ctx r.va).map fun g => rgEntry g.raw).getD 0) r.src) r) ∧
  (∀ q r pa, r.mode = 0 → weirTarget q r = some (pa, false) → regionAt q r.ctx r.va = none → weirApply q r =
    weirEnd (bump (writePhys q pa (weirLine r.op r.ty (fun _ => .rne) (readPhys q pa 64) r.data)) (oWeir + 0x10) 1) r) ∧
  (∀ q r pa g, weirTarget q r = some (pa, false) → regionAt q r.ctx r.va = some g →
    r.op = rgOp g.raw → r.ty = rgType g.raw → r.mode = rgMode g.raw →
    SMap.get false g.lines (lineIndex g r.va) = false →
    let i := lineIndex g r.va
    let w := workAt g.raw i
    let n := rgContrib g.raw
    (r.mode = 0 →
      let had := leNat (readUn q g.ctx w 4)
      let old := if rgIdentity g.raw = true ∧ had = 0 then identityLine r.op r.ty else readPhys q pa 64
      let t := bump (writePhys q pa (weirLine r.op r.ty (fun _ => .rne) old r.data)) (oWeir + 0x10) 1
      weirApply q r = weirEnd
        (if had + 1 = n then lineDone t g i (lineClasses t pa r.ty) else writeUn t g.ctx w (toLe 4 (had + 1))) r) ∧
    (r.mode = 1 → r.tag < n →
      let h := readUn q g.ctx w 64
      let due := leAt h 0 2
      let staged := leAt h 32 32
      let more := patch h 2 (toLe 2 (leAt h 2 2 + 1))
      due ≤ r.tag → bitB staged r.tag = false →
      (due < r.tag → weirApply q r = weirEnd (writeUn (writeUn q g.ctx (w + 64 * (1 + r.tag)) r.data) g.ctx w
        (patch more 32 (toLe 32 (staged ||| 2 ^ r.tag)))) r) ∧
      (due = r.tag →
        let old := if rgIdentity g.raw = true ∧ due = 0 then identityLine r.op r.ty else readPhys q pa 64
        let t := bump (writePhys q pa (weirLine r.op r.ty (orderedRnd q g i due) old r.data)) (oWeir + 0x10) 1
        (due + 1 = n → weirApply q r = weirEnd (lineDone t g i (lineClasses t pa r.ty)) r) ∧
        (due + 1 < n → bitB (leNat (readUn t g.ctx (w + 32) 32)) (due + 1) = false → weirApply q r = weirEnd (writeUn t g.ctx w
          (patch (patch more 0 (toLe 2 (due + 1))) 32 (toLe 32 (staged / 2 ^ (due + 1) * 2 ^ (due + 1))))) r))) ∧
    (r.mode = 2 →
      let p := leAt r.data 60 4
      let bm := w + 64 * (1 + p / 512)
      p < n → partSeen q g i p = false →
      let counted := writeUn (bump q (oWeir + 0x10) 1) g.ctx w (toLe 4 (leNat (readUn (bump q (oWeir + 0x10) 1) g.ctx w 4) + 1))
      let noted := writeUn counted g.ctx bm (toLe 64 (leNat (readUn counted g.ctx bm 64) ||| 2 ^ (p % 512)))
      let vals := (partVals r.data).map fun v => if r.ty = 5 then v else w40Canon v
      let sib := p ^^^ 1
      let other := readUn noted g.ctx (slotAt g.raw i sib) 64
      let pair (v w : List W40) := List.zipWith (sumAdd (rgType g.raw == 5)) v w
      (n = 1 → weirApply q r = weirEnd (partialResult noted g i vals) r) ∧
      (1 < n → sib < n → leAt other 60 4 ≠ 2 ^ 31 →
        weirApply q r = weirEnd (writeUn noted g.ctx (slotAt g.raw i p) (slotLine vals 0)) r) ∧
      (n = 2 → leAt other 60 4 = 2 ^ 31 → weirApply q r = weirEnd (partialResult
        (writeUn noted g.ctx (slotAt g.raw i sib + 60) (toLe 4 0)) g i
        (if p < sib then pair vals (partVals other) else pair (partVals other) vals)) r)))

/-- R359, R364: the element operations. Integers add modulo 2^32 and 2^64 and compare signed; a binary32 and a BF16 sum is the exact sum
rounded, with the saturation of R244; a NaN gives the canonical NaN, and −0 is less than +0. -/
def Claim.WeirElements : Prop :=
  (∀ rm x c, weirElem 0 2 rm x c = (x + c) % 2 ^ 32 ∧ weirElem 0 3 rm x c = (x + c) % 2 ^ 64) ∧
  (∀ rm x c, x < 2 ^ 32 → c < 2 ^ 32 →
    (BitVec.ofNat 32 (weirElem 1 2 rm x c)).toInt = min (BitVec.ofNat 32 x).toInt (BitVec.ofNat 32 c).toInt ∧
    (BitVec.ofNat 32 (weirElem 2 2 rm x c)).toInt = max (BitVec.ofNat 32 x).toInt (BitVec.ofNat 32 c).toInt) ∧
  (∀ rm x c, x < 2 ^ 64 → c < 2 ^ 64 →
    (BitVec.ofNat 64 (weirElem 1 3 rm x c)).toInt = min (BitVec.ofNat 64 x).toInt (BitVec.ofNat 64 c).toInt ∧
    (BitVec.ofNat 64 (weirElem 2 3 rm x c)).toInt = max (BitVec.ofNat 64 x).toInt (BitVec.ofNat 64 c).toInt) ∧
  (∀ rm x c, weirElem 0 0 rm x c = (narrowF f32 rm ((f32.decode x).add (f32.decode c))).1 ∧
    weirElem 0 1 rm x c = (narrowF bf16 rm ((bf16.decode x).add (bf16.decode c))).1) ∧
  (∀ op rm x c, op = 1 ∨ op = 2 → x < 2 ^ 32 → c < 2 ^ 32 → nan32 x = true ∨ nan32 c = true →
    weirElem op 0 rm x c = 0x7FC00000) ∧
  (∀ rm x c, x < 2 ^ 32 → c < 2 ^ 32 → nan32 x = false → nan32 c = false →
    (key32 x < key32 c → weirElem 1 0 rm x c = x ∧ weirElem 2 0 rm x c = c) ∧
    (key32 c < key32 x → weirElem 1 0 rm x c = c ∧ weirElem 2 0 rm x c = x)) ∧
  (∀ rm, weirElem 1 0 rm 0 0x80000000 = 0x80000000 ∧ weirElem 1 0 rm 0x80000000 0 = 0x80000000 ∧
    weirElem 2 0 rm 0 0x80000000 = 0 ∧ weirElem 2 0 rm 0x80000000 0 = 0)

/-- R368, R386: a completed line counts, with its classes; the region's last line completes it, hands it to the sluices and, with
NOTIFY, sends its message; a NONFINITE element poisons the step. -/
def Claim.WeirLinesComplete : Prop :=
  ∀ s g i cs, getRegion s (rgEntry g.raw) = some g →
    let t := lineDone s g i cs
    let whole := g.done + 1 = rgLines g.raw
    ∃ h, getRegion t (rgEntry g.raw) = some h ∧ h.raw = g.raw ∧ h.done = g.done + 1 ∧ h.counts = addCls g.counts cs ∧
      (h.complete = true ↔ whole) ∧ (∀ k, SMap.get false h.lines k = (k == i || SMap.get false g.lines k)) ∧
      t.mem.notes = s.mem.notes ++ (if whole ∧ rgNotify g.raw = true then
        [{ ctx := g.ctx, sluice := false, jet := rgJet g.raw, ch := rgChan g.raw, data := regionMsg h }] else []) ∧
      t.sluice.operands = s.sluice.operands ++ (if whole then operandBlocks s g.ctx (rgEntry g.raw) else []) ∧
      (some Cls.nonfinite ∈ cs → (getCtx t g.ctx).poison = true ∧ bitB (regOf t oWeir) 9 = true) ∧
      (some Cls.nonfinite ∉ cs → getCtx t g.ctx = getCtx s g.ctx)

/-- R399, R609: a message of a weir or a sluice opens its connection, is sent once that has a credit, and frees the connection with
the last one for the channel; a jet that the context does not lease refuses it. -/
def Obligations.UnitMessagesAreDelivered : Prop :=
  ∀ s k n, s.mem.notes[k]? = some n → unitsRun s = true →
    (∀ m ∈ s.mem.notes.take k, ¬ (m.ep = n.ep ∧ m.jet = n.jet ∧ m.ch = n.ch)) →
    let q : State := { s with mem := { s.mem with notes := s.mem.notes.eraseIdx k } }
    let others := ∃ m ∈ s.mem.notes.eraseIdx k, m.ep = n.ep ∧ m.jet = n.jet ∧ m.ch = n.ch
    let leased := n.jet < 4096 ∧ bitB (getCtx s n.ctx).lease.terraces (n.jet / 512) = true
    (¬ leased → n.ep = 0x3000 → exec (.notifyDelivery k) s =
      .next (if n.sluice then setBit q (oSlc + 0x04) 13 else setBit q oWeir 11)) ∧
    (¬ leased → n.ep ≠ 0x3000 → exec (.notifyDelivery k) s = .next q) ∧
    (leased → holdsJet s n.ctx n.jet = false → exec (.notifyDelivery k) s = .next s) ∧
    (leased → holdsJet s n.ctx n.jet = true → unitReady s n.ep n.jet n.ch = false →
      exec (.notifyDelivery k) s = .next (unitOpen s n.ep n.jet n.ch)) ∧
    (leased → holdsJet s n.ctx n.jet = true → unitReady s n.ep n.jet n.ch = true →
      let sent := unitSend s n.ep n.jet n.ch 0x8000 n.data
      let t : State := { sent with mem := { sent.mem with notes := s.mem.notes.eraseIdx k } }
      (others → exec (.notifyDelivery k) s = .next t) ∧
      (¬ others → exec (.notifyDelivery k) s = .next (unitClose t n.ep n.jet n.ch)))

/-! Memory protection and HBM maintenance. -/

/-- R343, R345, R351, R353, R354: the patrol scrub of a jet's memory, of a slice and of a stack; wrong bits of a word, or wrong symbols
of a line. None has no effect, a corrected word or line is S0 in its unit, and an uncorrectable one is S3. The corrections of a
stack are counted by lane until its last line is scrubbed. -/
def Claim.PatrolScrubs : Prop :=
  (∀ s j o wrong, s.boot.locked = true → j < 4096 → o < 0x80000 →
    let a := jlmBase j + o
    let bits := (wrong.filter (· < 72)).eraseDups.length
    (bits = 0 → exec (.jlmScrub a wrong) s = .next s) ∧
    (bits = 1 → exec (.jlmScrub a wrong) s = .next (raise s 0x002 0 (physJet s j) (.terrace (j / 512)))) ∧
    (2 ≤ bits → exec (.jlmScrub a wrong) s = .next (raise s 0x060 0 (physJet s j) (.terrace (j / 512))))) ∧
  (∀ s n o wrong, s.boot.locked = true → n < 64 → o < 0x2000000 →
    let a := sliceBase n + o
    let bits := (wrong.filter (· < 72)).eraseDups.length
    (bits = 0 → exec (.cisternScrub a wrong) s = .next s) ∧
    (bits = 1 → exec (.cisternScrub a wrong) s =
      .next (raise (bump (setBit s (oCis + 0x100) 0) (oCis + 0x108) 1) 0x003 3 n (.slice n))) ∧
    (2 ≤ bits → exec (.cisternScrub a wrong) s = .next (raise (setBit s (oCis + 0x100) 1) 0x061 3 n (.slice n)))) ∧
  (∀ s a wrongData wrongCheck, s.boot.locked = true → a < 0x6000000000 → a / 0x4000 ≠ 0x6000000000 / 0x4000 - 1 →
    let wrong := wrongData.filter (· < 64) ++ (wrongCheck.filter (· < 8)).map (64 + ·)
    let n := bits a 13 11
    let pc := (linePlace s a).1
    let seen (k : Nat) := raise (bump (setBit s (oHbm + 0x30) 0) (oHbm + 0x40) k) 0x004 4 n .all
    let data := (wrong.filter (· < 64)).eraseDups
    let fixed := decodes (markedLane (getStack s n) pc) wrong
    (fixed = some 0 → exec (.hbmScrub a wrongData wrongCheck) s = .next s) ∧
    (∀ k, 0 < k → fixed = some k →
      exec (.hbmScrub a wrongData wrongCheck) s = .next (data.foldl (fun s e => laneCorrected s n pc (e / 2)) (seen k))) ∧
    (fixed = none → exec (.hbmScrub a wrongData wrongCheck) s = .next (hbmLost s n pc))) ∧
  (∀ wrong marked,
    let ws := (wrong.filter (· < 72)).eraseDups
    let others (l : Nat) : Nat := (ws.filter fun e => e / 2 != l).length
    (marked = none → decodes marked wrong = if ws.length ≤ 3 then some ws.length else none) ∧
    (∀ l, marked = some l → decodes marked wrong = if others l ≤ 2 then some ws.length else none)) ∧
  (∀ s n, s.boot.locked = true → n < 8 → exec (.hbmScrub (0x6000000000 - 0x4000 + 0x800 * n + 0x7C0) [] []) s =
    .next (updStack (bump s (oHbm + 0x58) 1) n fun x => { x with corr := [] }))

/-- R352, R355 to R358: a lane that reaches the limit is marked and its pseudo-channel retired, as is one with twice the limit spread over
its lanes; with no spare left that is S3. The lines are copied one by one, until the last, and no byte changes. A burst that fails
is repeated, each time S0; after three repetitions a read is lost and a write retires the pseudo-channel. -/
def Claim.PseudoChannelRetirement : Prop :=
  (∀ s stack pc lane, stack < 8 → pc < 32 → lane < 128 →
    let k := pc * 128 + lane
    let limit := regOf s (oHbm + 0x28) % 65536
    let x := getStack s stack
    let n := SMap.get 0 x.corr k + 1
    let q := updStack s stack fun x => { x with corr := SMap.put 0 x.corr k n }
    (x.retiredPc = some pc → laneCorrected s stack pc lane = q) ∧
    (x.retiredPc ≠ some pc → n = limit → k ∉ x.marked → laneCorrected s stack pc lane = retirePc
      (setBit (updStack q stack fun x => { x with marked := x.marked ++ [k] }) (oHbm + 0x30) 2) stack pc) ∧
    (x.retiredPc ≠ some pc → n ≠ limit → pcCorrections (getStack q stack) pc = 2 * limit →
      laneCorrected s stack pc lane = retirePc q stack pc) ∧
    (x.retiredPc ≠ some pc → n ≠ limit → pcCorrections (getStack q stack) pc ≠ 2 * limit → laneCorrected s stack pc lane = q)) ∧
  (∀ s stack pc,
    ((getStack s stack).retiredPc = some pc → retirePc s stack pc = s) ∧
    (spareLeft s stack = true → s.recov.st = .normal → s.recov.queue.length < 16 →
      let t := retirePc s stack pc
      (getStack t stack).retiredPc = some pc ∧ (getStack t stack).migrating = true ∧ (getStack t stack).copied = 0 ∧
      t.mem.cells = s.mem.cells ∧ ∃ r, r.code = 0x042 ∧ t.recov.queue = s.recov.queue ++ [r]) ∧
    ((getStack s stack).retiredPc ≠ some pc → spareLeft s stack = false → retirePc s stack pc = raise (setBit s (oHbm + 0x30) 5) 0x063 4 stack .all)) ∧
  (∀ s stack wrong, stack < 8 → unitsRun s = true → (getStack s stack).migrating = true →
    let n := (getStack s stack).copied + 1
    let line := (getStack s stack).copied * 0x4000 + stack * 0x800 + (getStack s stack).retiredPc.getD 0 * 0x40
    (∀ q, hbmFault s line wrong = (true, q) → n < 23592960 → exec (.pcLineCopy stack wrong) s =
      .next (let t := updStack q stack fun x => { x with copied := n }
             { t with mem := { t.mem with migrateStack := stack, migrateLines := n } })) ∧
    (∀ q, hbmFault s line wrong = (false, q) → n < 23592960 → exec (.pcLineCopy stack wrong) s = .next q) ∧
    (∀ q, hbmFault s line wrong = (true, q) → n = 23592960 → ∃ t, exec (.pcRetirementComplete stack wrong) s = .next t ∧
      (getStack t stack).migrating = false ∧ (getStack t stack).retiredPc = (getStack q stack).retiredPc ∧
      t.mem.cells = q.mem.cells ∧ bitB (regOf t (oHbm + 0x30)) 3 = true ∧ t.mem.migrateLines = 23592960) ∧
    (∀ q, hbmFault s line wrong = (false, q) → n = 23592960 → exec (.pcRetirementComplete stack wrong) s = .next q)) ∧
  (∀ s stack pc write again, stack < 8 → pc < 32 → s.boot.locked = true →
    let x := getStack s stack
    let counted := raise (bump (setBit s (oHbm + 0x30) 1) (oHbm + 0x50) 1) 0x006 4 stack .all
    let k := 2 * pc + if write then 1 else 0
    let before := SMap.get 0 x.burstFails k
    let fails (n : Nat) := updStack counted stack fun x => { x with burstFails := SMap.put 0 x.burstFails k n }
    (again = false → exec (.hbmParityRetry stack pc write again) s = .next (fails 0)) ∧
    (again = true → before < 2 → exec (.hbmParityRetry stack pc write again) s = .next (fails (before + 1))) ∧
    (again = true → 2 ≤ before → exec (.hbmParityRetry stack pc write again) s =
      .next (if write then retirePc (fails 0) stack pc else hbmLost (fails 0) stack pc)))

/-- R350, R526: what the device reads from its stacks: the temperatures, the reports of on-die ECC and ECS, one S0 event each, and the
refresh management requests. A stack whose interface does not train ends the boot in FAILED with code 0x0A. -/
def Claim.StackReadings : Prop :=
  (∀ s stack temp high, stack < 8 → temp < 256 → exec (.hbmTempRead stack temp high) s =
    .next (updStack s stack fun x => { x with temp, tcrHigh := high })) ∧
  (∀ s stack, stack < 8 → exec (.rfmRequest stack) s = .next (updStack s stack fun x => { x with rfm := x.rfm + 1 })) ∧
  (∀ s counts, ∃ t, exec (.ecsRead counts) s = .next t ∧ t.mem.cells = s.mem.cells ∧
    (∀ n < 8, (getStack t n).ecs = counts.getD n 0) ∧
    counterOf t (oHbm + 0x48) = (counterOf s (oHbm + 0x48) + ((List.range 8).map fun n => counts.getD n 0).sum) % 2 ^ 64 ∧
    counterOf t (oCfg + 0x120) = (counterOf s (oCfg + 0x120) + ((List.range 8).map fun n => counts.getD n 0).sum) % 2 ^ 64) ∧
  (∀ s stack, s.boot.st = .apply → stack < 8 → ∃ t, exec (.hbmTrain stack) s = .next t ∧ t.boot.st = .failed ∧
    (if s.boot.slot = 0 then t.boot.codeA = 0x0A else t.boot.codeB = 0x0A))

/-! Sluices. -/

/-- R394, R396, R397, R449: a released commit ends with its outcome: 0 advances the step counter and is counted COMMITTED, an odd one counts
POISONED, 2 and 3 count MISMATCH; unless it is 0 no block and no root changes. An output computed again is S1, twice S3. -/
def Obligations.CommitOutcomes : Prop :=
  (∀ s ctx m r fs, s.sluice.commits.find? (fun m => m.ctx == ctx && m.arrived) = some m → releaseOf s m = some r → unitsRun s = true →
    (commitWaits s m r = true → ∀ n, exec (.commitBarrierRelease ctx n fs) s = .next s) ∧
    (commitWaits s m r = false →
      (∀ q n, Claim.ReadFails fs s q → exec (.commitBarrierRelease ctx n fs) s = .next q) ∧
      (∀ q, Claim.Reads fs s q →
        exec (.commitBarrierRelease ctx 0 fs) s = .next (applyCommit q m r) ∧
        exec (.commitBarrierRelease ctx 1 fs) s = .next (raise (applyCommit q m r) 0x024 6 0 .all) ∧
        (∀ n, 2 ≤ n → exec (.commitBarrierRelease ctx n fs) s = .next (raise (raise q 0x024 6 0 .all) 0x069 6 0 .all))))) ∧
  (∀ s m r,
    let poisoned := bitB r.flags 0
    let mismatched := bitB r.flags 1 || r.min != r.max
    let outcome := (if poisoned then 1 else 0) + (if mismatched then 2 else 0)
    let t := applyCommit s m r
    (getCtx t m.ctx).outcome = outcome ∧ (getCtx t m.ctx).outcomeValid = true ∧
    (getCtx t m.ctx).step = (if outcome = 0 then (getCtx s m.ctx).step + 1 else (getCtx s m.ctx).step) ∧
    counterOf t (oSlc + 0x20) = (counterOf s (oSlc + 0x20) + (if outcome = 0 then 1 else 0)) % 2 ^ 64 ∧
    counterOf t (oSlc + 0x28) = (counterOf s (oSlc + 0x28) + (if poisoned then 1 else 0)) % 2 ^ 64 ∧
    counterOf t (oSlc + 0x30) = (counterOf s (oSlc + 0x30) + (if mismatched then 1 else 0)) % 2 ^ 64 ∧
    (outcome ≠ 0 → t.sluice.blocks = s.sluice.blocks ∧ t.sluice.roots = s.sluice.roots ∧ t.sluice.snaps = s.sluice.snaps ∧
      t.sluice.buddy = s.sluice.buddy))

/-- R385, R398: within a committed update a frozen element keeps its master, its state and its copy, as does one that a non-finite master
or a non-finite gradient feeds, which is counted NONFINITE. -/
def Obligations.ElementsThatKeepTheirValue : Prop :=
  ∀ c d step h sc (u : Upd) e,
    let w := readMaster u.s c d e
    let g := sourceElem u.s c (sourceOf u.s c (bkGrad d)) e u.t.ovf
    let r := updElem c d step h sc u e
    (frozen u.s c d e = true → r.s = u.s ∧ r.t = { u.t with frozen := u.t.frozen + 1 }) ∧
    (frozen u.s c d e = false → w.val.isFin = false → r.s = u.s ∧ r.t.masterBad = true ∧
      r.t.cls = updAt u.t.cls 5 (· + 1) ∧ r.t.elems = u.t.elems) ∧
    (frozen u.s c d e = false → w.val.isFin = true → (F32.val g.1).isFin = false → bkPrecond d = false →
      r.s = u.s ∧ r.t.regionBad = true ∧ r.t.cls = updAt u.t.cls 5 (· + 1) ∧ r.t.elems = u.t.elems)

/-- R386, R400, R401, R404, R405: an operand array is written from the gradient region, with 0 for frozen elements, and notified; the next
piece of a snapshot goes to the host or to a device; a checkpoint is called for after the steps or the seconds of
SLC_BUDDY_CFG; the next piece of a buddy copy goes to the buddy, and with the last one the slot is valid and the other is next. -/
def Claim.OperandsSnapshotsAndCopies : Prop :=
  (∀ s k c n b fs p, s.sluice.operands[k]? = some (c, n) → unitsRun s = true → Claim.Reads fs s p → getBlock p c n = some b →
    let q : State := { p with sluice := { p.sluice with operands := p.sluice.operands.eraseIdx k } }
    let d := b.raw
    let r := sourceOf p c (bkGrad d)
    (bkPrecond d = true → r ≠ [] → srcValid r (bkElems d) = true → regionDone p c (bkGrad d) = true →
      exec (.operandReady k fs) s = .next (sluiceNote ((List.range (bkElems d)).foldl (fun s e =>
        let zero := frozen s c d e = true ∧ bkStatFrozen d = false
        writeArr s c (bkOperand d + 2 * e) (toLe 2 (if zero then 0 else bfBits (sourceElem s c r e 0).1))) q)
        c n d 0 (getCtx s c).step.toNat)) ∧
    (regionDone p c (bkGrad d) = false → exec (.operandReady k fs) s = .next q)) ∧
  (∀ s k z n a bs rest fs p, s.sluice.snaps[k]? = some z → z.left = (n, a, bs) :: rest → unitsRun s = true → Claim.Reads fs s p →
    let q : State := { p with sluice := { p.sluice with
      snaps := if rest = [] then p.sluice.snaps.eraseIdx k else p.sluice.snaps.modify k fun z => { z with left := rest } } }
    (z.dev = none → inWindow p z.ctx a bs.length = true → exec (.snapshot k fs) s =
      .next { q with out := p.out ++ [.hostWrite ((portOf p z.ctx).getD 0) a bs] }) ∧
    (∀ d, z.dev = some d → exec (.snapshot k fs) s =
      .next { q with links := { p.links with queue := p.links.queue ++ [(none, jobWrite p z.ctx d a bs)] } }) ∧
    (z.dev = none → inWindow p z.ctx a bs.length = false → exec (.snapshot k fs) s = .next
      (hostFault { p with sluice := { p.sluice with snaps := p.sluice.snaps.eraseIdx k } } z.ctx))) ∧
  (∀ s q k z n a bs rest fs, s.sluice.snaps[k]? = some z → z.left = (n, a, bs) :: rest → unitsRun s = true →
    Claim.ReadFails fs s q → exec (.snapshot k fs) s = .next q) ∧
  (∀ s,
    let due := regOf s (oSlc + 8) % 256 ≤ s.sluice.sinceSteps ∨
      regOf s (oSlc + 8) / 256 % 1024 ≤ s.ledger.opsec - s.sluice.sinceSec
    slotBytes s ≠ 0 →
    (due → exec .checkpointRequest s = .next { s with sluice := { s.sluice with request := true } }) ∧
    (¬ due → exec .checkpointRequest s = .next s)) ∧
  (∀ s b o off data rest fs, s.sluice.buddy = some b → b.left = (o, off, data) :: rest → unitsRun s = true →
    let waits := (rest = [] ∨ (off ≠ 0 ∧ b.begun = false)) ∧ copyAcked s = false
    (waits → exec (.buddyCopy fs) s = .next s) ∧
    (∀ q, ¬ waits → Claim.ReadFails fs s q → exec (.buddyCopy fs) s = .next q) ∧
    (∀ p, ¬ waits → Claim.Reads fs s p →
      let pkt := bareWrite p (buddyDev p) 0 (reserveBase p + b.slot * slotBytes p + off) data
      let q := bump { p with links := { p.links with queue := p.links.queue ++ [(none, pkt)] } } (oSlc + 0x68)
        ((data.length + 63) / 64 * 64)
      (rest ≠ [] → exec (.buddyCopy fs) s = .next { q with sluice := { p.sluice with
        buddy := some { b with left := rest, begun := b.begun || off != 0 } } }) ∧
      (rest = [] → b.slot = 0 → exec (.buddyCopy fs) s = .next { q with sluice := { p.sluice with
        buddy := none, nextSlot := 1, slot0Valid := true, slot0Step := b.step } }) ∧
      (rest = [] → b.slot = 1 → exec (.buddyCopy fs) s = .next { q with sluice := { p.sluice with
        buddy := none, nextSlot := 0, slot1Valid := true, slot1Step := b.step } })))

/-- R388 to R392, R401, R406: a root window at the head of its queue starts with no earlier COMMIT, no pass, no open group and no other
window of the computation, and without a PRECOND block ends with BAD_DESC. It then starts a pass while the computation has not
converged and its budget admits one, takes the pass's rows, and takes the pass's result once no copy has still to read the block;
in the end it leaves the basin as a lease grant does. -/
def Claim.RootWindows : Prop :=
  (∀ s b i rest fs,
    let x := getBasin s b
    x.queue = i :: rest → basinRuns s b = true → i.checked = true → i.failed = none → isMark 3 i = true →
    (i.started = false → windowClear s b i = false → exec (.rootWindow b fs) s = .next s) ∧
    (i.started = false → windowClear s b i = true → windowDesc s b i = none →
      exec (.rootWindow b fs) s = .next (itemFail s b i.seq .badDesc)) ∧
    (i.started = false → windowClear s b i = true → windowDesc s b i ≠ none →
      exec (.rootWindow b fs) s = .next (updItem s b i.seq fun i => { i with started := true })) ∧
    (∀ q, i.started = true → x.passes = [] → Claim.Reads fs s q → exec (.rootWindow b fs) s = .next (windowPass q b i)) ∧
    (∀ p ps, i.started = true → x.passes = p :: ps →
      let goes := p.allChecked = false ∧ p.full = false ∧ x.replay = [] ∧ x.reloads = [] ∧ x.retire = none ∧ x.subst = false
      (∀ q, p.allChecked = true → Claim.Reads fs s q → exec (.rootWindow b fs) s = .next (windowPassEnd q b i)) ∧
      (∀ q, goes → Claim.Reads fs s q → exec (.rootWindow b fs) s = .next (windowRowIn q b i p)) ∧
      (∀ q, p.allChecked = true ∨ goes → Claim.ReadFails fs s q → exec (.rootWindow b fs) s = .next q) ∧
      (p.allChecked = false → ¬ goes → exec (.rootWindow b fs) s = .next s))) ∧
  (∀ s b i, (windowClear s b i = true ↔
    (∀ m ∈ (getCtx s (basinCtx s b)).cmds, cmdOp m = 0x0C → 2 ^ 31 ≤ (BitVec.ofNat 32 i.slot - BitVec.ofNat 32 m.slot).toNat) ∧
    (getBasin s b).colOpen = none ∧ (∀ g ∈ (getBasin s b).groups, g.2.opened = false) ∧ (getBasin s b).passes = [] ∧
    ∀ n < 6, n ≠ b → basinCtx s n = basinCtx s b → ∀ j ∈ (getBasin s n).queue, isMark 3 j = true → j.started = true →
      ¬ (winBlock j = winBlock i ∧ winRight j = winRight i))) ∧
  (∀ s b i d r, windowDesc s b i = some d → getRoot s (basinCtx s b) (winBlock i) (winRight i) = some r →
    let front := (getBasin s b).front
    (r.converged = true ∨ winBudget i < i.used + r.size → windowPass s b i = windowDone s b i) ∧
    (r.converged = false → i.used + r.size ≤ winBudget i → ∃ t, windowPass s b i = t ∧
      (getBasin t b).passes = (getBasin s b).passes ++
        [{ seq := i.seq, raw := windowRaw r.size, bank := front, since := s.ticks, win := true }] ∧
      (getBasin t b).bank front = windowBank d r ∧ t.sluice = s.sluice ∧ t.mem = s.mem)) ∧
  (∀ s b i, windowDesc s b i = none ∨ getRoot s (basinCtx s b) (winBlock i) (winRight i) = none → windowPass s b i = windowDone s b i) ∧
  (∀ s b i d r p q, windowDesc s b i = some d → getRoot s (basinCtx s b) (winBlock i) (winRight i) = some r →
    findRun (getBasin s b) p.seq = some p → segmentFor s b p 1 = some q →
    let data := windowRow d r p.cursor
    let t := windowRowIn s b i p
    (getBasin t b).array = (getBasin s b).array ++
      [{ seq := p.seq, row := p.cursor, data, segNo := segOf t b p.seq, bank := p.bank }] ∧
    (∀ a, byteAt t a = byteAt (writePhys s (sliceBase (58 + b) + 1024 * ((getBasin s b).journal % 32768)) data) a)) ∧
  (∀ s b i d r, copyHolds s (basinCtx s b) (winBlock i) = false → windowDesc s b i = some d →
    getRoot s (basinCtx s b) (winBlock i) (winRight i) = some r → windowPassEnd s b i =
      rootResult (dropRuns (ledgerRecord s 0x010 r.size (toLe 1 b)) b fun q => q == i.seq) (basinCtx s b) (winBlock i) (winRight i)
        (rootPass d r 0)) ∧
  (∀ s b i, copyHolds s (basinCtx s b) (winBlock i) = true → windowPassEnd s b i = s) ∧
  (∀ s b (i : Item), windowDone s b i = itemDone (updBasin s b fun x => { x with
    bank0 := {}, bank1 := {}, front := 0, sel := 0, token := false, acc := [], stack := [], terms := 0, shAcc := []
    shStack := [], shTerms := 0, groups := [], colOpen := none, entry := 3, cursor := 0 }) b i.seq false 0)

/-! Link ports. -/

/-- R416: the header flit of a packet spells its fields: what is read from it is what was written. -/
def Obligations.PacketHeadersRoundTrip : Prop :=
  ∀ h : Hdr, h.dstDev < 2 ^ 16 → h.srcDev < 2 ^ 16 → h.dstEp < 2 ^ 16 → h.srcEp < 2 ^ 16 → h.kind < 2 ^ 8 → h.hops < 2 ^ 8 →
    h.level < 2 ^ 8 → h.len < 2 ^ 24 → h.job < 2 ^ 16 → h.tag < 2 ^ 16 → h.channel < 2 ^ 8 → h.addr < 2 ^ 48 → h.wop < 2 ^ 8 →
    h.seqtag < 2 ^ 16 → h.coll < 2 ^ 32 → hdrOf h.bytes = h ∧ h.bytes.length = 64

/-- R410, R411: a link block of 20 flit slots and a control field, with its CRC, is read as it was sent: no field and no flit is lost. -/
def Obligations.LinkBlocksRoundTrip : Prop :=
  ∀ b : LBlock, b.seq < 2 ^ 9 → b.ack < 2 ^ 9 → b.vc < 8 → b.crVc < 8 → b.crCount < 32 → b.flits.length ≤ 20 →
    (∀ f ∈ b.flits, f.length = 64) → blockOf (blockBytes b) = some b ∧ (blockBytes b).length = 1285

/-- R414, R427: training ends on 8 lanes or on 4 in DISCOVERY, with a clean replay and the credits of the plan's division, or in DOWN
with TRAIN_FAIL; a DOWN port sends training frames again and stays DOWN. No other port changes. -/
def Claim.LinkTraining : Prop :=
  (∀ s p lanes, p < 32 → (getLink s p).st = .training ∨ (getLink s p).st = .down → lanes = 8 ∨ lanes = 4 →
    ∃ t, exec (.linkTrainingComplete p lanes) s = .next t ∧
      let x := getLink t p
      x.st = .discovery ∧ (x.half = true ↔ lanes = 4) ∧ x.reason = 0 ∧ x.txSeq = 0 ∧ x.rxSeq = 0 ∧ x.unacked = [] ∧
      (∀ v < 6, SMap.get 0 x.credits v = 64 * leAt s.links.idPart (16 + 2 * v) 2) ∧
      (lanes = 4 → bitB (regOf t (oNl + 0x40 * p + 0x10)) 3 = true) ∧ (∀ q, q ≠ p → getLink t q = getLink s q) ∧
      t.mem = s.mem ∧ t.jets = s.jets ∧ t.host = s.host) ∧
  (∀ s p, p < 32 → (getLink s p).st = .training ∨ (getLink s p).st = .down →
    exec (.linkTrainingComplete p 0) s = .next (updLink s p fun x => { x with st := .down, reason := 8 })) ∧
  (∀ s p, p < 32 → (getLink s p).st = .down → exec (.downRetry p) s = .next (updLink s p fun x => { x with half := false }))

/-- R426, R428 to R430: a DISCOVERY packet carries the record; a port decides once it holds its neighbour's record and has received one
with SEEN 1, by the first line of the table that applies; a port that has not decided in time is reported missing. -/
def Claim.LinkDiscovery : Prop :=
  (∀ s p, p < 32 → (getLink s p).st = .discovery →
    let r := discoveryRec s p
    exec (.discoverySend p) s = .next (sendOn s p
      { hdr := ({ dstDev := 0x7FFF, srcDev := s.links.devId, dstEp := 0x6000, srcEp := 0x6000, kind := 9, len := 1 } : Hdr).bytes
        payload := r }) ∧
    leAt r 0 8 = Config.serial.toNat ∧ leAt r 8 2 = s.links.devId % 2 ^ 16 ∧ leAt r 10 1 = p ∧
    slice r 13 16 = slice s.links.planHash 0 16 ∧ leAt r 29 1 = (if (getLink s p).gotRec then 1 else 0)) ∧
  (∀ s p r rest, p < 32 → (getLink s p).st = .discovery → (getLink s p).records = r :: rest →
    let q := updLink s p fun x => { x with
      records := rest, gotRec := true, gotSeen := x.gotSeen || leAt r 29 1 == 1
      nbrDev := leAt r 8 2, nbrPort := leAt r 10 1, serial := leAt r 0 8 }
    ((getLink s p).gotSeen = false → leAt r 29 1 ≠ 1 → exec (.discoveryRec p) s = .next q) ∧
    (lowerFirst q p r = true → exec (.discoveryRec p) s = .next s) ∧
    ((getLink s p).gotSeen = true ∨ leAt r 29 1 = 1 → lowerFirst q p r = false → ∃ t, exec (.discoveryRec p) s = .next t ∧
      (getLink t p).st = (verdict q p r).st ∧ (getLink t p).reason = (verdict q p r).reason ∧
      (getLink t p).planPort = (verdict q p r).plan ∧ (getLink t p).remapped = (verdict q p r).remapped ∧
      (∀ k, k ≠ p → getLink t k = getLink s k) ∧ t.mem = s.mem ∧ t.host = s.host)) ∧
  (∀ s p r,
    let serial := leAt r 0 8 = Config.serial.toNat
    let version := leAt r 11 1 = 1
    let hash := slice r 13 16 = slice s.links.planHash 0 16
    let expects (q : Nat) : Prop := q < 32 ∧ portRole s q ≠ 0 ∧ expectation (planPort s q) = (leAt r 8 2, leAt r 10 1)
    let same (q : Nat) : Prop := portSet (planPort s p) ≠ 0 ∧ portSet (planPort s q) = portSet (planPort s p)
    (serial → verdict s p r = ⟨.inert, 6, p, false⟩) ∧
    (¬ serial → ¬ version → verdict s p r = ⟨.held, 2, p, false⟩) ∧
    (¬ serial → version → ¬ hash → verdict s p r = ⟨.held, 3, p, false⟩) ∧
    (¬ serial → version → hash → expects p → verdict s p r = ⟨.active, 0, p, false⟩) ∧
    (∀ q, ¬ serial → version → hash → ¬ expects p → expects q → same q → serves s p q = false →
      (∀ k < q, ¬ (expects k ∧ same k ∧ serves s p k = false)) → verdict s p r = ⟨.active, 0, q, true⟩) ∧
    (∀ q, ¬ serial → version → hash → ¬ expects p → (∀ k, ¬ (expects k ∧ same k ∧ serves s p k = false)) → expects q →
      serves s p q = true → verdict s p r = ⟨.held, 4, p, false⟩) ∧
    (∀ q, ¬ serial → version → hash → ¬ expects p → expects q → ¬ same q → (∀ k, expects k → serves s p k = false) →
      (∀ k, ¬ (expects k ∧ same k)) → verdict s p r = ⟨.held, 1, p, false⟩) ∧
    (¬ serial → version → hash → (∀ k, ¬ expects k) → verdict s p r = ⟨.inert, 5, p, false⟩)) ∧
  (∀ s p, p < 32 → (getLink s p).st = .training ∨ (getLink s p).st = .down ∨ (getLink s p).st = .discovery →
    regOf s (oNl + 0x808) % 1024 * 50000000 ≤ s.ticks - (getLink s p).enabledAt →
    exec (.discoveryTimeout p) s = .next (updLink s p fun x => { x with reason := 7 }))

/-- R411, R412, R413, R415, R423: a block with the next SEQ is accepted, any other block is asked for again; an ACK covers the blocks up
to its SEQ; a timeout sends every outstanding block again; retraining, due after 8 sends of a block or 2^16 corrected symbols of a
lane in a second, keeps them, on 8 lanes or on 4, and its failure or the loss of the signal takes an ACTIVE port down, which names the neighbour lost when a job runs; a VC without credits is reported once. -/
def Obligations.LinkBlocksAndReplay : Prop :=
  (∀ s p d b, p < 32 → sendsBlocks (getLink s p) = true → blockOf d = some b → b.flits.length ≤ 20 → b.vc < 6 → b.crVc < 6 →
    (b.seq = (getLink s p).rxSeq → ∃ t, exec (.linkBlockReceive p (.good d)) s = .next t ∧
      (getLink t p).rxSeq = ((getLink s p).rxSeq + 1) % 512 ∧
      counterOf t (oNl + 0x40 * p + 0x38) = (counterOf s (oNl + 0x40 * p + 0x38) + b.flits.length) % 2 ^ 64 ∧
      t.mem = s.mem ∧ t.jets = s.jets) ∧
    (b.seq ≠ (getLink s p).rxSeq →
      exec (.linkBlockReceive p (.good d)) s = .next (pump (updLink s p fun x => { x with nak := true }) p true))) ∧
  (∀ s p d n, p < 32 → sendsBlocks (getLink s p) = true →
    let noted := updLink s p fun x => { x with
      syms := x.syms.filter (fun e => decide (s.ticks - e.1 < 50000000)) ++ [(s.ticks, n)] }
    exec (.linkBlockReceive p (.corrected d n)) s =
      exec (.linkBlockReceive p (.good d)) (bump noted (oNl + 0x40 * p + 0x20) n.sum)) ∧
  (∀ s p d, p < 32 → sendsBlocks (getLink s p) = true → blockOf d = none → exec (.linkBlockReceive p (.good d)) s =
    .next (pump (updLink (setBit s (oNl + 0x40 * p + 0x10) 1) p fun x => { x with nak := true }) p true)) ∧
  (∀ s p, p < 32 → sendsBlocks (getLink s p) = true → exec (.linkBlockReceive p .bad) s =
    .next (pump (updLink (bump s (oNl + 0x40 * p + 0x28) 1) p fun x => { x with nak := true }) p true)) ∧
  (∀ (xs ys : List Sent) u ack, u.block.seq = ack → (∀ x ∈ xs, x.block.seq ≠ ack) → ackBlocks (xs ++ u :: ys) ack = ys) ∧
  (∀ us ack, (∀ u ∈ us, u.block.seq ≠ ack) → ackBlocks us ack = us) ∧
  (∀ s p, p < 32 → sendsBlocks (getLink s p) = true →
    let again (q : State) : State := (getLink q p).unacked.foldl (fun q u =>
      raise (setBit (bump (emit q (.linkBlock p (blockBytes u.block))) (oNl + 0x40 * p + 0x18) 1) (oNl + 0x40 * p + 0x10) 0)
        0x007 8 p .all)
      (updLink q p fun x => { x with unacked := x.unacked.map fun u => { u with sends := u.sends + 1 } })
    let cleared (h : Bool) := updLink s p fun x => { x with
      syms := [], half := h, unacked := x.unacked.map fun u => { u with sends := 0 } }
    exec (.replayTimeout p) s = .next (again s) ∧
    (retrainDue s p = false → ∀ n, exec (.linkRetrain p n) s = .next s) ∧
    (retrainDue s p = true →
      exec (.linkRetrain p 8) s = .next (again (setBit (cleared false) (oNl + 0x40 * p + 0x10) 2)) ∧
      exec (.linkRetrain p 4) s = .next (raise (again (setBits (cleared true) (oNl + 0x40 * p + 0x10) 0xC)) 0x043 8 p .all) ∧
      exec (.linkRetrain p 0) s = .next (if (getLink s p).st = .active then portDown s p 8 else s))) ∧
  (∀ s p, retrainDue s p = true ↔ (∃ u ∈ (getLink s p).unacked, 8 ≤ u.sends) ∨ ∃ l < 8, 65536 <
    (((getLink s p).syms.filter fun e => decide (s.ticks - e.1 < 50000000)).map fun e => e.2.getD l 0).sum) ∧
  (∀ s p, p < 32 → (getLink s p).st = .active ∨ (getLink s p).st = .inert ∨ (getLink s p).st = .held →
    exec (.signalLoss p) s = .next (portDown s p 0)) ∧
  (∀ s p reason,
    let x := getLink s p
    let lost := x.st = .active ∧ jobRuns s = true
    let q := updLink (cutPort s p) p fun x => { x.clean p with
      st := .down, half := false, reason, excluded := x.excluded || (x.st == .active && jobRuns s) }
    (lost → portDown s p reason = fabricEvent q p [x.nbrDev]) ∧ (¬ lost → portDown s p reason = q)) ∧
  (∀ s p v us, p < 32 → v < 6 → sendsBlocks (getLink s p) = true → SMap.get [] (getLink s p).txq v ≠ [] →
    SMap.get 0 (getLink s p).credits v = 0 → regOf s (oNl + 0x80C) % 65536 < us →
    (v ∉ (getLink s p).stalled → exec (.creditStall p v us) s = .next (ledgerRecord
      (setBit (updLink s p fun x => { x with stalled := x.stalled ++ [v] }) (oNl + 0x40 * p + 0x10) 4) 0x01C us
        (toLe 1 p ++ toLe 1 v))) ∧
    (v ∈ (getLink s p).stalled → exec (.creditStall p v us) s = .next s))

/-! Packets. -/

/-- R415, R420 to R422: packet `k` leaves the router once no earlier packet of its flow waits there and no other packet holds its output
channel: to this device, giving its room in the input port's buffer back, or through one of its entry's ACTIVE ports, with HOPS one
less and its dateline level; one without hops or without a way on is discarded, with its flits as they come. -/
def Claim.PacketRouting : Prop :=
  (∀ s k src x, s.links.queue[k]? = some (src, x) → (∀ e ∈ s.links.queue.take k, flowOf e.2 ≠ flowOf x) →
    let h := hdrOf x.hdr
    let q : State := { s with links := { s.links with queue := s.links.queue.eraseIdx k } }
    let r := match src with
      | none => q
      | some p => pump (updLink q p fun y => { y with
          giveBack := SMap.upd 0 y.giveBack x.vc (· + (1 + x.payload.length / 64)) }) p false
    let gone := bump (discardPkt q src x) (oNl + 0x830) 1
    let mine := s.links.hasId = true ∧ h.dstDev = s.links.devId
    let goes := src = none ∨ h.hops ≠ 0
    (¬ goes → exec (.packetRoute k) s = .next (setBit gone (oNl + 0x810) 1)) ∧
    (goes → mine → exec (.packetRoute k) s = .next { r with links := { r.links with inbox := r.links.inbox ++ [(src, x)] } }) ∧
    (goes → ¬ mine → outPort q x = none → exec (.packetRoute k) s = .next (
      let d := setBit gone (oNl + 0x810) 0
      let valid := copyWrite q h = true ∨ bitB (routeEntry q h.dstDev) 46 = true
      if valid ∧ ((created d).any fun c => (getCtx d c).jobStarted && (getCtx d c).job == h.job) = true then
        fabricEvent d 0 [h.dstDev] else d)) ∧
    (∀ p, goes → ¬ mine → outPort q x = some p →
      let held := vcHeld s p (vcOf (hdrOf (sentHdr q src x)))
      (held = true → exec (.packetRoute k) s = .next s) ∧ (held = false → exec (.packetRoute k) s = .next (leave q src x p)))) ∧
  (∀ s x,
    let h := hdrOf x.hdr
    let e := routeEntry s h.dstDev
    copyWrite s h = false →
    (bitB e 46 = true → outPort s x = (routeList s e)[h.srcDev % (routeList s e).length]?) ∧
    (bitB e 46 = false → outPort s x = none) ∧
    (∀ src, sentHdr s src x = patch (patch x.hdr 9 (toLe 1 (if src = none then h.hops else h.hops - 1))) 10
      (toLe 1 (if bitB e 45 then 1 else h.level)))) ∧
  (∀ s x, copyWrite s (hdrOf x.hdr) = true → s.recov.st = .normal →
    outPort s x = (copyList s)[(hdrOf x.hdr).addr / 0x100000 % (copyList s).length]?) ∧
  (∀ s x p,
    let v := vcOf (hdrOf (sentHdr s none x))
    leave s none x p = pump (updLink s p fun y => { y with
      txq := SMap.upd [] y.txq v fun l => l ++ (sentHdr s none x :: flitsOf x.payload).map fun d => { data := d } }) p false) ∧
  (∀ s i x p, (leave s (some i) x p).links.streams = s.links.streams ++ (if x.left = 0 then [] else
    [{ inPort := i, inVc := x.vc, outPort := some p, outVc := vcOf (hdrOf (sentHdr s (some i) x)), left := x.left }]))

/-- R417 to R419: packets for channels of this device's jets. A message enters the lowest free slot of its channel; a request is decided or
held; a grant ends the CONN that waits; credits and acknowledgements return, and a source that disconnects leaves. A packet of a job that no context here accepts, or for a jet that its lease
does not hold, is discarded and counted. -/
def Claim.ChannelPackets : Prop :=
  (∀ s k x, FirstOfFlow s k 1 x → isNotice (hdrOf x.hdr) = false →
    let h := hdrOf x.hdr
    let y := getChan s h.dstEp h.channel
    let from' := (h.srcEp, 2 ^ 16 + h.srcDev)
    (ctxOfJob s h.job = none → exec (.messagePkt k) s = .next (rejected s k h.job)) ∧
    (∀ c, ctxOfJob s h.job = some c → awaits s c h.dstEp = true → exec (.messagePkt k) s = .next s) ∧
    (∀ c, ctxOfJob s h.job = some c → awaits s c h.dstEp = false → holdsJet s c h.dstEp = false →
      exec (.messagePkt k) s = .next (rejected s k h.job)) ∧
    (∀ c, ctxOfJob s h.job = some c → holdsJet s c h.dstEp = true →
      (y.st = .closed ∨ from' ∉ y.conns ∨ 64 * y.largest < x.payload.length →
        exec (.messagePkt k) s = .next (discardMsg (unqueued s k))) ∧
      (∀ n, y.st ≠ .closed → from' ∈ y.conns → x.payload.length ≤ 64 * y.largest → n < y.slots →
        SMap.get none y.msgs n = none → (∀ m < n, SMap.get none y.msgs m ≠ none) →
        let t := storeMsg (unqueued s k)
          { src := from'.1, srcIdx := from'.2, dst := h.dstEp, ch := h.channel, tag := h.tag, thread := 0, data := x.payload } n
        exec (.messagePkt k) s = .next (inject t (remotePkt t 4 h.dstEp h.srcDev h.srcEp h.channel 0 1 0))) ∧
      (y.st ≠ .closed → from' ∈ y.conns → x.payload.length ≤ 64 * y.largest → (∀ n < y.slots, SMap.get none y.msgs n ≠ none) →
        exec (.messagePkt k) s = .next s))) ∧
  (∀ s k x, FirstOfFlow s k 2 x →
    let h := hdrOf x.hdr
    let y := getChan s h.dstEp h.channel
    let r : ConnReq := { src := h.srcEp, srcIdx := 2 ^ 16 + h.srcDev, dst := h.dstEp, ch := h.channel }
    (ctxOfJob s h.job = none → exec (.connReq k) s = .next (inject (rejected s k h.job) (grantPkt s h 0))) ∧
    (∀ c, ctxOfJob s h.job = some c → awaits s c h.dstEp = false → holdsJet s c h.dstEp = false →
      exec (.connReq k) s = .next (inject (unqueued s k) (grantPkt s h 0))) ∧
    (∀ c, ctxOfJob s h.job = some c → holdsJet s c h.dstEp = true →
      (y.st = .closed → exec (.connReq k) s =
        .next { unqueued s k with jets := { s.jets with held := s.jets.held ++ [r] } }) ∧
      (y.st = .opened → y.conns.length < y.sources → h.srcEp / 4096 = 0 → exec (.connReq k) s = .next (answer
        (updChan (unqueued s k) h.dstEp h.channel fun y => { y with conns := y.conns ++ [(r.src, r.srcIdx)] }) r true
        (y.slots / y.sources) y.largest)) ∧
      (y.st = .opened → y.sources ≤ y.conns.length → exec (.connReq k) s = .next (answer (unqueued s k) r false 0 0)) ∧
      (y.st = .closing → exec (.connReq k) s = .next (answer (unqueued s k) r false 0 0)))) ∧
  (∀ s k x c n, FirstOfFlow s k 3 x →
    let h := hdrOf x.hdr
    let link (n : Nat) : Prop := (getConn s h.dstEp n).used = true ∧ (getConn s h.dstEp n).pending = true ∧
      (getConn s h.dstEp n).remote = some (h.srcDev, h.srcEp, h.channel)
    ctxOfJob s h.job = some c → holdsJet s c h.dstEp = true → n < 64 → link n → (∀ m < n, ¬ link m) →
      exec (.connGrant k) s = .next (jetGrant (unqueued s k)
        { ep := h.dstEp, idx := n, granted := h.tag != 0, credits := h.tag, largest := h.seqtag })) ∧
  (∀ s k x c n, FirstOfFlow s k 4 x →
    let h := hdrOf x.hdr
    let link (n : Nat) : Prop := (getConn s h.dstEp n).used = true ∧ (getConn s h.dstEp n).pending = false ∧
      (getConn s h.dstEp n).remote = some (h.srcDev, h.srcEp, h.channel)
    ctxOfJob s h.job = some c → holdsJet s c h.dstEp = true →
    (h.coll = 1 → exec (.msgCredit k) s =
      .next (leaveChan (unqueued s k) h.dstEp h.channel h.srcEp (2 ^ 16 + h.srcDev))) ∧
    (h.coll ≠ 1 → n < 64 → link n → (∀ m < n, ¬ link m) →
      ∃ t, exec (.msgCredit k) s = .next t ∧ ((∀ u ∈ s.jets.threads, u.2.wait = .none) →
        getConn t h.dstEp n = { getConn s h.dstEp n with
                                    credits := (getConn s h.dstEp n).credits + h.tag
                                    out := (getConn s h.dstEp n).out.drop h.seqtag } ∧
        t.links = (unqueued s k).links ∧ t.mem = s.mem)))

/-- R405, R417, R418, R437, R449, R461: a WRITE goes to the buddy reserve from the device that this one protects, to restored state in
RESTORE, and otherwise to the pages of the context of its job; a stream is weir requests to consecutive lines; a COLL_READY goes
to its collective. -/
def Obligations.MemoryPackets : Prop :=
  (∀ s k x rc, FirstOfFlow s k 5 x →
    let h := hdrOf x.hdr
    let n := x.payload.length
    let q := unqueued s k
    (buddyWrite q h n = true → exec (.writePkt k rc) s = .next (writePhys q h.addr x.payload)) ∧
    (∀ m, buddyWrite q h n = false → restoreWrite q h n = some m →
      exec (.writePkt k rc) s = .next (wrCtx q h.tag h.addr (x.payload.take m))) ∧
    (buddyWrite q h n = false → restoreWrite q h n = none → ctxOfJob s h.job = none →
      exec (.writePkt k rc) s = .next (rejected s k h.job)) ∧
    (∀ c, buddyWrite q h n = false → restoreWrite q h n = none → ctxOfJob s h.job = some c →
      let plain := plainRange s c h.addr n false false true
      (plain = false → exec (.writePkt k rc) s = .next (rejectPacket (cisRefused q) h.job)) ∧
      (plain = true → h.dstEp / 4096 ≠ 4 →
        exec (.writePkt k rc) s = .next (wrCtx q c h.addr x.payload)) ∧
      (plain = true → h.dstEp / 4096 = 4 →
        let node := nodeIn q c h.coll h.srcDev h.channel h.tag h.addr x.payload
        (rc = 0 → node.2 = true → exec (.writePkt k rc) s = .next node.1) ∧
        (rc = 1 → node.2 = true → exec (.writePkt k rc) s = .next (raise node.1 0x025 8 0 .all)) ∧
        (rc < 2 → node.2 = false → exec (.writePkt k rc) s = .next (rejectPacket node.1 h.job)) ∧
        (2 ≤ rc → exec (.writePkt k rc) s = .next (raise (raise q 0x025 8 0 .all) 0x069 8 0 .all))))) ∧
  (∀ s k x c, FirstOfFlow s k 6 x →
    let h := hdrOf x.hdr
    ctxOfJob s h.job = some c → h.addr % 64 = 0 → wopOk h.wop = true →
    exec (.weirStream k) s = .next (let q := unqueued s k
      { q with mem := { q.mem with weirReqs := s.mem.weirReqs ++ (List.range (x.payload.length / 64)).map fun i =>
        { ctx := c, src := h.dstEp, addr := (physOf q c (h.addr + 64 * i) true).getD 0, va := h.addr + 64 * i
          op := h.wop % 4, ty := h.wop / 4 % 8, mode := h.wop / 32 % 4, tag := h.seqtag, data := slice x.payload (64 * i) 64 } } })) ∧
  (∀ s k x c, FirstOfFlow s k 7 x →
    let h := hdrOf x.hdr
    ctxOfJob s h.job = some c → s.links.colls = [] → exec (.collReady k) s = .next (let q := unqueued s k
      { q with links := { q.links with early := s.links.early ++ [(c, h.coll, h.srcDev, h.addr)] } }))

/-! Fabric barriers and collectives. -/

/-- R439, R440: an ARRIVE of a child is combined: least and greatest step, flags, amax by maximum. A device whose own arrivals and
children are complete arrives at its parent, or at the root releases; a RELEASE advances the generation, goes to the children and
is held for the waiters, and a next generation that is complete already arrives in turn. A packet of another generation is a fabric event, and one from no child and no parent is discarded. -/
def Claim.FabricBarriers : Prop :=
  (∀ s k x, FirstOfFlow s k 8 x →
    let h := hdrOf x.hdr
    let d := x.payload
    let b := leAt d 0 1
    let q := unqueued s k
    let used := b < 16 ∧ bitB (leAt s.links.idPart 14 2) b = true
    let z := getFBar s b
    (¬ used → exec (.barrierPkt k) s = .next (bump q (oNl + 0x830) 1)) ∧
    (used → leAt d 2 2 ≠ z.gen.toNat → exec (.barrierPkt k) s = .next (fabricEvent (setBit q (oNl + 0x810) 5) 0 [h.srcDev])) ∧
    (used → leAt d 2 2 = z.gen.toNat → leAt d 1 1 = 0 → h.srcDev ∈ treeKids s b → exec (.barrierPkt k) s = .next (fbarAgain
      (fbarAdvance (updFBar q b fun z => { combine z (leAt d 4 8) (leAt d 12 8) (leAt d 20 1) (barPairs d) with
        kids := addIds z.kids [h.srcDev] }) b) b)) ∧
    (used → leAt d 2 2 = z.gen.toNat → leAt d 1 1 = 1 → treeParent s b = h.srcDev → z.up = true →
      exec (.barrierPkt k) s = .next (fbarRelease q b (leAt d 4 8) (leAt d 12 8) (leAt d 20 1) (barPairs d))) ∧
    (used → leAt d 2 2 = z.gen.toNat → leAt d 1 1 = 0 → h.srcDev ∉ treeKids s b →
      exec (.barrierPkt k) s = .next (bump q (oNl + 0x830) 1))) ∧
  (∀ z mn mx fl ps,
    let y := combine z mn mx fl ps
    (z.any = false → y.stepMin = mn ∧ y.stepMax = mx) ∧
    (z.any = true → y.stepMin = min z.stepMin mn ∧ y.stepMax = max z.stepMax mx) ∧
    y.any = true ∧ y.flags = z.flags ||| fl ∧ y.gen = z.gen ∧ y.here = z.here ∧
    (∀ i v, z.pairs = [] → ps = [(i, v)] → y.pairs = [(i, v)]) ∧
    (∀ i v w, z.pairs = [(i, v)] → ps = [(i, w)] → y.pairs = [(i, max w v)])) ∧
  (∀ s b,
    let z := getFBar s b
    let ready := z.here = true ∧ z.up = false ∧ ∀ d ∈ treeKids s b, d ∈ z.kids
    (¬ ready → fbarAdvance s b = s) ∧
    (ready → treeParent s b = 0xFFFF → fbarAdvance s b = fbarLeave s b z.stepMin z.stepMax z.flags z.pairs) ∧
    (ready → treeParent s b ≠ 0xFFFF → fbarAdvance s b = updFBar { s with links := { s.links with
      queue := s.links.queue ++
        [(none, barPkt s (treeParent s b) (barPayload b 0 z.gen z.stepMin z.stepMax z.flags z.pairs))] } } b
      fun z => { z with up := true })) ∧
  (∀ s b mn mx fl ps, b < 16 →
    let t := fbarLeave s b mn mx fl ps
    let z := getFBar t b
    z.gen = (getFBar s b).gen + 1 ∧ z.here = false ∧ z.up = false ∧ z.kids = [] ∧ z.any = false ∧ z.released = true ∧
    z.relMin = mn ∧ z.relMax = mx ∧ z.relFlags = fl ∧ z.relPairs = ps ∧
    t.links.queue = s.links.queue ++ (treeKids s b).map fun d =>
      (none, barPkt s d (barPayload b 1 (getFBar s b).gen mn mx fl ps))) ∧
  (∀ s b,
    let x := getBar s (3 * 2 ^ 32 + b)
    let complete := x.init = true ∧ x.broken = false ∧ x.inTree = false ∧ 0 < x.members ∧ x.members ≤ x.arrivals
    (complete → fbarAgain s b = barFull s (3 * 2 ^ 32 + b)) ∧ (¬ complete → fbarAgain s b = s))

/-- R441: a fabric barrier that holds COMMITs of this device beyond the wait limit is reported once, to the context of each. -/
def Claim.FabricBarrierTimeouts : Prop :=
  ∀ s b, b < 16 →
    let z := getFBar s b
    let waits := (s.sluice.commits.filter fun m => m.arrived && leAt m.raw 8 1 == b).map (·.ctx)
    barWaiters s (3 * 2 ^ 32 + b) = [] → z.here = true → waits ≠ [] →
    (z.stalled = false → regOf s (oJet + 0x48) % 1024 * 50000000 < s.ticks - z.since →
      exec (.fabricBarrierTimeout b) s = .next (ledgerRecord (waits.foldl
        (fun q c => postEvent q c 0x08 0xFFFFFFFF [3, 0, 0, 0])
        (setBit (updFBar s b fun z => { z with stalled := true }) (oJet + 0x50) 2))
        0x019 ((s.ticks - z.since) / 50000000) [])) ∧
    (z.stalled = true → exec (.fabricBarrierTimeout b) s = .next s)

/-- R417, R435, R437, R438, R561: once a rank is ready, the traffic for it is sent once: weir requests to consecutive lines here,
WEIR_STREAM packets elsewhere; a collective whose output is complete sends its message and completes its command. -/
def Obligations.Collectives : Prop :=
  (∀ s ctx x, s.links.colls = [x] →
    let q := advanceAll s ctx
    ∀ y, q.links.colls = [y] → y.ctx = ctx → y.done = false → outputDone q y = true → allSent y = true →
      let noted : State := { q with
        links := { q.links with colls := [{ y with done := true }] }
        mem := { q.mem with notes := q.mem.notes ++ (if clNotify y.raw then
          [{ ctx, ep := 0x5000 + (portOf q ctx).getD 0, sluice := false, jet := clJet y.raw, ch := clChan y.raw
             data := slice (toLe 2 (clId y.raw)) 0 64 }] else []) } }
      let ended := completeCmd noted ctx y.slot
      exec (.collectiveComplete ctx) s = .next { ended with links := { ended.links with colls := [] } }) ∧
  (∀ s (x : Coll) e, x.treed = false → directKey e.1 ∉ x.sent → clOp x.raw = 1 → sendDirect s x e =
    (sendLines s x e.1 (e.2 + 64 * (x.rank * x.lines)) (sourceLines s x 0 0), { x with sent := x.sent ++ [directKey e.1] })) ∧
  (∀ s (x : Coll) e, x.treed = false → directKey e.1 ∉ x.sent → clOp x.raw = 3 → sendDirect s x e =
    (sendLines s x e.1 (e.2 + 64 * (x.rank * x.lines)) (sourceLines s x e.1 0), { x with sent := x.sent ++ [directKey e.1] })) ∧
  (∀ s (x : Coll) e, x.treed = false → directKey e.1 ∉ x.sent → clOp x.raw = 0 → clMode x.raw = 0 → sendDirect s x e =
    (sendLines s x e.1 e.2 (sourceLines s x e.1 x.rank), { x with sent := x.sent ++ [directKey e.1] })) ∧
  (∀ s (x : Coll) e, directKey e.1 ∈ x.sent → sendDirect s x e = (s, x)) ∧
  (∀ s (x : Coll) addr d,
    let exact := clMode x.raw = 0
    sendLines s x x.rank addr d = { s with mem := { s.mem with weirReqs := s.mem.weirReqs ++
      ((List.range (d.length / 64)).map fun i =>
        { ctx := x.ctx, src := 0x4000, addr := (physOf s x.ctx (addr + 64 * i) true).getD 0, va := addr + 64 * i, op := 0
          ty := x.wireType, mode := if exact then 2 else 0, tag := 0, data := slice d (64 * i) 64 }) } }) ∧
  (∀ s (x : Coll) r addr d, r ≠ x.rank → 0 < d.length → d.length ≤ 0x100000 →
    sendLines s x r addr d = { s with links := { s.links with queue := s.links.queue ++ [(none,
      collPkt s x 6 (x.members.getD r 0) 0 0 addr (4 * x.wireType + (if clMode x.raw = 0 then 64 else 0)) d)] } })

/-! Fault handling and recovery. -/

/-- R447, R448, R453 to R456, R466: what the device does with an error by its severity. S0 is counted; S1 is flagged and stands in
CFG_FAULT_LAST; S2 is queued, and a full queue makes it S3; S3 starts a recovery at QUIESCE and the epoch rises; S4 contains the
device: FAULT# is driven, the queue is empty and every port is DISABLED. -/
def Obligations.ErrorsBySeverity : Prop :=
  (∀ s code unit inst w, code < 0x20 → ∃ t, raise s code unit inst w = t ∧ t.recov = s.recov ∧ t.csr = s.csr ∧ t.mem = s.mem ∧
    t.jets = s.jets ∧ t.host = s.host ∧ counterOf t (oCfg + 0x120) = (counterOf s (oCfg + 0x120) + 1) % 2 ^ 64) ∧
  (∀ s code unit inst w, 0x20 ≤ code → code < 0x40 → unit < 16 → ∃ t, raise s code unit inst w = t ∧ t.recov = s.recov ∧
    t.mem = s.mem ∧ t.host = s.host ∧ bitB (regOf t (oCfg + 0x104)) 0 = true ∧
    regOf t (oCfg + 0x108) = code + 2 ^ 12 + 2 ^ 15 * unit + 2 ^ 19 * (inst % 8192) ∧
    counterOf t (oCfg + 0x128) = (counterOf s (oCfg + 0x128) + 1) % 2 ^ 64) ∧
  (∀ s code unit inst w, 0x40 ≤ code → code < 0x60 → s.recov.st ≠ .contained →
    let r := mkErr s code unit inst s.links.devId
    (s.recov.queue.length < 16 → (raise s code unit inst w).recov.queue = s.recov.queue ++ [r] ∧
      (raise s code unit inst w).recov.st = s.recov.st) ∧
    (16 ≤ s.recov.queue.length → raise s code unit inst w = raise (noteErr s r w) 0x06D 9 0 .all)) ∧
  (∀ s code unit inst w, 0x60 ≤ code → code < 0x80 → s.recov.st = .normal → s.recov.lost = [] → s.recov.covered = [] →
    buddyLost s [s.links.devId] = false →
    let t := raise s code unit inst w
    t.recov.st = .quiesce ∧ t.recov.sev = 3 ∧ t.recov.epoch = (s.recov.epoch + 1) % 2 ^ 32 ∧ t.recov.lost = [s.links.devId] ∧
    t.recov.localFaults = s.recov.localFaults ++ [mkErr s code unit inst s.links.devId] ∧ t.mem.cells = s.mem.cells ∧
    (created s ≠ [] → t.links.bars = [] ∧ t.sluice.buddy = none)) ∧
  (∀ s code unit inst, 0x80 ≤ code → s.recov.st ≠ .contained →
    let t := raise s code unit inst .all
    t.recov.st = .contained ∧ t.recov.fault = true ∧ t.recov.queue = [] ∧ (∀ p, (getLink t p).st = .disabled) ∧
    (∀ τ < 8, (getTerrace t τ).stopped = true) ∧ (∀ b < 6, (getBasin t b).stopped = true) ∧ unitsRun t = false)

/-- R456: a notice of a neighbour with a higher epoch or a device not yet recorded is taken and goes on; one that brings nothing new is
discarded, as is a packet of no neighbour. -/
def Claim.RecoveryNotices : Prop :=
  ∀ s k src x, s.links.inbox[k]? = some (src, x) → x.left = 0 → (∀ e ∈ s.links.inbox.take k, flowOf e.2 ≠ flowOf x) →
    isNotice (hdrOf x.hdr) = true →
    let h := hdrOf x.hdr
    let d := x.payload
    let q := unqueued s k
    let n := leAt d 6 1
    let ids := (List.range n).map fun i => leAt d (7 + 2 * i) 2
    let near := ∃ p, src = some p ∧ (getLink s p).nbrDev = h.srcDev
    (¬ near ∨ n = 0 ∨ 16 < n → exec (.recoveryNotice k) s = .next (rejected s k h.job)) ∧
    (near → 0 < n → n ≤ 16 → s.recov.st = .contained → exec (.recoveryNotice k) s = .next q) ∧
    (near → 0 < n → n ≤ 16 → s.recov.st ≠ .contained → leAt d 0 4 ≤ s.recov.epoch → (∀ i ∈ ids, i ∈ s.recov.seen) →
      exec (.recoveryNotice k) s = .next q) ∧
    (near → 0 < n → n ≤ 16 → s.recov.st = .normal → s.recov.epoch < leAt d 0 4 ∨ (∃ i ∈ ids, i ∉ s.recov.seen) →
      let r : State := { q with recov := { q.recov with epoch := max q.recov.epoch (leAt d 0 4) } }
      exec (.recoveryNotice k) s = .next (sendNotices (startRecovery
        (noteErr r (mkErr r 0x06B 8 (src.getD 0) (ids.headD 0)) .all) false ids []) (addIds s.recov.lost ids) (leAt d 4 2) src)) ∧
    (near → 0 < n → n ≤ 16 → s.recov.st ≠ .normal → s.recov.st ≠ .contained →
      s.recov.epoch < leAt d 0 4 ∨ (∃ i ∈ ids, i ∉ s.recov.seen) →
      let r : State := { q with recov := { q.recov with epoch := max q.recov.epoch (leAt d 0 4) } }
      ((∃ i ∈ ids, i ∉ s.recov.lost) → exec (.recoveryNotice k) s = .next (sendNotices (startRecovery
        (noteErr r (mkErr r 0x06B 8 (src.getD 0) (ids.headD 0)) .all) false ids []) (addIds s.recov.lost ids) (leAt d 4 2) src)) ∧
      ((∀ i ∈ ids, i ∈ s.recov.lost) → exec (.recoveryNotice k) s = .next (sendNotices
        { r with recov := { r.recov with seen := addIds s.recov.seen ids } } (addIds s.recov.lost ids) (leAt d 4 2) src)))

/-- R452, R458 to R460, R464: the handler's states from NORMAL to AGREE; R465: a parity error of its queue or state is S4. -/
def Claim.RecoveryUpToAgree : Prop :=
  (∀ s r rest, s.recov.queue = r :: rest → s.recov.st = .normal ∨ s.recov.st = .repair ∨ s.recov.st = .rejoin →
    exec (.s2Record true) s = .next { s with recov := { s.recov with
      queue := rest, sev := if s.recov.st = .normal then (if rest = [] then 0 else 2) else s.recov.sev } }) ∧
  (∀ s, exec (.s2Record false) s = .next (raise s 0x084 9 0 .all)) ∧
  (∀ s, s.recov.st = .quiesce → ∃ t, exec .quiesceComplete s = .next t ∧
    t.recov = { s.recov with st := if s.recov.localFaults = [] then .rejoin else .repair, since := s.ticks } ∧
    t.mem = s.mem ∧ t.jets = s.jets ∧ t.host = s.host) ∧
  (∀ s, s.recov.st = .repair → (∀ r ∈ s.recov.localFaults, repairFails s r = false) →
    (∃ t, exec (.repairComplete true) s = .next t ∧ t.recov.st = .rejoin ∧ t.recov.localFaults = [] ∧ t.recov.since = s.ticks ∧
      t.mem.cells = s.mem.cells ∧ t.host = s.host) ∧
    exec (.repairComplete false) s = .next (deviceFailed s)) ∧
  (∀ s good r, s.recov.st = .repair → r ∈ s.recov.localFaults → repairFails s r = true →
    ∃ t, exec (.repairComplete good) s = .next t ∧ t.recov.st = .contained ∧ t.recov.failed = true) ∧
  (∀ s, s.recov.st ≠ .contained → (deviceFailed s).recov.st = .contained ∧ (deviceFailed s).recov.failed = true) ∧
  (∀ s r pc, r.code = 0x062 → (getStack s r.inst).pendingRetire = some pc →
    let x := getStack (repairFault s r) r.inst
    x.retiredPc = some pc ∧ x.migrating = false ∧ x.pendingRetire = none) ∧
  (∀ s held back, s.recov.st = .rejoin → fabricReady s = true → s.recov.queue = [] →
    let all := ∀ i ∈ s.recov.lost, i = s.links.devId ∨ i ∈ back
    let z := s.sluice
    let a := if z.slot0Valid then z.slot0Step else 0
    let b := if z.slot1Valid then z.slot1Step else 0
    let n := if s.links.drafted = true ∧ z.slot0Valid = false ∧ z.slot1Valid = false then held else max a b
    (¬ all → exec (.rejoinReady held back) s = .next s) ∧
    (all → exec (.rejoinReady held back) s = .next (fbarArrive
      { s with recov := { s.recov with st := .agree, covered := rejoinCover s, spare := false } }
      (leAt s.links.idPart 12 1) n n 0 []))) ∧
  (∀ s, s.recov.st = .rejoin → regOf s (oCfg + 0x10C) % 128 * 50000000 < s.ticks - s.recov.since →
    ∃ t, exec .draftWaitExpiry s = .next t ∧ t.recov.st = .normal ∧ t.recov.covered = [] ∧ t.mem.cells = s.mem.cells ∧
      bitB (regOf t (oCfg + 0x104)) 5 = true)

/-- R460 to R462, R567: AGREE ends with the released step T, or, where no slot holds it, with the loss of the job; RESTORE ends once the slot
is written back and the second barrier has released; the chanters report T, and the handler is in NORMAL. -/
def Claim.RecoveryFromAgree : Prop :=
  (∀ s fs q,
    let z := getFBar s (leAt s.links.idPart 12 1)
    let step := z.relMin
    let k := s.sluice
    let held := (k.slot0Valid = true ∧ k.slot0Step = step) ∨ (k.slot1Valid = true ∧ k.slot1Step = step) ∨
      (s.links.drafted = true ∧ k.slot0Valid = false ∧ k.slot1Valid = false)
    s.recov.st = .agree → z.released = true →
    (Claim.ReadFails fs s q → exec (.recoveryBarrierRelease fs) s = .next q) ∧
    (Claim.Reads fs s q → held → ∃ t, exec (.recoveryBarrierRelease fs) s = .next t ∧
      t.recov = { q.recov with st := .restore, target := step, restored := false } ∧ t.mem = q.mem ∧ (getFBar t (leAt s.links.idPart 12 1)).released = false) ∧
    (Claim.Reads fs s q → ¬ held → ∃ t, exec (.recoveryBarrierRelease fs) s = .next t ∧ t.recov.st = .normal ∧ bitB (regOf t (oCfg + 0x104)) 5 = true)) ∧
  (∀ s fs q, Claim.ReadFails fs s q → exec (.restoreComplete fs) s = .next q) ∧
  (∀ s fs q, s.recov.st = .restore → s.recov.restored = true → (getFBar s (leAt s.links.idPart 13 1)).released = true →
    Claim.Reads fs s q → ∃ t, exec (.restoreComplete fs) s = .next t ∧ t.recov = { q.recov with st := .resume } ∧ t.mem = q.mem ∧
      t.sluice.request = true ∧ bitB (regOf t (oCfg + 0x104)) 4 = true ∧
      counterOf t (oCfg + 0x118) = q.recov.target % 2 ^ 64 ∧
      counterOf t (oCfg + 0x140) = (counterOf q (oCfg + 0x140) + 1) % 2 ^ 64) ∧
  (∀ s fs q, s.recov.st = .restore → s.recov.restored = false → restorePending s = false → s.recov.covered = [] →
    (getFBar s (leAt s.links.idPart 13 1)).any = false → treeKids s (leAt s.links.idPart 13 1) ≠ [] →
    (getFBar s (leAt s.links.idPart 13 1)).kids = [] → Claim.Reads fs s q →
    ∃ t, exec (.restoreComplete fs) s = .next t ∧ t.recov.restored = true ∧ t.recov.st = .restore ∧
      (getFBar t (leAt s.links.idPart 13 1)).here = true ∧ t.mem = q.mem) ∧
  (∀ s c n, (getCtx s c).fabric = true → (getCtx s c).updSet = false → (∀ b < 6, bitB (getCtx s c).lease.basins b = false) →
    let t := restoreCtx n s c
    (getCtx t c).step = BitVec.ofNat 64 (n + 1) ∧ (getCtx t c).poison = false ∧ t.mem = s.mem) ∧
  (∀ s, s.recov.st = .resume → ∃ t, exec .rollbackReported s = .next t ∧ t.recov.st = .normal ∧ t.recov.covered = [] ∧
    t.recov.lost = [] ∧ t.recov.restarts = 0 ∧ t.mem.cells = s.mem.cells ∧
    (∀ c, s.recov.covered = [c] → (getCtx s c).fabric = true → (getCtx t c).rollbackStep = BitVec.ofNat 64 s.recov.target))

/-- R25, R451, R465: the watchdogs and the timebase. An expiry is S3, a second one within a recovery S4; the loss of the timebase is S2
and puts the bellows into guarded operation until it has run a second. -/
def Obligations.WatchdogsAndTimebase : Prop :=
  (∀ s core, s.recov.st = .normal ∨ s.recov.wdogs = 0 → ∃ t, exec (.mgmtWatchdog core) s = .next t ∧
    t = { raise s 0x06C 9 core .all with recov := { (raise s 0x06C 9 core .all).recov with wdogs := 1 } }) ∧
  (∀ s core, s.recov.st ≠ .normal → 0 < s.recov.wdogs → exec (.mgmtWatchdog core) s = .next (raise s 0x083 9 core .all)) ∧
  (∀ s,
    let lost : State := { s with recov := { s.recov with tbLost := true, tbAt := s.ticks } }
    (s.boot.locked = true → exec .timebaseLost s = .next (raise (setBit lost (oCfg + 0x104) 6) 0x044 11 0 .all)) ∧
    (s.boot.locked = false → exec .timebaseLost s = .next lost)) ∧
  (∀ s, s.recov.tbLost = true → guardOp0 s = true ∧ targetOp s = 0) ∧
  (∀ s,
    (s.recov.tbLost = true → 50000000 ≤ s.ticks - s.recov.tbAt →
      exec .timebaseRestored s = .next { s with recov := { s.recov with tbLost := false } }) ∧
    (s.ticks - s.recov.tbAt < 50000000 → exec .timebaseRestored s = .next s))

/-! The bellows. -/

/-- R474, R476 to R478, R496: one update of a controller raises its demand to the least 64th that brings the newest value under the limit, at
most 56, or lowers it by one; a stale rail's controller works on the newest value alone, against 0.85 of the limit. One update of
the bellows updates each controller, and a droop demand that no longer holds falls by one. -/
def Obligations.ControllersFollowTheBubbleLaw : Prop :=
  (∀ s i (e : Estimate), e.fixed < e.q → (getCtl s i).demand ≤ 56 → guarded s i = false →
    let c := getCtl s i
    let n := ctlWindow s i
    let lim := ctlLimit s i * n
    let sum := (c.window.take (n - 1)).sum
    let b := c.demand
    let d := getCtl (ctlUpdate s i e) i
    d.window = (e.q :: c.window).take (n - 1) ∧
    (lim < sum + e.q → ∃ k, d.demand = min k 56 ∧ k ≤ 64 ∧
      (64 - k) * (e.q - e.fixed) ≤ (64 - b) * (lim - sum - e.fixed) ∧
      (64 - b) * (lim - sum - e.fixed) < (65 - k) * (e.q - e.fixed)) ∧
    (100 * (sum + e.q) ≤ 95 * lim → 0 < b → max n 10 ≤ c.sinceRelease + 1 → d.demand = b - 1 ∧ d.sinceRelease = 0) ∧
    (sum + e.q ≤ lim → 95 * lim < 100 * (sum + e.q) ∨ b = 0 ∨ c.sinceRelease + 1 < max n 10 → d.demand = b)) ∧
  (∀ s i (e : Estimate), e.fixed < e.q → (getCtl s i).demand ≤ 56 → guarded s i = true →
    let b := (getCtl s i).demand
    let q := if staleCtl s i then max e.q (measured s i) else e.q
    let lim := 85 * ctlLimit s i
    lim < 100 * q → ∃ k, (getCtl (ctlUpdate s i e) i).demand = min k 56 ∧ k ≤ 64 ∧
      (64 - k) * (100 * q - 100 * e.fixed) ≤ (64 - b) * (lim - 100 * e.fixed) ∧
      (64 - b) * (lim - 100 * e.fixed) < (65 - k) * (100 * q - 100 * e.fixed)) ∧
  (∀ s est, s.boot.inReset = false → (∀ e ∈ est, e.fixed < e.q) → ∃ t, exec (.bellowsUpdate est) s = .next t ∧
    (∀ i < 6, ∀ e, est[i]? = some e → getCtl t i = getCtl (ctlUpdate s i e) i) ∧
    (∀ n < 14, let z := getZone s n
      getZone t n = if z.inDroop = true ∨ z.held = true then z else { z with demand := z.demand - 1 }) ∧
    t.mem = s.mem ∧ t.jets = s.jets ∧ t.host = s.host)

/-- R472 to R476, R481, R483, R484, R494: samples, trips, calibration, comparison, the cap governor and the operating point. -/
def Claim.MeasurementAndOperatingPoint : Prop :=
  (List.range 7).map fusedLimit = [1600000, 220000, 180000, 200000, 12000, 340000, 25000] ∧
  (∀ s amps watts, s.boot.inReset = false → ∃ t, exec (.currentSample amps watts) s = .next t ∧
    t.power.watts = watts ∧ (∀ r < 7, SMap.get 0 t.power.amps r = amps.getD r 0 ∧
      SMap.get 0 t.power.trips r = (if 115 * fusedLimit r < 100 * amps.getD r 0 then SMap.get 0 s.power.trips r + 1 else 0)) ∧
    t.power.inputMean = (if s.power.wattN = 999 then (s.power.wattSum + watts) / 1000000 else s.power.inputMean) ∧
    t.power.opAge = (if s.power.ramping then s.power.opAge else s.power.opAge + 1) ∧
    t.power.brakeDemand = (if s.power.brakeOn then s.power.brakeDemand else s.power.brakeDemand - 1)) ∧
  (∀ s r, s.boot.inReset = false → r < 7 → 5 ≤ SMap.get 0 s.power.trips r →
    exec (.currentTrip r) s = .next (settle (raise s 0x081 10 r .all))) ∧
  (∀ s fit, s.boot.inReset = false → s.boot.locked = false ∨
      ((∀ b < 6, 1000000 ≤ s.ticks - (getBasin s b).rowAt) ∧ 500000000 ≤ s.ticks - s.power.calAt) →
    ∃ t, exec (.calibration fit) s = .next t ∧ t.power.calAt = s.ticks ∧
      (∀ r < 7, SMap.get 0 t.power.static r = fit.getD r (SMap.get 0 s.power.static r)) ∧
      (∀ r < 7, SMap.get false t.power.recal r = isStale s r)) ∧
  (∀ s est meas, s.boot.inReset = false → ∃ t, exec (.calCompare est meas) s = .next t ∧ ∀ r < 7,
    let e := est.getD r 0
    let m := meas.getD r 0
    r < est.length → r < meas.length → isStale t r =
      (decide (8 * m < 100 * (max e m - min e m)) || (isStale s r && !SMap.get false s.power.recal r))) ∧
  (∀ s, s.boot.inReset = false →
    (10000 ≤ s.power.capHigh → exec .capGovernorLower s =
      .next (settle (updPower s fun p => { p with govCap := p.govCap - 1, capHigh := 0 }))) ∧
    (100000 ≤ s.power.capLow → exec .capGovernorRaise s =
      .next (settle (updPower s fun p => { p with govCap := min 7 (p.govCap + 1), capLow := 0 })))) ∧
  (∀ s, guardOp0 s = false →
    (∀ v ∈ [deviceHint s, opMax s, s.power.govCap, s.power.govTherm], targetOp s ≤ v) ∧
    targetOp s ∈ [deviceHint s, opMax s, s.power.govCap, s.power.govTherm]) ∧
  (∀ s, s.boot.inReset = false →
    let aim := targetOp s
    let now := if s.power.ramping then s.power.target else s.power.op
    (aim < now ∨ (now < aim ∧ (s.power.ramping = true ∨ 20 ≤ s.power.opAge)) → exec .opChange s =
      .next (settle (updPower s fun p => { p with target := aim, ramping := aim != p.op || p.ramping }))) ∧
    (¬ (aim < now ∨ (now < aim ∧ (s.power.ramping = true ∨ 20 ≤ s.power.opAge))) → exec .opChange s = .next (settle s)) ∧
    (s.power.ramping = true → frozenCmd s = false → exec .rampComplete s =
      .next (settle (updPower s fun p => { p with op := p.target, ramping := false, opAge := 0 }))) ∧
    (frozenCmd s = true → exec .rampComplete s = .next (settle s)))

/-- R486, R487 to R492, R502: caps are clamped to the ceiling and to 600 W; a droop holds 32/64 until 2 µs after its end; a group's demand
follows its temperature, and ten updates at 56/64 lower the operating point; a trip contains the device. -/
def Claim.CapsDroopsAndTemperatures : Prop :=
  (∀ s w, ceiling s < 2 ^ 11 →
    let t := writeCap s w
    let v := min (ceiling s) (max 600 w)
    regOf t (oPwr + 0x0C) = v ∧ (v ≠ w → bitB (regOf t (oPwr + 0x08)) 14 = true) ∧
    (v = w → regOf t (oPwr + 0x08) = regOf s (oPwr + 0x08)) ∧ t.power = s.power ∧ t.mem = s.mem ∧ t.host = s.host) ∧
  (∀ s port value, s.boot.inReset = false →
    (platformView s port = true → exec (.pwrCap port value) s = .next (settle (writeCap s (value % 2048)))) ∧
    (platformView s port = false → exec (.pwrCap port value) s = .next (settle s)) ∧
    exec (.pldmEffecterWrite value) s = .next (settle (writeCap s value))) ∧
  (∀ s n, s.boot.inReset = false → n < 14 →
    ((getZone s n).inDroop = false → exec (.droopEnter n) s = .next (settle (bump
      (updZone s n fun z => { z with inDroop := true, held := true, demand := max z.demand 32 }) (oPwr + 0x60) 1))) ∧
    (∀ ns, (getZone s n).inDroop = true → exec (.droopEnd n ns) s =
      .next (settle (ledgerRecord (updZone s n fun z => { z with inDroop := false, since := s.ticks }) 0x02E ns (toLe 1 n)))) ∧
    ((getZone s n).inDroop = false → 100 ≤ s.ticks - (getZone s n).since →
      exec (.droopRelease n) s = .next (settle (updZone s n fun z => { z with held := false }))) ∧
    ((getZone s n).inDroop = true ∨ (getZone s n).held = true → frozenCmd s = true)) ∧
  (∀ s js, s.boot.inReset = false → ∃ t, exec (.thermalUpdate js) s = .next t ∧
    (∀ g < 8,
      let x := getGroup s g
      let j := groupJunction js g - (tjTarget s : Int)
      let k := ((getStack s g).temp : Int) - (hbmTarget s : Int)
      let top := max j k
      let y := getGroup t g
      (top ≤ -2 → y.demand = x.demand - 1) ∧ (-2 < top → top ≤ 0 → y.demand = x.demand) ∧
      (0 < top → top ≤ 8 → y.demand = min 56 (x.demand + top.toNat)) ∧ (8 < top → y.demand = min 56 (x.demand + 8)) ∧
      (y.demand = 56 → 0 < top → y.atMax = x.atMax + 1) ∧ (y.demand ≠ 56 ∨ top ≤ 0 → y.atMax = 0)) ∧
    ((∀ g < 8, (getGroup t g).demand = 0) → t.power.coolFor = s.power.coolFor + 1) ∧
    ((∃ g < 8, (getGroup t g).demand ≠ 0) → t.power.coolFor = 0)) ∧
  (∀ s, s.boot.inReset = false → (∃ g < 8, 10 ≤ (getGroup s g).atMax) →
    ∃ t, exec .thermalOpLimit s = .next t ∧ t.power.govTherm = s.power.govTherm - 1) ∧
  (∀ s, s.boot.inReset = false → (∀ g < 8, (getGroup s g).atMax < 10) → 100 ≤ s.power.coolFor → exec .thermalOpLimit s =
    .next (settle (updPower s fun p => { p with govTherm := min 7 (p.govTherm + 1), coolFor := 0 }))) ∧
  (∀ s u temp, s.boot.inReset = false → u < 8 →
    (125 ≤ temp → exec (.thermalTrip false u temp) s = .next (settle (raise s 0x082 10 u .all))) ∧
    (105 ≤ temp → exec (.thermalTrip true u temp) s = .next (settle (raise s 0x082 4 u .all))))

/-- R493 to R495, R499: BRAKE#: a low level of 200 ns sets 56/64, a shorter pulse is counted; the assertion ends after 50 µs high, with its
ledger record, and a shorter high interval is chatter. Energy goes to the context that holds the unit, else to the platform. -/
def Obligations.BrakeAndEnergy : Prop :=
  (∀ s, s.boot.inReset = false → s.boot.locked = true → bitB s.boot.pins 2 = true →
    let low : State := { s with
      boot := { s.boot with brakeLevel := false }, power := { s.power with brakeEdge := s.ticks } }
    let high : State := { s with
      boot := { s.boot with brakeLevel := true }, power := { s.power with brakeEdge := s.ticks } }
    let begins (q : State) (up : Bool) : State := updPower q fun p => { p with
      brakeLow := false, brakeOn := true, brakeHigh := up, brakeDemand := 56, brakeSince := s.ticks }
    (s.power.brakeOn = false → exec .brakeFall s = .next (settle (updPower low fun p => { p with brakeLow := true }))) ∧
    (s.power.brakeOn = true → s.power.brakeHigh = true → s.ticks - s.power.brakeEdge < 2500 → exec .brakeFall s =
      .next (settle (bump (updPower low fun p => { p with brakeHigh := false }) (oPwr + 0x70) 1))) ∧
    (s.power.brakeOn = true → s.power.brakeHigh = true → 2500 ≤ s.ticks - s.power.brakeEdge → exec .brakeFall s =
      .next (settle (updPower (ledgerRecord
        (updPower low fun p => { p with brakeOn := false, brakeHigh := false, brakeHeld := false }) 0x027
        ((s.ticks - s.power.brakeSince) / 50) []) fun p => { p with brakeLow := true }))) ∧
    (s.power.brakeLow = true → 10 ≤ s.ticks - s.power.brakeEdge → exec .brakeQualified s = .next (settle (begins s false))) ∧
    (∀ ns, s.power.brakeLow = true → ns < 200 → exec (.brakeRise ns) s =
      .next (settle (bump (updPower high fun p => { p with brakeLow := false }) (oPwr + 0x68) 1))) ∧
    (∀ ns, s.power.brakeLow = true → 200 ≤ ns → exec (.brakeRise ns) s = .next (settle (begins high true))) ∧
    (∀ ns, s.power.brakeLow = false → s.power.brakeOn = true → exec (.brakeRise ns) s =
      .next (settle (updPower high fun p => { p with brakeHigh := true }))) ∧
    (s.power.brakeOn = true → s.power.brakeHigh = true → 2500 ≤ s.ticks - s.power.brakeEdge → exec .brakeRelease s = .next (settle (ledgerRecord
      (updPower s fun p => { p with brakeOn := false, brakeHigh := false, brakeHeld := false }) 0x027
      ((s.ticks - s.power.brakeSince) / 50) []))) ∧
    (s.power.brakeOn = true → regOf s (oPwr + 0x44) % 4096 * 50000000 ≤ s.ticks - s.power.brakeSince →
      exec .brakeHeld s = .next (settle (updPower s fun p => { p with brakeHeld := true })))) ∧
  (∀ s, s.power.brakeDemand = 56 → ∀ u < 14, ratioOf s u = 56) ∧
  (∀ s b e, s.boot.inReset = false →
    (∀ c, (getBasin s b).lease = some c → exec (.energyAttribution [.basin b e]) s =
      .next (settle (updCtx s c fun x => { x with energy := x.energy + BitVec.ofNat 64 e }))) ∧
    ((getBasin s b).lease = none → exec (.energyAttribution [.basin b e]) s = .next (settle (bump s (oPwr + 0x58) e)))) ∧
  (∀ s τ e, s.boot.inReset = false →
    (∀ c, (getTerrace s τ).lease = some c → exec (.energyAttribution [.terrace τ e]) s =
      .next (settle (updCtx s c fun x => { x with energy := x.energy + BitVec.ofNat 64 e }))) ∧
    ((getTerrace s τ).lease = none → exec (.energyAttribution [.terrace τ e]) s = .next (settle (bump s (oPwr + 0x58) e)))) ∧
  (∀ s e, s.boot.inReset = false → exec (.energyAttribution [.other e]) s = .next (settle (bump s (oPwr + 0x58) e)))

/-! Power, reset, boot and the configuration lock. -/

/-- The fuses, the NOR with its density and the pins' straps are as before (R596). -/
def KeepsFusesAndNor (s t : State) : Prop :=
  t.boot.nor = s.boot.nor ∧ t.boot.norMbit = s.boot.norMbit ∧ t.boot.fwFused = s.boot.fwFused ∧ t.boot.cfgFused = s.boot.cfgFused ∧
  t.boot.repairRows = s.boot.repairRows ∧ t.boot.repairCols = s.boot.repairCols ∧ t.boot.repairJets = s.boot.repairJets

/-- The internal reset is asserted and every volatile state is as after reset: memory, registers, counters and units (R350, R596). -/
def VolatileLost (s t : State) : Prop :=
  t.mem = State.reset.mem ∧ t.csr = State.reset.csr ∧ t.ctr = [] ∧ t.jets = {} ∧ t.basins = [] ∧ t.spouts = [] ∧ t.host = {} ∧
  t.sluice = {} ∧ t.links = {} ∧ t.recov = {} ∧ t.power = {} ∧ t.boot.inReset = true ∧ t.boot.st = .rom ∧ t.boot.locked = false ∧
  t.boot.upd = .idle ∧ KeepsFusesAndNor s t ∧ t.pending = s.pending

/-- R593, R596, R577, R579: a lockout takes the module to its internal reset, with the shadow of the ledger lost, and the image that a flush
was writing no longer valid; INPUT_IN_RANGE ends it. A module reset leaves the ledger running, and starts a flush where
flushing had begun. -/
def Obligations.InputPowerAndModuleReset : Prop :=
  (∀ s, s.boot.inputOk = true → ∃ t, exec .inputUndervoltage s = .next t ∧ VolatileLost s t ∧ t.boot.inputOk = false ∧
    t.boot.overVolt = false ∧ t.ledger.slots = [] ∧
    (s.ledger.flushing = false → t.ledger.image0 = s.ledger.image0 ∧ t.ledger.image1 = s.ledger.image1) ∧
    (s.ledger.flushing = true → s.ledger.image0.valid = true → s.ledger.image1.valid = true →
      (s.ledger.image0.seq ≤ s.ledger.image1.seq → t.ledger.image0.valid = false ∧ t.ledger.image1 = s.ledger.image1) ∧
      (s.ledger.image1.seq < s.ledger.image0.seq → t.ledger.image1.valid = false ∧ t.ledger.image0 = s.ledger.image0))) ∧
  (∀ s, s.boot.overVolt = false → ∃ t, exec .inputOvervoltage s = .next t ∧ VolatileLost s t ∧ t.boot.inputOk = false ∧
    t.boot.overVolt = true ∧ t.ledger.slots = []) ∧
  (∀ s, exec .inputInRange s = .next { s with boot := { s.boot with inputOk := true, overVolt := false } }) ∧
  (∀ s, ∃ t, exec .modRst s = .next t ∧ VolatileLost s t ∧ t.boot.modRst = false ∧ t.boot.inputOk = s.boot.inputOk ∧
    t.ledger.slots = s.ledger.slots ∧ t.ledger.opsec = s.ledger.opsec ∧ t.ledger.cycles = s.ledger.cycles ∧
    t.ledger.image0 = s.ledger.image0 ∧ t.ledger.image1 = s.ledger.image1 ∧ t.ledger.begun = false ∧
    t.ledger.flushing = (s.ledger.flushing || s.ledger.begun)) ∧
  (∀ s, s.boot.inputOk = false ∨ s.ledger.flushing = true → exec .internalResetRelease s = .next s)

/-- The code of slot `k` (R526). -/
def slotCode (s : State) (k : Nat) : Nat := if k = 0 then s.boot.codeA else s.boot.codeB

/-- The device is in FAILED with those two codes, booted from no slot (R518). -/
def BootFailed (s t : State) (a b : Nat) : Prop :=
  t.boot.st = .failed ∧ t.boot.inReset = false ∧ t.boot.codeA = a ∧ t.boot.codeB = b ∧ KeepsFusesAndNor s t

/-- R518, R507, R526: the release of the internal reset samples the straps and tries the slots, the committed one with the higher SEQ first,
and slot A where both are equal. The first slot that passes its checks waits for the lock; one that fails leaves its code and gives
way to the other; with both failed, neither committed or no NOR the device enters FAILED. -/
def Claim.BootTriesTheSlots : Prop :=
  ∀ s, s.boot.inReset = true → s.boot.inputOk = true → s.ledger.flushing = false → ∃ t,
    exec .internalResetRelease s = .next t ∧ t.boot.inReset = false ∧ t.boot.recipe = s.boot.ovlSel % 16 ∧ t.mem.cells = s.mem.cells ∧
    (norPresent s = false → BootFailed s t 0x01 0x01) ∧
    (norPresent s = true → committed s 0 = false → committed s 1 = false → BootFailed s t 0x02 0x02) ∧
    (∀ k, norPresent s = true →
      (k = 0 ∧ committed s 0 = true ∧ (committed s 1 = false ∨ slotSeq s 1 ≤ slotSeq s 0)) ∨
        (k = 1 ∧ committed s 1 = true ∧ (committed s 0 = false ∨ slotSeq s 0 < slotSeq s 1)) →
      let r := romStep s
      let x := trySlot r k
      let y := trySlot (failSlot r k x.1) (1 - k)
      (x.1 = 0 → t.boot.st = .apply ∧ t.boot.slot = k ∧ t.boot.fallback = false ∧ t.boot.applied = x.2 ∧ slotCode t k = 0 ∧
        slotCode t (1 - k) = slotCode s (1 - k)) ∧
      (x.1 ≠ 0 → y.1 = 0 → t.boot.st = .apply ∧ t.boot.slot = 1 - k ∧ t.boot.fallback = true ∧ t.boot.applied = y.2 ∧
        slotCode t k = x.1 ∧ slotCode t (1 - k) = 0) ∧
      (x.1 ≠ 0 → y.1 ≠ 0 → t.boot.st = .failed ∧ slotCode t k = x.1 ∧ slotCode t (1 - k) = y.1))

/-- R511, R526: the code of a slot's header and CERTS: HEADER_BAD, DIGEST_BAD, CERT_BAD, SIG_BAD and SVN_LOW, each where what precedes it
holds, whatever the hash and the signatures are; an uncommitted slot is NOT_COMMITTED. -/
def Claim.ImageChecks : Prop :=
  (∀ s k, committed s k = false → (trySlot s k).1 = 0x02) ∧
  (∀ s k, committed s k = true → checkHeader s k ≠ 0 → (trySlot s k).1 = checkHeader s k) ∧
  (∀ s k,
    let h := imgBytes s k 0 4096
    let es := sectsOf h
    (headerGood s h = false → checkHeader s k = 0x03) ∧
    (headerGood s h = true → ∀ e, findSect es 5 0 = some e →
      (Config.sha512 (sectBytes s k e) ≠ e.digest → checkHeader s k = 0x06) ∧
      (Config.sha512 (sectBytes s k e) = e.digest →
        (Config.certKeys (sectBytes s k e) = none → checkHeader s k = 0x04) ∧
        (∀ root fw owner, Config.certKeys (sectBytes s k e) = some (root, fw, owner) →
          let fwOk := Config.ecdsaVerify (slice h 2576 132) (fwDigest h es) fw
          let cfgOk := Config.ecdsaVerify (slice h 2708 132) (cfgDigest h es) owner
          (Config.sha512 root ≠ Config.rootHash → checkHeader s k = 0x04) ∧
          (Config.sha512 root = Config.rootHash → fwOk = false ∨ cfgOk = false → checkHeader s k = 0x05) ∧
          (Config.sha512 root = Config.rootHash → fwOk = true → cfgOk = true →
            leAt h 12 1 < s.boot.fwFused ∨ leAt h 13 1 < s.boot.cfgFused → checkHeader s k = 0x07) ∧
          (Config.sha512 root = Config.rootHash → fwOk = true → cfgOk = true →
            s.boot.fwFused ≤ leAt h 12 1 → s.boot.cfgFused ≤ leAt h 13 1 → checkHeader s k = 0)))))

/-- R515, R518, R533: the lock sets LOCKED, counts a power cycle, begins flushing, latches the UDS, makes the alias key valid, applies the
class records, and creates the host ports of the split. After it a change of the straps is recorded and has no other effect (R530). -/
def Obligations.ConfigurationLockCompletesTheBoot : Prop :=
  (∀ s, s.boot.st = .apply → s.recov.tbLost = false → ∃ t, exec .configurationLock s = .next t ∧
    t.boot.st = .locked ∧ t.boot.locked = true ∧ t.boot.udsLatched = true ∧ t.boot.aliasValid = true ∧
    t.boot.pins = s.boot.applied.pins ∧ t.boot.conform = s.boot.applied.conform ∧ t.boot.chassis = leAt s.boot.applied.chassis 0 1 ∧
    t.boot.planCode = s.boot.applied.planCode ∧ t.boot.slot = s.boot.slot ∧ KeepsFusesAndNor s t ∧
    t.ledger.begun = true ∧ t.ledger.cycles = min (s.ledger.cycles + 1) 0xFFFFFF ∧ t.mem = s.mem ∧ t.recov = s.recov ∧
    (let d := s.boot.applied.hostSplit
     (∀ p < splitPorts (leAt d 0 1),
       let e := splitEntry d p
       (getPort t p).created = true ∧ (getPort t p).platform = bitB (leAt d 1 1) p ∧ (getPort t p).ctxFirst = leAt e 0 2 ∧
       (getPort t p).ctxCount = leAt e 2 2 ∧ (getPort t p).terraces = leAt e 4 1 ∧ (getPort t p).basins = leAt e 5 1 ∧
       (getPort t p).slices = leAt e 8 8 ∧ (getPort t p).frameFirst = leAt e 16 4 ∧ (getPort t p).frameCount = leAt e 20 4) ∧
     (∀ p, splitPorts (leAt d 0 1) ≤ p → getPort t p = getPort s p)) ∧
    (s.boot.applied.plan ≠ [] → t.links.planLoaded = true ∧ t.links.hasId = !s.boot.applied.standby)) ∧
  (∀ s, s.boot.st ≠ .apply → exec .configurationLock s = .next s) ∧
  (∀ s level, exec (.ovlSelChange level) s = .next (
    let u : State := { s with boot := { s.boot with ovlSel := level % 16 } }
    if level % 16 ≠ s.boot.ovlSel ∧ s.boot.locked = true then ledgerRecord u 0x003 (level % 16) (toLe 1 s.boot.recipe) else u))

/-! Signed updates, attestation and the ledger. -/

/-- R527 to R529: BEGIN erases the slot that it names and no other byte of the NOR, WRITE programs one 4 KiB block, with
MARKER left erased, FINISH programs MARKER when every check passes and otherwise ends the update as failed, ABORT ends it with nothing
programmed, and SVN_COMMIT raises the fused counters to those of the image and never above or down. A command of the other path, or out
of place, is refused. -/
def Obligations.SignedUpdates : Prop :=
  (∀ s path slot, s.boot.inReset = false →
    (updOpen s = false → slot < 2 → norPresent s = true → s.boot.st = .failed ∨ slot ≠ s.boot.slot →
      ∃ t, exec (.updBegin path slot) s = .next t ∧ t.boot.upd = .opened ∧ t.boot.updSlot = slot ∧ t.boot.updPath = path ∧
        t.boot.updCode = 0 ∧ committed t slot = false ∧
        (∀ a, norSlot s slot ≤ a → a < norSlot s slot + slotLen s → norByte t a = 0xFF) ∧
        (∀ a, a < norSlot s slot ∨ norSlot s slot + slotLen s ≤ a → norByte t a = norByte s a)) ∧
    (updOpen s = true ∨ 2 ≤ slot ∨ norPresent s = false ∨ (s.boot.st ≠ .failed ∧ slot = s.boot.slot) →
      exec (.updBegin path slot) s = .next (updRefuse s))) ∧
  (∀ s path block data, s.boot.inReset = false → s.boot.upd = .opened → s.boot.updPath = path → data.length = 4096 →
    (block < slotLen s / 4096 →
      let base := norSlot s s.boot.updSlot + 4096 * block
      let n := if block = 0 then 4088 else 4096
      ∃ t, exec (.updateWrite path block data) s = .next t ∧ (∀ i < n, norByte t (base + i) = data.getD i 0) ∧
        (∀ a, a < base ∨ base + n ≤ a → norByte t a = norByte s a) ∧ t.boot.upd = .opened) ∧
    (slotLen s / 4096 ≤ block → exec (.updateWrite path block data) s = .next (updRefuse s))) ∧
  (∀ s path, s.boot.inReset = false → s.boot.upd = .opened → s.boot.updPath = path →
    (finishOk s = true → ∃ t, exec (.updFinish path) s = .next t ∧ t.boot.upd = .done ∧ t.boot.updCode = 0 ∧
      committed t s.boot.updSlot = true ∧
      (∀ a, a < norSlot s s.boot.updSlot + 4088 ∨ norSlot s s.boot.updSlot + 4096 ≤ a → norByte t a = norByte s a)) ∧
    (finishOk s = false → ∃ t, exec (.updFinish path) s = .next t ∧ t.boot.upd = .failed ∧ t.boot.nor = s.boot.nor ∧
      (checkHeader s s.boot.updSlot ≠ 0 → t.boot.updCode = checkHeader s s.boot.updSlot) ∧
      (checkHeader s s.boot.updSlot = 0 → checkSections s s.boot.updSlot ≠ 0 → t.boot.updCode = 0x06)) ∧
    ∃ t, exec (.updateAbort path) s = .next t ∧ t.boot.upd = .idle ∧ t.boot.nor = s.boot.nor) ∧
  (∀ s path, s.boot.inReset = false → s.boot.upd ≠ .opened ∨ s.boot.updPath ≠ path →
    (∀ block data, exec (.updateWrite path block data) s = .next (updRefuse s)) ∧
    exec (.updFinish path) s = .next (updRefuse s) ∧ exec (.updateAbort path) s = .next (updRefuse s)) ∧
  (∀ s path fuses, s.boot.inReset = false →
    (s.boot.st = .locked → updOpen s = false ∨ s.boot.updPath = path →
      let fw := s.boot.applied.fwSvn
      let cfg := s.boot.applied.cfgSvn
      ∃ t, exec (.svnCommit path fuses) s = .next t ∧ t.boot.nor = s.boot.nor ∧ t.mem = s.mem ∧
        s.boot.fwFused ≤ t.boot.fwFused ∧ t.boot.fwFused ≤ max s.boot.fwFused fw ∧
        s.boot.cfgFused ≤ t.boot.cfgFused ∧ t.boot.cfgFused ≤ max s.boot.cfgFused cfg ∧
        (fw - s.boot.fwFused + (cfg - s.boot.cfgFused) ≤ fuses →
          t.boot.fwFused = max s.boot.fwFused fw ∧ t.boot.cfgFused = max s.boot.cfgFused cfg)) ∧
    (s.boot.st ≠ .locked → exec (.svnCommit path fuses) s = .next (updRefuse s)))

/-- The response `d` has left whole, or it waits for CHUNK_GET and its handle has left (R524). -/
def Answered (s t : State) (v : Nat) (d : List Byte) : Prop :=
  t.mem = s.mem ∧ t.csr = s.csr ∧ t.ledger = s.ledger ∧ t.boot.nor = s.boot.nor ∧
  (peerLimit t d.length = true → t.out = s.out ++ [.mctp d]) ∧
  (peerLimit t d.length = false →
    t.out = s.out ++ [.mctp (spdmError v 0x0F 0 ++ toLe 1 t.boot.spdmHandle)] ∧ t.boot.spdmLarge = d)

/-- R523 to R525, R530 (the layouts of the messages are the model's, log entry 5): each request is answered in LOCKED and FAILED, waits during
APPLY, and an unsupported one is answered as such. In FAILED the measurements are 1, 7 and 8, and with no alias key the
chain ends at DEVID. -/
def Obligations.SpdmResponses : Prop :=
  (∀ s req, s.boot.inReset = false → s.boot.st = .locked ∨ s.boot.st = .failed →
    let v := leAt req 0 1
    let c := leAt req 1 1
    (c = 0x84 → ∃ t, exec (.getVersion req) s = .next t ∧ t.out = s.out ++ [.mctp [0x10, 4, 0, 0, 0, 2, 0, 0x12, 0, 0x13]] ∧
      t.boot.spdmVersion = 0 ∧ t.boot.spdmPeer = 0 ∧ t.boot.spdmLarge = []) ∧
    (c = 0xE1 → v = 0x12 ∨ v = 0x13 → ∃ t, exec (.getCapabilities req) s = .next t ∧ Answered s t v (capabilitiesResp v) ∧
      t.boot.spdmVersion = v ∧ t.boot.spdmPeer = leAt req 12 4) ∧
    (c ∉ [0x81, 0x82, 0x83, 0x84, 0x86, 0xE0, 0xE1, 0xE3] →
      exec (.spdmUnsupported req) s = .next { s with out := s.out ++ [.mctp (spdmError v 0x07 c)] }) ∧
    (s.boot.spdmVersion = v → v ≠ 0 →
      (c = 0xE3 → ∃ t, exec (.negotiateAlgorithms req) s = .next t ∧ Answered s t v (algorithmsResp req)) ∧
      (c = 0x81 → ∃ t, exec (.getDigests req) s = .next t ∧ Answered s t v (digestsResp s v)) ∧
      (c = 0x82 → ∃ t, exec (.getCertificate req) s = .next t ∧ Answered s t v (certificateResp s req)) ∧
      (c = 0x83 → ∃ t, exec (.challenge req) s = .next t ∧ Answered s t v (challengeResp s req)) ∧
      (c = 0xE0 → ∃ t, exec (.getMeasurements req) s = .next t ∧ Answered s t v (measurementsResp s req)) ∧
      (c = 0x86 → exec (.chunkGet req) s = .next { s with out := s.out ++ [.mctp (chunkResp s req)] }))) ∧
  (∀ s req, s.boot.inReset = false → s.boot.st = .apply → leAt req 1 1 = 0x84 →
    exec (.getVersion req) s = .next { s with boot := { s.boot with spdmHeld := s.boot.spdmHeld ++ [req] } }) ∧
  (∀ s, s.boot.st = .failed → reported s = [1, 7, 8]) ∧
  (∀ s, s.boot.st = .locked → reported s = [1, 2, 3, 4, 5, 6, 7, 8, 9]) ∧
  (∀ s, s.boot.aliasValid = false → certificates s = Config.factoryChain)

/-- `w` is a write that the ledger die accepts over `o` (R576). -/
def RisesFrom (o w : LSlot) : Prop :=
  o.count ≤ w.count ∧ o.suppressed ≤ w.suppressed ∧ w.min ≤ o.min ∧ o.max ≤ w.max ∧ o.last ≤ w.last ∧
  (∀ i < 16, o.hist.getD i 0 ≤ w.hist.getD i 0) ∧ (o.used = true → w.used = true ∧ w.first = o.first) ∧
  (o.saturated = true → w.saturated = true) ∧ (o.damaged = true → w.damaged = true) ∧
  (o.used = true → o.last = w.last → w.detail = o.detail)

/-- R576 to R579: a flush writes the shadow into the older image, each slot by a monotone write or not at all, with the next sequence number,
and leaves the other image; a loss of power leaves the image being written invalid. At power-on the shadow takes the greater count of
both images; a slot that fails in both is DAMAGED. -/
def Claim.LedgerDie : Prop :=
  (∀ s, s.ledger.begun = true ∨ s.ledger.flushing = true → s.boot.inputOk = true →
    let k := olderImage s.ledger
    let side (l : Ledger) (i : Nat) : LImage := if i = 0 then l.image0 else l.image1
    let o := side s.ledger k
    (∃ t, exec (.ledgerFlush .written) s = .next t ∧ t.ledger.slots = s.ledger.slots ∧ t.ledger.flushes = s.ledger.flushes + 1 ∧
      t.ledger.image = k ∧ t.ledger.flushing = false ∧ side t.ledger (1 - k) = side s.ledger (1 - k) ∧ t.mem = s.mem ∧
      (let w := side t.ledger k
       w.valid = true ∧ w.seq = max s.ledger.image0.seq s.ledger.image1.seq + 1 ∧ w.opsec = max o.opsec s.ledger.opsec ∧
       w.cycles = max o.cycles s.ledger.cycles ∧
       (∀ n, RisesFrom (SMap.get {} o.slots n) (SMap.get {} w.slots n)) ∧
       (∀ n, SMap.get {} w.slots n = SMap.get {} s.ledger.slots n ∨ SMap.get {} w.slots n = SMap.get {} o.slots n))) ∧
    (∃ t, exec (.ledgerFlush .powerLost) s = .next t ∧ VolatileLost s t ∧ (side t.ledger k).valid = false ∧
      side t.ledger (1 - k) = side s.ledger (1 - k)) ∧
    ∃ t, exec (.ledgerFlush .unreachable) s = .next t ∧ t.ledger = { s.ledger with dieFault := true } ∧
      bitB (regOf t (oLdg + 4)) 0 = true) ∧
  (∀ s bad0 bad1 slots0 slots1, s.ledger.ready = false →
    ∃ t, exec (.ledgerLoad bad0 bad1 slots0 slots1) s = .next t ∧ t.ledger.ready = true ∧ t.mem = s.mem ∧ t.boot = s.boot ∧
      (∀ n, n ∉ slots0 → n ∉ slots1 → (SMap.get {} t.ledger.slots n).count = max (SMap.get {} s.ledger.slots n).count
        (max (SMap.get {} s.ledger.image0.slots n).count (SMap.get {} s.ledger.image1.slots n).count)) ∧
      (∀ n, n ∈ slots0 → n ∈ slots1 → (SMap.get {} t.ledger.slots n).damaged = true ∧ bitB (regOf t (oLdg + 4)) 1 = true) ∧
      ((s.ledger.image0.valid = false ∨ bad0 = true) → (s.ledger.image1.valid = false ∨ bad1 = true) →
        bitB (regOf t (oLdg + 4)) 3 = true))

/-- R581, R582: the responses of the ledger readout, and LDG_READ_INDEX, which latches a whole slot into LDG_READ_DATA. -/
def Claim.LedgerReadout : Prop :=
  (∀ s, s.boot.inReset = false →
    exec .readHeader s = .next { s with out := s.out ++ [.mctp ([0] ++ toLe 4 s.ledger.opsec ++ toLe 4 (s.ledger.cycles % 2 ^ 24) ++
      toLe 8 s.ledger.flushes ++ toLe 4 (ldgStatus s 0) ++ toLe 4 (regOf s (oLdg + 4)))] } ∧
    (∀ first count, 1 ≤ count → count ≤ 8 → first + count ≤ 4096 → ∃ d, exec (.readSlots first count) s =
      .next { s with out := s.out ++ [.mctp (0 :: d)] } ∧ d.length = 128 * count ∧
      ∀ i < count, slice d (128 * i) 128 = (SMap.get {} s.ledger.slots (first + i)).bytes) ∧
    (∀ first count, count = 0 ∨ 8 < count ∨ 4096 < first + count →
      exec (.readSlots first count) s = .next { s with out := s.out ++ [.mctp [2]] }) ∧
    (∀ req, req % 256 ≠ 1 → req % 256 ≠ 2 →
      exec (.ledgerUnsupported req) s = .next { s with out := s.out ++ [.mctp [1]] }) ∧
    (∀ port value, platformView s port = true → ∃ t, exec (.ldgReadIndex port value) s = .next t ∧ t.ledger.slots = s.ledger.slots ∧
      t.mem = s.mem ∧ regOf t (oLdg + 0x10) % 4096 = value % 4096 ∧
      ∀ k < 32, (readCtl t port (oLdg + 0x100 + 4 * k)).1 = leAt (SMap.get {} s.ledger.slots (value % 4096)).bytes (4 * k) 4) ∧
    (∀ port value, platformView s port = false → exec (.ldgReadIndex port value) s = .next s))

/-! Register access, doorbells and the aperture. -/

/-- The register at offset `x` has no effect but its fields': it is no command register, none of PWR_ and SEC_, and no selector or limit of
the ledger. -/
def PlainRegister (x : Nat) : Prop :=
  x < bar2 ∧ x % 4 = 0 ∧ x / 0x10000 ≠ 1 ∧ x / 0x10000 ≠ 2 ∧ (x / 0x10000 / 4 = 4 → x % 0x10000 ≠ 0x140) ∧ x ≠ oLdg + 0x10 ∧ x ≠ oLdg + 0x24

/-- R9 to R12: what a write of a control register does to each field by its access code: RW takes the value, LK before the lock, W1C is cleared
where the value holds a 1 (a value that a field's table declares reserved is not taken: log entry 34). Bits outside the fields and every
other register keep their values. A misaligned or odd-sized access, and one of a requester to which the register does not
respond, changes nothing; such a read returns 0. -/
def Claim.RegisterWritesByAccessCode : Prop :=
  (∀ s port x v, s.boot.inReset = false → PlainRegister x → responds s port x = true → v < 2 ^ 32 →
    ∃ t, exec (.registerWrite port x 4 v) s = .next t ∧ t.mem = s.mem ∧ t.jets = s.jets ∧ t.host = s.host ∧ t.boot = s.boot ∧
      (∀ y, y ≠ x → regOf t y = regOf s y) ∧
      (∀ f ∈ fieldsAt x, ∀ i, f.lo ≤ i → i ≤ f.hi → bitB (regOf t x) i =
        (match f.acc with
         | .rw => if f.admits v then bitB v i else bitB (regOf s x) i
         | .lk => if f.admits v && !s.boot.locked then bitB v i else bitB (regOf s x) i
         | .w1c => bitB (regOf s x) i && !bitB v i
         | .wo => bitB (regOf s x) i)) ∧
      (∀ i, (∀ f ∈ fieldsAt x, i < f.lo ∨ f.hi < i) → bitB (regOf t x) i = bitB (regOf s x) i)) ∧
  (∀ s port x size v, wellSized x size = false → exec (.registerWrite port x size v) s = .next s) ∧
  (∀ s port x v, x < bar2 → responds s port x = false → exec (.registerWrite port x 4 v) s = .next s) ∧
  (∀ s port x size, s.boot.inReset = false → wellSized x size = false ∨ (size = 4 ∧ x < bar2 ∧ responds s port x = false) →
    exec (.counterLowRead port x size) s = .next { s with out := s.out ++ [.readData port x (List.replicate size 0)] })

/-- R13, R527, R542, R554, R566: a read of a counter's low word latches its high word for that requester, and a 64-bit read returns both; a
write of SEC_UPDATE_CTRL, of HIF_ADMIN_GO, and of the registers of a context page is the command that it names (a reserved CMD is refused: the
model's choice, log entry 132). -/
def Claim.CountersAndCommandRegisters : Prop :=
  (∀ s port x u o, s.boot.inReset = false → platformView s port = true → x < bar2 → x % 8 = 0 → blockAt x = some (u, o) →
    pairLow u o = true → pairValue s u o x < 2 ^ 64 →
    let v := pairValue s u o x
    (∃ t, exec (.counterLowRead port x 4) s = .next t ∧ t.out = s.out ++ [.readData port x (toLe 4 v)] ∧
      SMap.get none t.host.latches (latchKey port x) = some (BitVec.ofNat 32 (v / 2 ^ 32)) ∧
      (∀ r y, latchKey r y ≠ latchKey port x →
        SMap.get none t.host.latches (latchKey r y) = SMap.get none s.host.latches (latchKey r y)) ∧
      ∀ q, q.boot.inReset = false → platformView q port = true → q.host.latches = t.host.latches →
        ∃ z, exec (.counterLowRead port (x + 4) 4) q = .next z ∧ z.out = q.out ++ [.readData port (x + 4) (toLe 4 (v / 2 ^ 32))]) ∧
    ∃ t, exec (.counterLowRead port x 8) s = .next t ∧ t.out = s.out ++ [.readData port x (toLe 8 v)]) ∧
  (∀ s port v, s.boot.inReset = false → platformView s port = true → v < 2 ^ 32 →
    (bits v 2 0 = 1 → exec (.registerWrite port (oSec + 4) 4 v) s = exec (.updBegin true (bits v 3 3)) s) ∧
    (bits v 2 0 = 3 → exec (.registerWrite port (oSec + 4) 4 v) s = exec (.updFinish true) s) ∧
    (bits v 2 0 = 4 → exec (.registerWrite port (oSec + 4) 4 v) s = exec (.updateAbort true) s) ∧
    (bits v 2 0 = 2 → exec (.registerWrite port (oSec + 4) 4 v) s =
      exec (.updateWrite true (regOf s (oSec + 8) % 2 ^ 14) (windowData s)) s) ∧
    (bits v 2 0 = 5 → exec (.registerWrite port (oSec + 4) 4 v) s = exec (.svnCommit true (2 ^ 32)) s) ∧
    (6 ≤ bits v 2 0 ∨ bits v 2 0 = 0 → exec (.registerWrite port (oSec + 4) 4 v) s = .next (updRefuse s)) ∧
    (∀ p < 4, bitB v 0 = true → exec (.registerWrite port (oHif p + 0x140) 4 v) s = .next (adminGo s p))) ∧
  (∀ s port c v, s.boot.inReset = false → c < 1024 → v < 2 ^ 32 →
    exec (.registerWrite port (bar2 + c * 0x10000 + 4) 4 v) s = exec (.ctxTail port c v) s ∧
    exec (.registerWrite port (bar2 + c * 0x10000 + 0xC) 4 v) s = exec (.ctxEvqHead port c v) s)

/-- R554, R555, R557, R563, R566: a tail that does not pass the ring and does not fall back is taken, from the page or from a jet's message;
another halts the context with COMMAND_BAD. The event queue's head re-arms the vector. A fetched command that is well formed
and does not wrap is appended and the head passes it; otherwise the context halts. -/
def Obligations.DoorbellsAndFetching : Prop :=
  (∀ s port c v, c < 1024 → ownCtx s port c = true → (getCtx s c).st ≠ .free →
    let x := getCtx s c
    let ahead := (BitVec.ofNat 32 v - x.head).toNat
    (ahead ≤ 2 ^ x.ringLog2 → (x.tail - x.head).toNat ≤ ahead →
      exec (.ctxTail port c v) s = .next (updCtx s c fun x => { x with tail := BitVec.ofNat 32 v })) ∧
    (2 ^ x.ringLog2 < ahead ∨ ahead < (x.tail - x.head).toNat → x.st ≠ .halted →
      ∃ t, exec (.ctxTail port c v) s = .next t ∧ (getCtx t c).st = .halted ∧ (getCtx t c).haltReason = 2 ∧
        (getCtx t c).cmds = [] ∧ (getCtx t c).tail = x.tail) ∧
    exec (.ctxEvqHead port c v) s = .next (updCtx s c fun x => { x with evqHead := BitVec.ofNat 32 v, armed := true })) ∧
  (∀ s k m c, s.jets.msgs[k]? = some m → m.dst / 4096 = 5 → m.dst % 4096 < 4 → inTurn s k m = true →
    let d := dropMsg s k
    let q := finishDisc (countP1 { d with jets := { d.jets with credits := d.jets.credits ++ [(m.src, m.srcIdx)] } } 1) m.src m.srcIdx
    (ctxOfJet s m.src = some c → leAt m.data 0 2 = c → leAt m.data 2 2 = 0 → leAt m.data 8 56 = 0 →
      exec (.chanterDoorbell k) s = .next (ringDoorbell q c (leAt m.data 4 4))) ∧
    (ctxOfJet s m.src ≠ some (leAt m.data 0 2) ∨ leAt m.data 2 2 ≠ 0 ∨ leAt m.data 8 56 ≠ 0 →
      exec (.chanterDoorbell k) s = .next (hifFlag q (m.dst % 4096) 3))) ∧
  (∀ s c data, mayFetch s c = true → (getCtx s c).ringHost = true →
    let x := getCtx s c
    let n := bits (leAt data 0 8) 13 8 + 1
    let raw := slice data 0 (128 * n)
    (fetchIdx x + n ≤ 2 ^ x.ringLog2 → inWindow s c (fetchAddr x) (128 * n) = true → inWindow s c (fetchAddr x) 128 = true →
      n ≤ (x.tail - x.head).toNat →
      (cmdWellFormed raw = true → exec (.commandFetched c data true) s = .next (updCtx s c fun y => { y with
        head := y.head + BitVec.ofNat 32 n, cmds := y.cmds ++ [{ slot := y.head.toNat, raw, since := s.ticks }] })) ∧
      (cmdWellFormed raw = false → exec (.commandFetched c data true) s = .next (commandBad s c x.head.toNat))) ∧
    (2 ^ x.ringLog2 < fetchIdx x + n → inWindow s c (fetchAddr x) 128 = true →
      exec (.commandFetched c data true) s = .next (commandBad s c x.head.toNat)) ∧
    (inWindow s c (fetchAddr x) 128 = false → exec (.commandFetched c data true) s = .next (hostFault s c)) ∧
    exec (.commandFetched c data false) s = .next (hostFault s c) ∧
    (fetchIdx x + n ≤ 2 ^ x.ringLog2 → inWindow s c (fetchAddr x) (128 * n) = true → inWindow s c (fetchAddr x) 128 = true →
      (x.tail - x.head).toNat < n → exec (.commandFetched c data true) s = .next s)) ∧
  (∀ s c data ok fs q, mayFetch s c = true → (getCtx s c).ringHost = false →
    let a := fetchAddr (getCtx s c)
    (Claim.ReadFails fs s q → exec (.commandFetched c data ok fs) s = .next q) ∧
    (Claim.Reads fs s q →
      (ctxRead q c a 8 = none → exec (.commandFetched c data ok fs) s = .next (commandBad q c (getCtx s c).head.toNat)) ∧
      ∀ h r, ctxRead q c a 8 = some (h, r) →
        let n := bits (leNat h) 13 8 + 1
        (ctxRead r c a (128 * n) = none → exec (.commandFetched c data ok fs) s = .next (commandBad r c (getCtx s c).head.toNat)) ∧
        ∀ raw z, ctxRead r c a (128 * n) = some (raw, z) → exec (.commandFetched c data ok fs) s = .next (decodeCmd z c n raw))) ∧
  (∀ s c n raw,
    let x := getCtx s c
    (fetchIdx x + n ≤ 2 ^ x.ringLog2 → n ≤ (x.tail - x.head).toNat → cmdWellFormed raw = true →
      decodeCmd s c n raw = updCtx s c fun y => { y with
        head := y.head + BitVec.ofNat 32 n, cmds := y.cmds ++ [{ slot := y.head.toNat, raw, since := s.ticks }] }) ∧
    (2 ^ x.ringLog2 < fetchIdx x + n → decodeCmd s c n raw = commandBad s c x.head.toNat) ∧
    (fetchIdx x + n ≤ 2 ^ x.ringLog2 → (x.tail - x.head).toNat < n → decodeCmd s c n raw = s) ∧
    (fetchIdx x + n ≤ 2 ^ x.ringLog2 → n ≤ (x.tail - x.head).toNat → cmdWellFormed raw = false →
      decodeCmd s c n raw = commandBad s c x.head.toNat)) ∧
  (∀ s c slot, (getCtx s c).st ≠ .free → (getCtx s c).st ≠ .halted →
    (getCtx (commandBad s c slot) c).st = .halted ∧ (getCtx (commandBad s c slot) c).haltReason = 2 ∧
    (getCtx (hostFault s c) c).st = .halted ∧ (getCtx (hostFault s c) c).haltReason = 3)

/-- R341, R348, R553: an access through a window of BAR4: where the window stands, is enabled and admits it, a read returns the bytes there and
a write stores them; otherwise APER_FAULT, and Completer Abort for a read; what its reads find wrong comes first. A physical window stays within the port's frames. -/
def Obligations.ApertureAccesses : Prop :=
  (∀ s port off data, s.boot.inReset = false → port < 4 → (getPort s port).created = true →
    let n := data.length
    (∀ a, aperture s port off n true = some (.phys a) → ∃ t, exec (.bar4Access port off true data) s = .next t ∧
      (∀ i < n, byteAt t (a + i) = data.getD i 0) ∧ (∀ b, b < a ∨ a + n ≤ b → byteAt t b = byteAt s b) ∧ t.out = s.out ∧
      t.jets = s.jets ∧ t.host = s.host) ∧
    (∀ a, aperture s port off n false = some (.phys a) → exec (.bar4Access port off false data) s =
      .next { s with out := s.out ++ [.readData port off (readPhys s a n)] }) ∧
    (∀ c a t, aperture s port off n true = some (.ctx c a) → ctxWrite s c a data = some t →
      exec (.bar4Access port off true data) s = .next t) ∧
    (∀ c a d t, aperture s port off n false = some (.ctx c a) → ctxRead s c a n = some (d, t) →
      exec (.bar4Access port off false data) s = .next { t with out := t.out ++ [.readData port off d] }) ∧
    (∀ a, aperture s port off n false = some (.diag a) → (∀ i < n, (diagByte s (a + i)).isSome = true) →
      exec (.bar4Access port off false data) s = .next { s with
        out := s.out ++ [.readData port off ((List.range n).map fun i => (diagByte s (a + i)).getD 0)] }) ∧
    (aperture s port off n true = none → exec (.bar4Access port off true data) s = .next (hifFlag s port 1)) ∧
    (aperture s port off n false = none → ∃ t, exec (.bar4Access port off false data) s = .next t ∧
      t.out = s.out ++ [.msix port 0, .completerAbort port off] ∧ t.mem = s.mem) ∧
    (∀ c a, aperture s port off n true = some (.ctx c a) → ctxWrite s c a data = none →
      exec (.bar4Access port off true data) s = .next (aperFault (cisRefused s) port off true)) ∧
    (∀ c a, aperture s port off n false = some (.ctx c a) → ctxRead s c a n = none →
      exec (.bar4Access port off false data) s = .next (aperFault (cisRefused s) port off false))) ∧
  (∀ s port off write data fs q, s.boot.inReset = false → port < 4 → (getPort s port).created = true →
    (Claim.ReadFails fs s q → exec (.bar4Access port off write data fs) s = .next q) ∧
    (Claim.Reads fs s q → q.boot.inReset = false → (getPort q port).created = true →
      exec (.bar4Access port off write data fs) s = exec (.bar4Access port off write data) q)) ∧
  (∀ s port w x n write, s.recov.st ≠ .contained → w < 64 → 1 ≤ n → x + n ≤ 2 ^ 30 →
    let lo := regOf s (oHif port + 0x200 + 8 * w)
    let a := bits (regOf s (oHif port + 0x204 + 8 * w)) 17 0 * 2 ^ 30 + x
    let q := getPort s port
    (bitB lo 0 = false → aperture s port (w * 2 ^ 30 + x) n write = none) ∧
    (bitB lo 2 = true → aperture s port (w * 2 ^ 30 + x) n true = none) ∧
    (bitB lo 0 = true → bitB lo 1 = true → (write = true → bitB lo 2 = false) →
      aperture s port (w * 2 ^ 30 + x) n write =
        if q.frameFirst * 2 ^ 21 ≤ a ∧ a + n ≤ (q.frameFirst + q.frameCount) * 2 ^ 21 then some (.phys a) else none)) ∧
  (∀ s port off n write, s.recov.st = .contained → aperture s port off n write = none)

/-! Admin operations, contexts and scheduling. -/

/-- Port `p`, created and not BUSY, has operation `op` of its own context `c` in its command registers `m`, and no recovery holds the context
(R542, R568). -/
structure Asks (s : State) (p op c : Nat) (m : List Byte) : Prop where
  port : p < 4
  created : (getPort s p).created = true
  idle : (getPort s p).busy = false
  bytes : adminBytes s p = m
  opcode : leAt m 0 1 = op
  reserved : leAt m 1 1 = 0
  ctx : leAt m 2 2 = c
  own : portOf s c = some p
  free : heldByRecovery s c = false
  /-- No destruction of the port has come to its end. -/
  settled : ∀ d ∈ waitingDestroy s p, copyReads s d = true

/-- R542, R566, R568: an operation that does not end OK has no effect but its CODE and the interrupt; GO on a BUSY port is flagged; a reserved
OP, a byte of 1 and another port's context are BAD_ARG; another platform's DRAFT is NOT_PLATFORM. A context that a recovery holds is
BAD_STATE. -/
def Claim.AdminOperationsThatFail : Prop :=
  (∀ e ∈ [(1, Instr.ctxCreate), (2, .ctxDestroy), (3, .lease), (4, .frames), (5, .hostWindow), (6, .invalidate), (7, .suspend),
      (8, .restart), (9, .ctxAbort), (10, .draft)], ∀ s p, p < 4 → (getPort s p).created = true → leAt (adminBytes s p) 0 1 = e.1 →
    (∀ d ∈ waitingDestroy s p, copyReads s d = true) → (∀ d ∈ waitingInvalidate s p, accessesOver s d = false) →
    let m := adminBytes s p
    let c := leAt m 2 2
    ((getPort s p).busy = true → exec (e.2 p) s = .next (hifFlag s p 4)) ∧
    ((getPort s p).busy = false →
      ((adminRun s p m).1 ≠ 0 → (adminRun s p m).1 ≠ 8 → ∃ t, exec (e.2 p) s = .next t ∧ (getPort t p).code = (adminRun s p m).1 ∧
        (getPort t p).busy = false ∧ t.mem = s.mem ∧ t.jets = s.jets ∧ t.host.ctxs = s.host.ctxs ∧ t.host.frames = s.host.frames ∧
        t.csr = s.csr ∧ t.out = s.out ++ [.msix p 0]) ∧
      (leAt m 1 1 ≠ 0 → (adminRun s p m).1 = 1) ∧
      (leAt m 1 1 = 0 → e.1 ≠ 10 → portOf s c ≠ some p → (adminRun s p m).1 = 1) ∧
      (leAt m 1 1 = 0 → e.1 ∉ [2, 5, 10] → portOf s c = some p → (getCtx s c).st ≠ .free → heldByRecovery s c = true →
        (adminRun s p m).1 = 2) ∧
      (leAt m 1 1 = 0 → e.1 = 10 → platformView s p = false → (adminRun s p m).1 = 4) ∧
      (leAt m 1 1 = 0 → e.1 = 1 → portOf s c = some p → (getCtx s c).st ≠ .free → heldByRecovery s c = false →
        (adminRun s p m).1 = 2) ∧
      (leAt m 1 1 = 0 → e.1 ∈ [2, 5, 6, 7, 8, 9] → portOf s c = some p → (getCtx s c).st = .free →
        (adminRun s p m).1 = 2)))

/-- R543, R544, R552, R346: CTX_CREATE makes the context that its fields say; LEASE grants the units that it names, and its slices read as
zero; FRAMES zeroes frames of nobody and gives them to the context; HOST_WINDOW sets a window. -/
def Claim.ContextsAndTheirResources : Prop :=
  (∀ s p c m, Asks s p 1 c m → (getCtx s c).st = .free → createOk s p c m = true → ∃ t, exec (.ctxCreate p) s = .next t ∧
    (getCtx t c).st = .ready ∧ (getCtx t c).fabric = bitB (leAt m 4 1) 0 ∧ (getCtx t c).eval = bitB (leAt m 4 1) 1 ∧
    (getCtx t c).priority = bits (leAt m 4 1) 4 2 ∧ (getCtx t c).ringLog2 = leAt m 5 1 ∧ (getCtx t c).evqLog2 = leAt m 6 1 ∧
    (getCtx t c).job = leAt m 8 2 ∧ (getCtx t c).quantum = leAt m 12 4 ∧ (getCtx t c).ptRoot = leAt m 40 8 ∧
    (getCtx t c).saveAddr = leAt m 32 8 ∧ (getCtx t c).evqBase = leAt m 24 8 ∧ (getCtx t c).head = 0 ∧ (getCtx t c).tail = 0 ∧
    (getCtx t c).cmds = [] ∧ (getCtx t c).lease = {} ∧ (∀ d, d ≠ c → getCtx t d = getCtx s d) ∧ t.mem = s.mem ∧
    (getPort t p).code = 0) ∧
  (∀ s p c m, Asks s p 3 c m → (getCtx s c).st = .ready ∨ (getCtx s c).st = .halted → (getCtx s c).saved = false →
    (∀ e ∈ (getCtx s c).cmds, e.started = false) → leaseFieldsOk s p c m = true → leaseTaken s c (leaseOf m) = false →
    let l := leaseOf m
    ∃ t, exec (.lease p) s = .next t ∧ (getCtx t c).lease = l ∧ (getPort t p).code = 0 ∧
      (∀ n < 58, bitB l.slices n = true → (getSlice t n).lease = some c ∧ (getSlice t n).cache = bitB l.cache n ∧
        ∀ a, sliceBase n ≤ a → a < sliceBase (n + 1) → byteAt t a = 0)) ∧
  (∀ s p c m, Asks s p 4 c m → leAt m 12 52 = 0 →
    let f := leAt m 4 4
    let n := leAt m 8 4
    (getPort s p).frameFirst ≤ f → f + n ≤ (getPort s p).frameFirst + (getPort s p).frameCount →
    (∀ i < n, frameOwner s (f + i) = 0) → ∃ t, exec (.frames p) s = .next t ∧ (getPort t p).code = 0 ∧
      (∀ i < n, frameOwner t (f + i) = c + 1) ∧ (∀ g, g < f ∨ f + n ≤ g → frameOwner t g = frameOwner s g) ∧
      (∀ a, f * 2 ^ 21 ≤ a → a < (f + n) * 2 ^ 21 → byteAt t a = 0) ∧
      (∀ a, a < f * 2 ^ 21 ∨ (f + n) * 2 ^ 21 ≤ a → byteAt t a = byteAt s a)) ∧
  (∀ s p c m, Asks s p 5 c m → (getCtx s c).st ≠ .free → leAt m 4 1 < 8 → leAt m 5 3 = 0 → leAt m 24 40 = 0 →
    leAt m 8 8 % 4096 = 0 → leAt m 16 8 % 4096 = 0 → ∃ t, exec (.hostWindow p) s = .next t ∧ (getPort t p).code = 0 ∧ t.mem = s.mem ∧
      SMap.get (0, 0) (getCtx t c).windows (leAt m 4 1) = (leAt m 8 8, leAt m 16 8) ∧
      (∀ w, w ≠ leAt m 4 1 → SMap.get (0, 0) (getCtx t c).windows w = SMap.get (0, 0) (getCtx s c).windows w))

/-- R541, R542, R548, R551, R442: the states that the other operations take a context through: INVALIDATE completes at once, or
when the accesses that began before it have, SUSPEND makes it SUSPENDED at once where nothing of it runs and waits otherwise, RESTART
makes it READY (a HALTED one at the head given), ABORT halts it, CTX_DESTROY frees it with its frames zeroed, or waits for the copies of its blocks; DRAFT gives a standby its
device ID and takes it to the REJOIN of the device that it replaces (R452). -/
def Claim.ContextStates : Prop :=
  (∀ s p c m, Asks s p 6 c m → (getCtx s c).st ≠ .free → leAt m 4 60 = 0 →
    (accessesOver s c = true → exec (.invalidate p) s = .next (adminDone s p 0)) ∧
    (accessesOver s c = false → ∃ t, exec (.invalidate p) s = .next t ∧ (getPort t p).busy = true ∧ t.out = s.out ∧
      getCtx t c = { getCtx s c with invalidating := true })) ∧
  (∀ s p c, (waitingInvalidate s p).find? (accessesOver s) = some c →
    exec (.invalidate p) s = .next (adminDone (updCtx s c fun x => { x with invalidating := false }) p 0)) ∧
  (∀ s p c m, Asks s p 7 c m → leAt m 4 60 = 0 →
    ((getCtx s c).st = .ready ∨ ((getCtx s c).st = .running ∧ noUnits (getCtx s c) = true) →
      exec (.suspend p) s = .next (adminDone (updCtx s c fun x => { x with st := .suspended }) p 0)) ∧
    ((getCtx s c).st = .running → noUnits (getCtx s c) = false → ∃ t, exec (.suspend p) s = .next t ∧ (getPort t p).busy = true ∧
      getCtx t c = { getCtx s c with suspending := true } ∧ t.out = s.out)) ∧
  (∀ s p c m, Asks s p 8 c m → leAt m 8 56 = 0 →
    ((getCtx s c).st = .suspended →
      exec (.restart p) s = .next (adminDone (updCtx s c fun x => { x with st := .ready, readySince := s.ticks }) p 0)) ∧
    (let h := BitVec.ofNat 32 (leAt m 4 4)
     (getCtx s c).st = .halted → ((getCtx s c).tail - h).toNat ≤ 2 ^ (getCtx s c).ringLog2 →
      exec (.restart p) s = .next (adminDone (updCtx s c fun x => { x with
        st := .ready, readySince := s.ticks, haltReason := 0, head := h }) p 0))) ∧
  (∀ s p c m, Asks s p 9 c m → leAt m 4 60 = 0 → (getCtx s c).st ∈ [.ready, .running, .suspended] →
    ∃ t, exec (.ctxAbort p) s = .next t ∧ (getCtx t c).st = .halted ∧ (getCtx t c).haltReason = 1 ∧ (getCtx t c).cmds = [] ∧
      (getPort t p).code = 0) ∧
  (∀ s p c m, Asks s p 2 c m → leAt m 4 60 = 0 → (getCtx s c).st ≠ .free →
    (copyReads s c = false → ∃ t, exec (.ctxDestroy p) s = .next t ∧ (getCtx t c).st = .free ∧ (getPort t p).code = 0 ∧
      (∀ f, frameOwner s f = c + 1 → frameOwner t f ≠ c + 1 ∧ ∀ a, f * 2 ^ 21 ≤ a → a < (f + 1) * 2 ^ 21 → byteAt t a = 0) ∧
      (∀ n < 16384, getBlock t c n = none)) ∧
    (copyReads s c = true → ∃ t, exec (.ctxDestroy p) s = .next t ∧ (getCtx t c).destroying = true ∧ (getPort t p).busy = true)) ∧
  (∀ s p c, (waitingDestroy s p).find? (fun d => !copyReads s d) = some c → ∃ t, exec (.ctxDestroy p) s = .next t ∧
    (getCtx t c).st = .free) ∧
  (∀ s p m d, p < 4 → (getPort s p).created = true → (getPort s p).busy = false → adminBytes s p = m → leAt m 0 1 = 10 →
    leAt m 1 1 = 0 → platformView s p = true → leAt m 6 58 = 0 → s.links.hasId = false → s.links.drafted = false →
    s.links.idParts.find? (fun e => leAt e 0 2 == leAt m 4 2) = some d →
    ∃ t, exec (.draft p) s = .next t ∧ t.links.devId = leAt m 4 2 ∧ t.links.hasId = true ∧ t.links.drafted = true ∧
      t.links.idPart = d ∧ (getPort t p).code = 0 ∧
      (s.recov.st = .normal → t.recov.st = .rejoin ∧ t.recov.sev = 3 ∧ t.recov.lost = [leAt m 4 2]) ∧ (∀ q < 32, portRole t q ≠ 0 → (getLink t q).st = .training))

/-- R532, R537: a host link comes up at the width and rate trained, or is flagged where its partner has no Flit mode; PERST# takes the link down,
frees or halts the port's contexts, and resets its registers, and keeps every other port. -/
def Claim.HostLinks : Prop :=
  (∀ s p width speed, p < 4 → (getPort s p).created = true → (getPort s p).linkUp = false →
    (speed = 1 ∨ speed = 2 → width ≤ (getPort s p).lanes → ∃ t, exec (.linkUp p width speed true) s = .next t ∧
      getPort t p = { getPort s p with linkUp := true, width, speed } ∧ bitB t.boot.perst p = true) ∧
    ∃ t, exec (.linkUp p width speed false) s = .next t ∧ getPort t p = getPort s p ∧ bitB (regOf t (oHif p + 4)) 0 = true) ∧
  (∀ s p, p < 4 → (getPort s p).created = true → ∃ t, exec (.perst p) s = .next t ∧ (getPort t p).linkUp = false ∧
    (getPort t p).busy = false ∧ (getPort t p).created = true ∧ bitB t.boot.perst p = false ∧
    regOf t (oHif p + 8) = 0x0A ∧ (∀ x, x / 0x10000 = 0x10 + p → x ≠ oHif p + 8 → regOf t x = 0) ∧
    (∀ c, portOf s c = some p → (getCtx t c).st = .free ∨ ((getCtx t c).st = .halted ∧ (getCtx t c).destroying = true)))

/-- R545 to R547: a context that could run, goes before every other that could, and whose units have no traffic becomes RUNNING with its units;
its quantum's end marks it; a context of higher priority, or of the same at the end of the quantum, that shares a unit makes a running one
yield. -/
def Claim.Scheduling : Prop :=
  (∀ s c, unitsRun s = true → couldRun s c = true → (∀ d ∈ created s, d ≠ c → couldRun s d = true → goesBefore s d c = false) →
    trafficClear s (claimedTerraces (getCtx s c)) (claimedBasins (getCtx s c)) = true →
    ∃ t, exec (.contextSchedule c) s = .next t ∧ (getCtx t c).st = .running ∧ (getCtx t c).expired = false ∧
      (∀ τ ∈ claimedTerraces (getCtx s c), (getTerrace t τ).lease = some c) ∧
      (∀ b ∈ claimedBasins (getCtx s c), (getBasin t b).lease = some c)) ∧
  (∀ s c, unitsRun s = false ∨ couldRun s c = false → exec (.contextSchedule c) s = .next s) ∧
  (∀ s c d, couldRun s c = true → couldRun s d = true → d ∈ created s → d ≠ c →
    (getCtx s c).priority < (getCtx s d).priority → exec (.contextSchedule c) s = .next s) ∧
  (∀ s c, (getCtx s c).st = .running → (getCtx s c).quantum ≠ 0 →
    exec (.quantumExpiry c) s = .next (updCtx s c fun x => { x with expired := true })) ∧
  (∀ s c, (getCtx s c).st ≠ .running ∨ (getCtx s c).quantum = 0 → exec (.quantumExpiry c) s = .next s) ∧
  (∀ s c d, (getCtx s c).st = .running → heldByRecovery s c = false → noUnits (getCtx s c) = false → d ∈ created s →
    readyNow s d = true → sharesUnit (getCtx s c) (getCtx s d) = true →
    (getCtx s c).priority < (getCtx s d).priority ∨ ((getCtx s c).expired = true ∧ (getCtx s c).priority = (getCtx s d).priority) →
    mustYield s c = true)

/-! Commands of a context's ring. -/

/-- The oldest command of context `c` that has not started is `m`, of opcode `op`, it may start now, and no other command has its slot
count. -/
structure Starts (s : State) (c op : Nat) (m : Cmd) : Prop where
  next : nextCmd s c = some m
  opcode : cmdOp m = op
  single : ∀ e ∈ (getCtx s c).cmds, e.slot = m.slot → e = m

/-- R556, R558, R565: what the completion of a command does: it leaves the ring, its header's counter goes up where the header says so, and its
event is written where the header asks for one. -/
def Claim.CommandCompletion : Prop :=
  ∀ s c m, (getCtx s c).cmds.find? (fun e => e.slot == m.slot) = some m → (getCtx s c).st = .running →
    let t := completeCmd s c m.slot
    let h := leAt m.raw 0 8
    ((getCtx t c).cmds = (getCtx s c).cmds.filter (fun e => decide (e.slot ≠ m.slot)) ∨ (getCtx t c).st = .halted) ∧
    (bitB h 21 = false →
      t = updCtx s c fun x => { x with
        cmds := x.cmds.filter (fun e => e.slot ≠ m.slot)
        counters := if bitB h 20 then SMap.upd 0 x.counters (bits h 19 16) (· + 1) else x.counters }) ∧
    (bitB h 21 = true → (getCtx s c).evqTail = (getCtx s c).evqHead → inWindow s c ((getCtx s c).evqBase +
        64 * ((getCtx s c).evqTail.toNat % 2 ^ (getCtx s c).evqLog2)) 64 = true →
      ∃ e rest, t.out = s.out ++ (Out.hostWrite ((portOf s c).getD 0) ((getCtx s c).evqBase +
        64 * ((getCtx s c).evqTail.toNat % 2 ^ (getCtx s c).evqLog2)) e :: rest) ∧ leAt e 0 2 = 1 ∧ leAt e 2 2 = c % 2 ^ 16 ∧
        leAt e 4 4 = m.slot % 2 ^ 32 ∧ (getCtx t c).evqTail = (getCtx s c).evqTail + 1)

/-- R38, R169, R180, R262, R326, R557, R558: NOP completes; BASIN_ITEMS moves its items, in order and with consecutive sequence numbers, into a
queue with room for them; LAUNCH starts its threads where all are FREE; PROFILE_WRITE and ROUTE_WRITE are held at their spout; a
WAIT completes when its condition holds. One that names a unit outside the lease is malformed. -/
def Claim.ComputeCommands : Prop :=
  (∀ s c m, Starts s c 0x00 m → exec (.nopCmd c) s = .next (completeCmd (startCmd s c m.slot) c m.slot)) ∧
  (∀ s c m, Starts s c 0x01 m →
    let b := leAt m.raw 8 1
    let n := leAt m.raw 9 1
    let s' := startCmd s c m.slot
    let x := getBasin s b
    (claimsBasin s c b = true → x.lease = some c → startedOf s c 0x01 = [] → (getSpout s b).heldWrites = [] → m.moved = 0 → 1 ≤ n →
      x.queue.length + n ≤ 32 → ∃ t, exec (.basinItems c) s = .next (completeCmd t c m.slot) ∧
        (getBasin t b).queue = x.queue ++ (List.range n).map (fun i => {
          seq := x.nextSeq + BitVec.ofNat 32 i, raw := slice m.raw (128 * (1 + i)) 128, fix := (getCtx s c).fixed, slot := m.slot }) ∧
        (getBasin t b).nextSeq = x.nextSeq + BitVec.ofNat 32 n ∧ (∀ d, d ≠ b → getBasin t d = getBasin s d) ∧ t.mem = s.mem ∧
        t.jets = s.jets ∧ t.sluice = s.sluice) ∧
    (claimsBasin s c b = false → startedOf s c 0x01 = [] → exec (.basinItems c) s = .next (commandBad s' c m.slot))) ∧
  (∀ s c m, Starts s c 0x02 m →
    let mask := leAt m.raw 8 1
    let s' := startCmd s c m.slot
    (onlyBits mask (getCtx s c).lease.terraces = false → exec (.launchCmd c) s = .next (commandBad s' c m.slot)) ∧
    (onlyBits mask (getCtx s c).lease.terraces = true → mask ≠ 0 →
      (∀ k ∈ launchThreads m.raw, (getThread s (k / 256) (k % 256)).st = .free) →
      ∃ t, exec (.launchCmd c) s = .next t ∧ t.mem = s.mem ∧
        ∀ j u, u < 256 → j * 256 + u ∈ launchThreads m.raw → (getThread t j u).st = .ready ∧
          (getThread t j u).pc = BitVec.ofNat 64 (leAt m.raw 16 8) ∧ (getThread t j u).reg 3 = BitVec.ofNat 64 (leAt m.raw 24 8)) ∧
    (onlyBits mask (getCtx s c).lease.terraces = true → mask ≠ 0 →
      (∃ k ∈ launchThreads m.raw, (getThread s (k / 256) (k % 256)).st ≠ .free) → exec (.launchCmd c) s = .next s')) ∧
  (∀ s c m,
    let b := leAt m.raw 8 1
    let s' := startCmd s c m.slot
    let held (route : Bool) (n : Nat) := updSpout s' b fun x =>
      { x with heldWrites := x.heldWrites ++ [(route, leAt m.raw 9 1, slice m.raw 128 n, m.slot)] }
    (Starts s c 0x03 m → exec (.profileWrite c) s = .next (if claimsBasin s c b then held false 128 else commandBad s' c m.slot)) ∧
    (Starts s c 0x04 m → exec (.routeWrite c) s = .next (if claimsBasin s c b then held true 64 else commandBad s' c m.slot))) ∧
  (∀ s c m, Starts s c 0x11 m → startedOf s c 0x11 = [] →
    let s' := startCmd s c m.slot
    let i := leAt m.raw 9 1
    let due (v : Reg) : Prop := (v - BitVec.ofNat 32 (leAt m.raw 16 4)).toNat < 2 ^ 31
    (leAt m.raw 8 1 = 0 →
      (due (SMap.get 0 (getCtx s c).counters i) → exec (.waitCmd c) s = .next (completeCmd s' c m.slot)) ∧
      (¬ due (SMap.get 0 (getCtx s c).counters i) → exec (.waitCmd c) s = .next s')) ∧
    (leAt m.raw 8 1 = 1 → claimsBasin s c (i / 4) = true →
      (due (SMap.get 0 (getBasin s (i / 4)).comp (i % 4)) → exec (.waitCmd c) s = .next (completeCmd s' c m.slot)) ∧
      (¬ due (SMap.get 0 (getBasin s (i / 4)).comp (i % 4)) → exec (.waitCmd c) s = .next s')))

/-- R402, R482, R552, R558, R559, R562: SET replaces the values whose bits its mask holds and no other; PHASE stores the hints; EVAL_OPEN and
EVAL_CLOSE open and close the window of both contexts; COPY and SIGNAL write the bytes to the host or to the context's memory;
JOB_START starts the job on a fabric that is ready. -/
def Claim.ContextCommands : Prop :=
  (∀ s c m, Starts s c 0x05 m →
    let s' := startCmd s c m.slot
    let x := getCtx s' c
    let k := leAt m.raw 8 1
    let y : Ctx := { x with
      seed := if bitB k 0 then leAt m.raw 16 8 else x.seed
      scaleBase := if bitB k 1 then leAt m.raw 24 8 else x.scaleBase
      scaleLen := if bitB k 1 then leAt m.raw 32 4 else x.scaleLen
      silentBase := if bitB k 2 then leAt m.raw 40 8 else x.silentBase
      silentSet := x.silentSet || bitB k 2
      updBase := if bitB k 3 then leAt m.raw 48 8 else x.updBase
      updSet := x.updSet || bitB k 3
      groupBase := if bitB k 4 then leAt m.raw 56 8 else x.groupBase
      remoteBase := if bitB k 5 then leAt m.raw 64 8 else x.remoteBase
      fixed := if bitB k 6 then slice m.raw 72 4 else x.fixed }
    let fits := buddyFits s' (fun d => if d = c then y else getCtx s' d) 0
    (growsTables x y = false ∨ fits = true → exec (.setCmd c) s = .next (completeCmd (updCtx s' c fun _ => y) c m.slot)) ∧
    (growsTables x y = true → fits = false → exec (.setCmd c) s = .next (commandBad (slcErr s' 11) c m.slot))) ∧
  (∀ s c m, Starts s c 0x06 m → exec (.phaseCmd c) s = .next (settle (completeCmd (updCtx (startCmd s c m.slot) c fun x => { x with
    hints := (List.range 6).map fun i => leAt m.raw (16 + i) 1, phase := leAt m.raw 22 1 }) c m.slot))) ∧
  (∀ s c m, Starts s c 0x0E m → (∀ e ∈ cmdsBefore (getCtx s c) m.slot, cmdOp e ≠ 0x0C) →
    let e := leAt m.raw 16 2
    let y := getCtx s e
    let s' := startCmd s c m.slot
    (y.st ≠ .free → y.eval = true → y.evalOf = c → portOf s e = portOf s c → e ≠ c → exec (.evalOpen c) s = .next (completeCmd
      (updCtx (updCtx s' c fun x => { x with window := some e }) e fun y => { y with windowOpen := true }) c m.slot)) ∧
    (y.st = .free ∨ y.eval = false ∨ y.evalOf ≠ c ∨ portOf s e ≠ portOf s c → e ≠ c →
      exec (.evalOpen c) s = .next (commandBad s' c m.slot))) ∧
  (∀ s c m, Starts s c 0x0E m → (∃ e ∈ cmdsBefore (getCtx s c) m.slot, cmdOp e = 0x0C) → exec (.evalOpen c) s = .next s) ∧
  (∀ s c m, Starts s c 0x0F m →
    let s' := startCmd s c m.slot
    let o := (getCtx s c).evalOf
    ((getCtx s c).eval = true → exec (.evalClose c) s = .next (completeCmd
      (updCtx (updCtx s' c fun x => { x with windowOpen := false }) o fun y => { y with window := none }) c m.slot)) ∧
    ((getCtx s c).eval = false → exec (.evalClose c) s = .next (commandBad s' c m.slot))) ∧
  (∀ s c m data, Starts s c 0x10 m →
    let s' := startCmd s c m.slot
    let src := leAt m.raw 16 8
    let dst := leAt m.raw 24 8
    let n := leAt m.raw 32 8
    let fromHost := bitB (leAt m.raw 8 1) 0
    let toHost := bitB (leAt m.raw 8 1) 1
    let puts (q : State) (d : List Byte) (r : State) : Prop :=
      if toHost then inWindow q c dst d.length = true ∧ r = { q with out := q.out ++ [.hostWrite ((portOf q c).getD 0) dst d] }
      else ctxWrite q c dst d = some r
    0 < n →
      (fromHost = true → inWindow s' c src n = true →
        (∀ r, puts s' (slice data 0 n) r → exec (.copyCmd c data true) s = .next (completeCmd r c m.slot)) ∧
        exec (.copyCmd c data false) s = .next (hostFault s' c)) ∧
      (fromHost = true → inWindow s' c src n = false → ∀ ok, exec (.copyCmd c data ok) s = .next (hostFault s' c)) ∧
      (fromHost = false → ∀ d q r ok, ctxRead s' c src n = some (d, q) → puts q d r →
        exec (.copyCmd c data ok) s = .next (completeCmd r c m.slot)) ∧
      (fromHost = false → ∀ ok, ctxRead s' c src n = none → exec (.copyCmd c data ok) s = .next (commandBad s' c m.slot))) ∧
  (∀ s c data ok fs q, (Claim.ReadFails fs s q → exec (.copyCmd c data ok fs) s = .next q) ∧
    (Claim.Reads fs s q → exec (.copyCmd c data ok fs) s = exec (.copyCmd c data ok) q)) ∧
  (∀ s c m, Starts s c 0x12 m →
    let s' := startCmd s c m.slot
    let a := leAt m.raw 16 8
    let d := slice m.raw 24 8
    (bitB (leAt m.raw 8 1) 0 = true → inWindow s' c a 8 = true → exec (.signalCommand c) s = .next (completeCmd
      { s' with out := s'.out ++ [.hostWrite ((portOf s' c).getD 0) a d] } c m.slot)) ∧
    (bitB (leAt m.raw 8 1) 0 = false → ∀ r, ctxWrite s' c a d = some r →
      exec (.signalCommand c) s = .next (completeCmd r c m.slot))) ∧
  (∀ s c m, Starts s c 0x13 m →
    let s' := startCmd s c m.slot
    ((getCtx s c).fabric = true → fabricReady s = true → exec (.jobStart c) s =
      .next (completeCmd (updCtx s' c fun x => { x with jobStarted := true }) c m.slot)) ∧
    ((getCtx s c).fabric = true → fabricReady s = false → exec (.jobStart c) s = .next (halt s' c 4 m.slot 0)) ∧
    ((getCtx s c).fabric = false → exec (.jobStart c) s = .next (commandBad s' c m.slot)))

/-- R361, R362, R370, R378, R393, R394, R432, R561: the commands of the weirs, the sluices and the collective engine: a region is declared in
its entry and released; a block is installed, with its table entry and its STATUS cleared, and released; a schedule is held;
a COMMIT waits with the schedule that is held; a COLLECTIVE joins its context's. -/
def Claim.TrainingCommands : Prop :=
  (∀ s c m, Starts s c 0x07 m →
    let s' := startCmd s c m.slot
    let r := slice m.raw 128 64
    let declared : State := { s' with mem := { s'.mem with
      regions := SMap.put none s'.mem.regions (rgEntry r) (some { ctx := c, raw := r }) } }
    (declRefused s' c r = false → s.links.colls = [] → exec (.regionDeclare c) s = .next (completeCmd declared c m.slot)) ∧
    (declRefused s' c r = true → s.links.colls = [] → exec (.regionDeclare c) s =
      .next (completeCmd (weirReject (if declRanges s' c r then s' else cisRefused s') c cDeclare 0 (rgEntry r) (0x5000 + (portOf s' c).getD 0)) c m.slot))) ∧
  (∀ s c m, Starts s c 0x08 m →
    let s' := startCmd s c m.slot
    let n := leAt m.raw 16 2
    (∀ g, getRegion s n = some g → g.ctx = c → ∃ r, exec (.regionRelease c) s = .next (completeCmd r c m.slot) ∧
      getRegion r n = none ∧ (∀ k, k ≠ n → getRegion r k = getRegion s k) ∧ r.mem.cells = s.mem.cells) ∧
    ((∀ g, getRegion s n = some g → g.ctx ≠ c) → exec (.regionRelease c) s = .next (completeCmd s' c m.slot))) ∧
  (∀ s c m, Starts s c 0x09 m → sluiceTurn s c m = true → blockHeld s c = false →
    let s' := startCmd s c m.slot
    let n := leAt m.raw 16 2
    let d := slice m.raw 128 128
    let named := getBlock s c n = none ∧ blockWordsOk d = true ∧ arraysOk s' c n d = true
    let fits := buddyFits s' (getCtx s') (bkBuddyBytes d)
    let masters := allBelow (bkElems d) (fun e => tCanonical (readMaster s' c d e))
    (named → fits = true → masters = true → n < 16384 → ∃ r, exec (.blockInit c) s = .next (completeCmd r c m.slot) ∧
      getBlock r c n = some { raw := d } ∧ (∀ k, k < 16384 → k ≠ n → getBlock r c k = getBlock s c k) ∧
      r.sluice.roots = s.sluice.roots ∧ r.jets = s.jets) ∧
    (¬ named → exec (.blockInit c) s =
      .next (completeCmd (slcErr (if arraysPlain s' c n d then s' else cisRefused s') 2) c m.slot)) ∧
    (named → fits = false → exec (.blockInit c) s = .next (completeCmd (slcErr s' 11) c m.slot)) ∧
    (named → fits = true → masters = false → exec (.blockInit c) s = .next (completeCmd (slcErr s' 3) c m.slot))) ∧
  (∀ s c m, Starts s c 0x0A m → sluiceTurn s c m = true → blockHeld s c = false →
    let n := leAt m.raw 16 2
    ∃ r, exec (.blockRelease c) s = .next (completeCmd r c m.slot) ∧ getBlock r c n = none ∧ getRoot r c n false = none ∧
      getRoot r c n true = none ∧ r.mem = s.mem) ∧
  (∀ s c op m, op = 0x09 ∨ op = 0x0A → Starts s c op m → sluiceTurn s c m = false →
    exec (.blockInit c) s = .next s ∧ exec (.blockRelease c) s = .next s) ∧
  (∀ s c, blockHeld s c = true → exec (.blockInit c) s = .next s ∧ exec (.blockRelease c) s = .next s) ∧
  (∀ s c m, Starts s c 0x0B m →
    let s' := startCmd s c m.slot
    let r := slice m.raw 128 576
    (schedOk r = true → ∃ q, exec (.schedule c) s = .next (completeCmd q c m.slot) ∧ scheduleOf q c = r ∧
      ∀ d, d ≠ c → scheduleOf q d = scheduleOf s d) ∧
    (schedOk r = false → exec (.schedule c) s = .next (completeCmd (slcErr s' 6) c m.slot))) ∧
  (∀ s c m, Starts s c 0x0C m →
    let s' := startCmd s c m.slot
    (commitBad s' c m.raw = true → ∃ t, exec (.commit c) s = .next (commitTry t c) ∧ t = commandBad s' c m.slot) ∧
    (commitBad s' c m.raw = false → exec (.commit c) s = .next (commitTry { s' with sluice := { s'.sluice with
      commits := s'.sluice.commits ++ [{ ctx := c, slot := m.slot, raw := m.raw, blocks := [], sched := scheduleOf s c }] } } c))) ∧
  (∀ s c fs q, (Claim.ReadFails fs s q → exec (.commit c fs) s = .next q ∧ exec (.collective c fs) s = .next q) ∧
    (Claim.Reads fs s q → exec (.commit c fs) s = exec (.commit c) q ∧ exec (.collective c fs) s = exec (.collective c) q)) ∧
  (∀ s c m, Starts s c 0x0D m →
    let s' := startCmd s c m.slot
    let again := ∃ y ∈ s.links.colls, y.ctx = c ∧ y.done = false ∧ clId y.raw = clId m.raw
    ((getCtx s c).jobStarted = false ∨ again → exec (.collective c) s = .next (commandBad s' c m.slot)) ∧
    ((getCtx s c).jobStarted = true → ¬ again →
      (collOk m.raw = false ∨ groupOf s' c (clGroup m.raw) = none → exec (.collective c) s = .next (collFault s' c)) ∧
      (∀ rank ids st, collOk m.raw = true → groupOf s' c (clGroup m.raw) = some (rank, ids, st) →
        let y : Coll := { ctx := c, slot := m.slot, raw := m.raw, rank, members := ids, exps := levelsOf st ids.length }
        let z := takeEarly s' y
        exec (.collective c) s = .next (advanceAll
          { z.1 with links := { z.1.links with colls := z.1.links.colls ++ [z.2] } } c))))

/-- R208, R552, R557, R564: a command starts in ring order, once those that its header waits for have completed; one that has waited beyond
HIF_WAIT_LIMIT is reported once, and a MARK WAIT of a basin's queue likewise; a host read that does not complete halts the context. -/
def Claim.CommandOrder : Prop :=
  (∀ s c m, nextCmd s c = some m → m ∈ (getCtx s c).cmds ∧ m.started = false ∧ ctxRuns s c = true ∧
    (bitB (leAt m.raw 0 8) 15 = true ∨ cmdOp m = 0x05 ∨ cmdOp m = 0x12 → cmdsBefore (getCtx s c) m.slot = []) ∧
    (bitB (leAt m.raw 0 8) 14 = true → ∀ e ∈ cmdsBefore (getCtx s c) m.slot, cmdOp e ≠ 0x0C)) ∧
  (∀ s c, nextCmd s c = none → exec (.nopCmd c) s = .next s ∧ exec (.launchCmd c) s = .next s ∧ exec (.setCmd c) s = .next s ∧
    exec (.phaseCmd c) s = .next s ∧ exec (.profileWrite c) s = .next s ∧ exec (.routeWrite c) s = .next s ∧
    exec (.regionDeclare c) s = .next s ∧ exec (.regionRelease c) s = .next s ∧ exec (.blockInit c) s = .next s ∧
    exec (.blockRelease c) s = .next s ∧ exec (.schedule c) s = .next s ∧ exec (.collective c) s = .next s ∧
    exec (.evalOpen c) s = .next s ∧ exec (.evalClose c) s = .next s ∧ exec (.signalCommand c) s = .next s ∧
    exec (.jobStart c) s = .next s) ∧
  (∀ s c m, (getCtx s c).cmds.find? (fun m => cmdWaits s c m && !m.stalled &&
      decide (regOf s (oHif ((portOf s c).getD 0) + 8) % 1024 * 50000000 < s.ticks - m.since)) = some m →
    exec (.commandStall c) s = .next (ledgerRecord (postEvent (updCmd s c m.slot fun m => { m with stalled := true })
      c 0x08 m.slot [2, 0, 0, 0]) 0x01B ((s.ticks - m.since) / 50000000) (toLe 2 c ++ toLe 4 m.slot))) ∧
  (∀ s c b i, (∀ m ∈ (getCtx s c).cmds, cmdWaits s c m = true → m.stalled = true) →
    markStalled s c (bits (regOf s (oHif ((portOf s c).getD 0) + 8)) 9 0 * 50000000) = some (b, i) →
    exec (.commandStall c) s = .next (ledgerRecord (postEvent (updItem s b i.seq fun i => { i with stalled := true })
      c 0x08 i.slot ([2, 0] ++ toLe 2 b)) 0x01B ((s.ticks - i.since) / 50000000) (toLe 2 c ++ toLe 4 i.slot))) ∧
  (∀ s c, (∀ m ∈ (getCtx s c).cmds, cmdWaits s c m = true → m.stalled = true) →
    markStalled s c (bits (regOf s (oHif ((portOf s c).getD 0) + 8)) 9 0 * 50000000) = none → exec (.commandStall c) s = .next s) ∧
  (∀ s c, hostReadOut s c = true → exec (.hostAccessTimeout c) s = .next (hostFault s c)) ∧
  (∀ s c, hostReadOut s c = false → exec (.hostAccessTimeout c) s = .next s)

/-! Statements of several claims. -/

/-- What reset leaves: the registers at their tables' values, the units, and a canonical memory. -/
def Obligations.ResetState : Prop := Claim.ResetRegisterValues ∧ Claim.ResetUnits ∧ Claim.ResetMemoryCanonical

/-- The integer instructions and the register file that they write. -/
def Obligations.IntegerInstructions : Prop := Claim.ScalarRegisterFile ∧ Claim.IntegerResults ∧ Claim.IntegerDivision

/-- Immediates, predicates, and the comparisons of both kinds. -/
def Obligations.PredicatesAndComparisons : Prop := Claim.ImmediatesAndPredicates ∧ Claim.Binary32Comparisons

/-- The binary32 instructions. -/
def Obligations.Binary32Operations : Prop := Claim.Binary32Arithmetic ∧ Claim.Binary32Selections

/-- Branches, jumps, issue slots, guards, and instructions of several issues. -/
def Obligations.ControlFlow : Prop := Claim.BranchAndJump ∧ Claim.IssueSlotsByClass ∧ Claim.GuardedOffOnlyAdvances ∧ Claim.PartsBeforeTheLast

/-- What a fetch changes, and every way in which a thread faults as it fetches. -/
def Obligations.FetchesAndFaults : Prop := Claim.FetchAndWordFaults ∧ Claim.SecondParityErrorFaults ∧ Claim.FetchFrame ∧ Claim.ThreadFaultAbortsTheKernel

/-- Memory that reads back what was written, and the loads and stores. -/
def Obligations.MemoryInstructions : Prop := Claim.MemoryReadsBackWrites ∧ Claim.LoadsAndStores

/-- Fences, flushes, bulk copies and weir requests, and the accesses that wait. -/
def Obligations.FencesBulkAndWaiting : Prop := Claim.FencesAndFlush ∧ Claim.BulkAndWeirRequests ∧ Claim.WaitingAccessesComplete

/-- The elementwise vector instructions and their results. -/
def Obligations.VectorInstructions : Prop := Claim.VectorElementwise ∧ Claim.VectorElementResults

/-- Channels, connections, SEND, FEED, RECV, RECVS and FREE. -/
def Obligations.MessageInstructions : Prop := Claim.ChannelsAndConnections ∧ Claim.SendAndFeed ∧ Claim.ReceiveAndFree

/-- Barriers, threads, and the system instructions. -/
def Obligations.BarrierThreadAndSystem : Prop := Claim.Barriers ∧ Claim.ThreadsAndSystem

/-- The events of the runnel and of the terraces. -/
def Obligations.RunnelAndTerraceEvents : Prop := Claim.RunnelEvents ∧ Claim.TerraceEvents

/-- The W40 addition and the balanced tree of pairwise sums. -/
def Obligations.CanonicalAddition : Prop := Claim.AccumulatorAddition ∧ Claim.PairwiseIsTheBalancedTree

/-- Items, marks and the loads of tiles. -/
def Obligations.ItemsMarksAndTiles : Prop := Claim.ItemsAndMarks ∧ Claim.TileLoads

/-- Passes that start and complete, and the failure of an item. -/
def Obligations.PassesAndItemFailures : Prop := Claim.PassesStartAndComplete ∧ Claim.ItemFailureAbortsTheKernel

/-- Rows that enter and leave the array. -/
def Obligations.RowsOfTheArray : Prop := Claim.RowsEnterTheArray ∧ Claim.RowsLeaveTheArray

/-- Requests to the weirs, their elements, and the completion of lines. -/
def Obligations.Weirs : Prop := Claim.WeirRequests ∧ Claim.WeirElements ∧ Claim.WeirLinesComplete

/-- The HBM stacks: scrubbing, retirement, temperature and training. -/
def Obligations.HbmStacks : Prop := Claim.PatrolScrubs ∧ Claim.PseudoChannelRetirement ∧ Claim.StackReadings

/-- Operands, snapshots, buddy copies and root windows. -/
def Obligations.OperandsSnapshotsAndRoots : Prop := Claim.OperandsSnapshotsAndCopies ∧ Claim.RootWindows

/-- The training and the discovery of a link. -/
def Obligations.LinkTrainingAndDiscovery : Prop := Claim.LinkTraining ∧ Claim.LinkDiscovery

/-- Routing, and the packets of channels. -/
def Obligations.PacketsOfChannels : Prop := Claim.PacketRouting ∧ Claim.ChannelPackets

/-- The barriers of the fabric and their timeouts. -/
def Obligations.FabricBarrierRules : Prop := Claim.FabricBarriers ∧ Claim.FabricBarrierTimeouts

/-- The recovery, from its notices to NORMAL. -/
def Obligations.Recovery : Prop := Claim.RecoveryNotices ∧ Claim.RecoveryUpToAgree ∧ Claim.RecoveryFromAgree

/-- Power measurement, operating points, caps, droops and temperatures. -/
def Obligations.BellowsMeasurements : Prop := Claim.MeasurementAndOperatingPoint ∧ Claim.CapsDroopsAndTemperatures

/-- The boot's choice of a slot and the checks of an image. -/
def Obligations.BootAndImages : Prop := Claim.BootTriesTheSlots ∧ Claim.ImageChecks

/-- The ledger's die and its readout. -/
def Obligations.LedgerRules : Prop := Claim.LedgerDie ∧ Claim.LedgerReadout

/-- Reads and writes of registers. -/
def Obligations.RegisterAccess : Prop := Claim.RegisterWritesByAccessCode ∧ Claim.CountersAndCommandRegisters

/-- The operations of the admin interface. -/
def Obligations.AdminOperations : Prop := Claim.AdminOperationsThatFail ∧ Claim.ContextsAndTheirResources ∧ Claim.ContextStates

/-- Host links, PERST#, and which context runs. -/
def Obligations.HostLinksAndScheduling : Prop := Claim.HostLinks ∧ Claim.Scheduling

/-- How commands start and complete, and those of the basins, jets and spouts. -/
def Obligations.RingOrderAndComputeCommands : Prop := Claim.CommandCompletion ∧ Claim.CommandOrder ∧ Claim.ComputeCommands

/-- The commands of contexts, weirs, sluices and collectives. -/
def Obligations.RingContextAndTrainingCommands : Prop := Claim.ContextCommands ∧ Claim.TrainingCommands

end
end

