-- ==== Sys2Proof/Laws/SMap.lean ====
section
/-!
SUPPORT. Laws of the sparse map: a read after a write, and that every operation keeps the canonical form.
-/

namespace Sys2Proof.SMap

variable {α : Type} [DecidableEq α] {d : α}

omit [DecidableEq α] in
@[simp] theorem get_nil (i : Nat) : SMap.get d ([] : SMap α) i = d := rfl

/-- A value not listed above `k` is the default below `k`: keys of a canonical tail are above its bound. -/
theorem get_of_wfFrom_le : ∀ {m : SMap α} {k i : Nat}, SMap.wfFrom d (some k) m = true → i ≤ k → SMap.get d m i = d
  | [], _, _, _, _ => rfl
  | (k', v) :: m, k, i, h, hi => by
    simp only [SMap.wfFrom, Bool.and_eq_true, decide_eq_true_eq] at h
    have : k' ≠ i := by omega
    simp only [SMap.get, this, if_false]
    exact get_of_wfFrom_le h.2 (by omega)

theorem wfFrom_mono : ∀ {m : SMap α} {l k : Nat}, SMap.wfFrom d (some k) m = true → l ≤ k →
    SMap.wfFrom d (some l) m = true
  | [], _, _, _, _ => rfl
  | (k', v) :: m, l, k, h, hl => by
    simp only [SMap.wfFrom, Bool.and_eq_true, decide_eq_true_eq] at h ⊢
    exact ⟨⟨by omega, h.1.2⟩, h.2⟩

theorem wfFrom_none {m : SMap α} {k : Nat} (h : SMap.wfFrom d (some k) m = true) : SMap.wfFrom d none m = true := by
  cases m with
  | nil => rfl
  | cons e m =>
    simp only [SMap.wfFrom, Bool.and_eq_true, decide_eq_true_eq] at h ⊢
    exact ⟨⟨trivial, h.1.2⟩, h.2⟩

theorem wfFrom_filter (p : Nat × α → Bool) : ∀ {m : SMap α} {lo : Option Nat}, SMap.wfFrom d lo m = true →
    SMap.wfFrom d lo (m.filter p) = true
  | [], _, _ => rfl
  | (k, v) :: m, lo, h => by
    simp only [SMap.wfFrom, Bool.and_eq_true, decide_eq_true_eq] at h
    simp only [List.filter_cons]
    have hm := wfFrom_filter p h.2
    split
    · simp only [SMap.wfFrom, Bool.and_eq_true, decide_eq_true_eq]; exact ⟨h.1, hm⟩
    · cases lo with
      | none => exact wfFrom_none hm
      | some l => exact wfFrom_mono hm (by have := h.1.1; simp at this; omega)

/-- Listing a key keeps the canonical form above a bound. -/
theorem wfFrom_insert : ∀ {m : SMap α} {lo : Option Nat} {i : Nat} {v : α}, SMap.wfFrom d lo m = true →
    (∀ l, lo = some l → l < i) → v ≠ d → SMap.wfFrom d lo (SMap.insert m i v) = true
  | [], lo, i, v, _, hlo, hv => by
    cases lo <;> simp_all [SMap.insert, SMap.wfFrom]
  | (k, w) :: m, lo, i, v, h, hlo, hv => by
    simp only [SMap.wfFrom, Bool.and_eq_true, decide_eq_true_eq] at h
    obtain ⟨⟨h1, h2⟩, h3⟩ := h
    simp only [SMap.insert]
    split
    · simp only [SMap.wfFrom, Bool.and_eq_true, decide_eq_true_eq]
      refine ⟨⟨?_, hv⟩, ⟨by omega, h2⟩, h3⟩
      cases lo with
      | none => rfl
      | some l => simpa using hlo l rfl
    · split
      · subst i
        simp only [SMap.wfFrom, Bool.and_eq_true, decide_eq_true_eq]
        exact ⟨⟨h1, hv⟩, h3⟩
      · simp only [SMap.wfFrom, Bool.and_eq_true, decide_eq_true_eq]
        exact ⟨⟨h1, h2⟩, wfFrom_insert h3 (by intro l hl; cases hl; omega) hv⟩

/-- A write keeps the canonical form. -/
theorem wf_put {m : SMap α} (h : SMap.wf d m = true) (i : Nat) (v : α) : SMap.wf d (SMap.put d m i v) = true := by
  unfold SMap.put
  split
  · exact wfFrom_filter _ h
  · exact wfFrom_insert h (by simp) (by assumption)

theorem wf_upd {m : SMap α} (h : SMap.wf d m = true) (i : Nat) (f : α → α) : SMap.wf d (SMap.upd d m i f) = true :=
  wf_put h i _

/-- Unlisting keys keeps the canonical form. -/
theorem wf_clear {m : SMap α} (h : SMap.wf d m = true) (p : Nat → Bool) : SMap.wf d (SMap.clear p m) = true :=
  wfFrom_filter _ h

omit [DecidableEq α] in
/-- A read after unlisting keys. -/
theorem get_clear (p : Nat → Bool) : ∀ (m : SMap α) (i : Nat),
    SMap.get d (SMap.clear p m) i = if p i then d else SMap.get d m i
  | [], i => by simp [SMap.clear]
  | (k, v) :: m, i => by
    have ih := get_clear p m i
    simp only [SMap.clear] at ih ⊢
    simp only [List.filter_cons]
    by_cases hp : p k = true
    · simp only [hp, Bool.not_true, Bool.false_eq_true, if_false, ih, SMap.get]
      split
      · rfl
      · split
        · subst k; simp_all
        · rfl
    · simp only [hp, Bool.not_false, if_true, SMap.get, ih]
      split
      · subst k; simp_all
      · rfl

omit [DecidableEq α] in
theorem get_insert_self : ∀ (m : SMap α) (i : Nat) (v : α), SMap.get d (SMap.insert m i v) i = v
  | [], i, v => by simp [SMap.insert, SMap.get]
  | (k, w) :: m, i, v => by
    simp only [SMap.insert]
    split
    · simp [SMap.get]
    · split
      · simp [SMap.get]
      · have hk : k ≠ i := by omega
        simp only [SMap.get, hk, if_false]
        exact get_insert_self m i v

omit [DecidableEq α] in
theorem get_insert_ne : ∀ (m : SMap α) {i j : Nat} (v : α), j ≠ i →
    SMap.get d (SMap.insert m i v) j = SMap.get d m j
  | [], i, j, v, h => by simp [SMap.insert, SMap.get, Ne.symm h]
  | (k, w) :: m, i, j, v, h => by
    simp only [SMap.insert]
    split
    · simp [SMap.get, Ne.symm h]
    · split
      · subst i; simp [SMap.get, Ne.symm h]
      · simp only [SMap.get]
        split
        · rfl
        · exact get_insert_ne m v h

/-- A read of the key just written gives the value written. -/
@[simp] theorem get_put_self (m : SMap α) (i : Nat) (v : α) : SMap.get d (SMap.put d m i v) i = v := by
  unfold SMap.put
  split
  · rename_i hv
    have := get_clear (d := d) (fun k => k == i) m i
    simp only [SMap.clear, beq_self_eq_true, if_true] at this
    rw [hv]; exact this
  · exact get_insert_self m i v

/-- A write leaves every other key alone. -/
theorem get_put_ne (m : SMap α) {i j : Nat} (v : α) (h : j ≠ i) :
    SMap.get d (SMap.put d m i v) j = SMap.get d m j := by
  unfold SMap.put
  split
  · have := get_clear (d := d) (fun k => k == i) m j
    rw [beq_eq_false_iff_ne.mpr h] at this
    exact this
  · exact get_insert_ne m v h

theorem get_put (m : SMap α) (i j : Nat) (v : α) :
    SMap.get d (SMap.put d m i v) j = if j = i then v else SMap.get d m j := by
  by_cases h : j = i
  · subst h; simp
  · simp [h, get_put_ne]

@[simp] theorem get_upd_self (m : SMap α) (i : Nat) (f : α → α) :
    SMap.get d (SMap.upd d m i f) i = f (SMap.get d m i) := get_put_self m i _

theorem get_upd_ne (m : SMap α) {i j : Nat} (f : α → α) (h : j ≠ i) :
    SMap.get d (SMap.upd d m i f) j = SMap.get d m j := get_put_ne m _ h

end Sys2Proof.SMap
end

