-- ==== Sys2Proof/Laws/State.lean ====
section
/-!
SUPPORT. Laws of the state's readers and updaters: what each update leaves in each part of the state.
-/

namespace Sys2Proof.Machine

/-! A choice between two states, and a fold over states, seen through the memory's cells. -/

@[simp] theorem ite_mem (p : Prop) [Decidable p] (a b : State) :
    (if p then a else b).mem = if p then a.mem else b.mem := apply_ite State.mem p a b

@[simp] theorem ite_cells (p : Prop) [Decidable p] (a b : Mem) :
    (if p then a else b).cells = if p then a.cells else b.cells := apply_ite Mem.cells p a b

@[simp] theorem foldl_cells {α : Type} (f : State → α → State) (h : ∀ s x, (f s x).mem.cells = s.mem.cells) :
    ∀ (l : List α) (s : State), (l.foldl f s).mem.cells = s.mem.cells
  | [], _ => rfl
  | x :: l, s => (foldl_cells f h l (f s x)).trans (h s x)

@[simp] theorem foldl_fst_cells {α β : Type} (f : State × β → α → State × β)
    (h : ∀ p x, (f p x).1.mem.cells = p.1.mem.cells) :
    ∀ (l : List α) (p : State × β), (l.foldl f p).1.mem.cells = p.1.mem.cells
  | [], _ => rfl
  | x :: l, p => (foldl_fst_cells f h l (f p x)).trans (h p x)

/-! What keeps the memory's canonical form. -/

/-- The memory of a state is in canonical form. -/
def Canon (s : State) : Prop := s.mem.wf = true

theorem canon_of {s t : State} (h : t.mem.cells = s.mem.cells) (hs : Canon s) : Canon t := by
  unfold Canon Mem.wf at *
  rw [h]
  exact hs

/-- An update of other parts of the state. -/
theorem canon_mem {s : State} {a b c e f g h i j k l m n o p q} (hs : Canon s) :
    Canon ⟨a, b, c, s.mem, e, f, g, h, i, j, k, l, m, n, o, p, q⟩ := hs

/-- An update of other parts of the memory. -/
theorem canon_cells {s : State} {a b c e f g h i j k l m n o p q r t u v w x y z y'} (hs : Canon s) :
    Canon ⟨a, b, c, ⟨s.mem.cells, r, t, u, v, w, x, y, z, y'⟩, e, f, g, h, i, j, k, l, m, n, o, p, q⟩ := hs

theorem canon_ite {p : Prop} [Decidable p] {a b : State} (ha : Canon a) (hb : Canon b) : Canon (if p then a else b) := by
  split
  · exact ha
  · exact hb

theorem canon_ite_fst {α : Type} {p : Prop} [Decidable p] {x y : State × α} {s : State} {a : α}
    (e : (if p then x else y) = (s, a)) (hx : Canon x.1) (hy : Canon y.1) : Canon s := by
  split at e
  · rw [e] at hx; exact hx
  · rw [e] at hy; exact hy

theorem canon_ite_snd {α : Type} {p : Prop} [Decidable p] {x y : α × State} {s : State} {a : α}
    (e : (if p then x else y) = (a, s)) (hx : Canon x.2) (hy : Canon y.2) : Canon s := by
  split at e
  · rw [e] at hx; exact hx
  · rw [e] at hy; exact hy

theorem canon_getD {x : Option State} {s : State} (h : ∀ r, x = some r → Canon r) (hs : Canon s) : Canon (x.getD s) := by
  cases x with
  | none => exact hs
  | some r => exact h r rfl

theorem canon_foldl {α : Type} {f : State → α → State} (h : ∀ s x, Canon s → Canon (f s x)) :
    ∀ {l : List α} {s : State}, Canon s → Canon (l.foldl f s)
  | [], _, hs => hs
  | x :: l, _, hs => canon_foldl (l := l) h (h _ x hs)

theorem canon_foldl_fst {α β : Type} {f : State × β → α → State × β} (h : ∀ p x, Canon p.1 → Canon (f p x).1) :
    ∀ {l : List α} {p : State × β}, Canon p.1 → Canon (l.foldl f p).1
  | [], _, hs => hs
  | x :: l, _, hs => canon_foldl_fst (l := l) h (h _ x hs)

theorem canon_foldl_snd {α β : Type} {f : β × State → α → β × State} (h : ∀ p x, Canon p.2 → Canon (f p x).2) :
    ∀ {l : List α} {p : β × State}, Canon p.2 → Canon (l.foldl f p).2
  | [], _, hs => hs
  | x :: l, _, hs => canon_foldl_snd (l := l) h (h _ x hs)

theorem putBytes_wf : ∀ (bs : List Byte) (m : SMap Byte) (a : Nat), SMap.wf 0 m = true → SMap.wf 0 (putBytes m a bs) = true
  | [], _, _, h => h
  | _ :: bs, _, _, h => putBytes_wf bs _ _ (SMap.wf_put h _ _)

theorem writePhys_canon (s : State) (a : Nat) (bs : List Byte) (hw : Canon s) : Canon (writePhys s a bs) :=
  putBytes_wf bs _ a hw

theorem zeroPhys_canon (s : State) (a n : Nat) (hw : Canon s) : Canon (zeroPhys s a n) :=
  SMap.wf_clear (d := 0) hw fun k => decide (a ≤ k) && decide (k < a + n)

/-! Each update, seen through each part of the state that it leaves. -/

@[simp] theorem updThread_basins (s : State) (j t : Nat) (f : Thread → Thread) : (updThread s j t f).basins = s.basins := rfl
@[simp] theorem updThread_spouts (s : State) (j t : Nat) (f : Thread → Thread) : (updThread s j t f).spouts = s.spouts := rfl
@[simp] theorem updThread_mem (s : State) (j t : Nat) (f : Thread → Thread) : (updThread s j t f).mem = s.mem := rfl
@[simp] theorem updThread_host (s : State) (j t : Nat) (f : Thread → Thread) : (updThread s j t f).host = s.host := rfl
@[simp] theorem updThread_sluice (s : State) (j t : Nat) (f : Thread → Thread) : (updThread s j t f).sluice = s.sluice := rfl
@[simp] theorem updThread_links (s : State) (j t : Nat) (f : Thread → Thread) : (updThread s j t f).links = s.links := rfl
@[simp] theorem updThread_recov (s : State) (j t : Nat) (f : Thread → Thread) : (updThread s j t f).recov = s.recov := rfl
@[simp] theorem updThread_power (s : State) (j t : Nat) (f : Thread → Thread) : (updThread s j t f).power = s.power := rfl
@[simp] theorem updThread_boot (s : State) (j t : Nat) (f : Thread → Thread) : (updThread s j t f).boot = s.boot := rfl
@[simp] theorem updThread_ledger (s : State) (j t : Nat) (f : Thread → Thread) : (updThread s j t f).ledger = s.ledger := rfl
@[simp] theorem updThread_csr (s : State) (j t : Nat) (f : Thread → Thread) : (updThread s j t f).csr = s.csr := rfl
@[simp] theorem updThread_ctr (s : State) (j t : Nat) (f : Thread → Thread) : (updThread s j t f).ctr = s.ctr := rfl
@[simp] theorem updThread_ticks (s : State) (j t : Nat) (f : Thread → Thread) : (updThread s j t f).ticks = s.ticks := rfl
@[simp] theorem updThread_free (s : State) (j t : Nat) (f : Thread → Thread) : (updThread s j t f).free = s.free := rfl
@[simp] theorem updThread_out (s : State) (j t : Nat) (f : Thread → Thread) : (updThread s j t f).out = s.out := rfl
@[simp] theorem updThread_pending (s : State) (j t : Nat) (f : Thread → Thread) : (updThread s j t f).pending = s.pending := rfl
@[simp] theorem updThread_getThread (s : State) (j t : Nat) (f : Thread → Thread) : getThread (updThread s j t f) j t = f (getThread s j t) :=
  SMap.get_upd_self _ _ _
theorem updThread_getThread_ne (s : State) (j t : Nat) (f : Thread → Thread) (j' t' : Nat) (h : j' * 256 + t' ≠ j * 256 + t) : getThread (updThread s j t f) j' t' = getThread s j' t' :=
  SMap.get_upd_ne _ _ h

@[simp] theorem updChan_basins (s : State) (j k : Nat) (f : Channel → Channel) : (updChan s j k f).basins = s.basins := rfl
@[simp] theorem updChan_spouts (s : State) (j k : Nat) (f : Channel → Channel) : (updChan s j k f).spouts = s.spouts := rfl
@[simp] theorem updChan_mem (s : State) (j k : Nat) (f : Channel → Channel) : (updChan s j k f).mem = s.mem := rfl
@[simp] theorem updChan_host (s : State) (j k : Nat) (f : Channel → Channel) : (updChan s j k f).host = s.host := rfl
@[simp] theorem updChan_sluice (s : State) (j k : Nat) (f : Channel → Channel) : (updChan s j k f).sluice = s.sluice := rfl
@[simp] theorem updChan_links (s : State) (j k : Nat) (f : Channel → Channel) : (updChan s j k f).links = s.links := rfl
@[simp] theorem updChan_recov (s : State) (j k : Nat) (f : Channel → Channel) : (updChan s j k f).recov = s.recov := rfl
@[simp] theorem updChan_power (s : State) (j k : Nat) (f : Channel → Channel) : (updChan s j k f).power = s.power := rfl
@[simp] theorem updChan_boot (s : State) (j k : Nat) (f : Channel → Channel) : (updChan s j k f).boot = s.boot := rfl
@[simp] theorem updChan_ledger (s : State) (j k : Nat) (f : Channel → Channel) : (updChan s j k f).ledger = s.ledger := rfl
@[simp] theorem updChan_csr (s : State) (j k : Nat) (f : Channel → Channel) : (updChan s j k f).csr = s.csr := rfl
@[simp] theorem updChan_ctr (s : State) (j k : Nat) (f : Channel → Channel) : (updChan s j k f).ctr = s.ctr := rfl
@[simp] theorem updChan_ticks (s : State) (j k : Nat) (f : Channel → Channel) : (updChan s j k f).ticks = s.ticks := rfl
@[simp] theorem updChan_free (s : State) (j k : Nat) (f : Channel → Channel) : (updChan s j k f).free = s.free := rfl
@[simp] theorem updChan_out (s : State) (j k : Nat) (f : Channel → Channel) : (updChan s j k f).out = s.out := rfl
@[simp] theorem updChan_pending (s : State) (j k : Nat) (f : Channel → Channel) : (updChan s j k f).pending = s.pending := rfl
@[simp] theorem updChan_getChan (s : State) (j k : Nat) (f : Channel → Channel) : getChan (updChan s j k f) j k = f (getChan s j k) :=
  SMap.get_upd_self _ _ _
theorem updChan_getChan_ne (s : State) (j k : Nat) (f : Channel → Channel) (j' k' : Nat) (h : j' * 256 + k' ≠ j * 256 + k) : getChan (updChan s j k f) j' k' = getChan s j' k' :=
  SMap.get_upd_ne _ _ h

@[simp] theorem updConn_basins (s : State) (ep i : Nat) (f : Conn → Conn) : (updConn s ep i f).basins = s.basins := rfl
@[simp] theorem updConn_spouts (s : State) (ep i : Nat) (f : Conn → Conn) : (updConn s ep i f).spouts = s.spouts := rfl
@[simp] theorem updConn_mem (s : State) (ep i : Nat) (f : Conn → Conn) : (updConn s ep i f).mem = s.mem := rfl
@[simp] theorem updConn_host (s : State) (ep i : Nat) (f : Conn → Conn) : (updConn s ep i f).host = s.host := rfl
@[simp] theorem updConn_sluice (s : State) (ep i : Nat) (f : Conn → Conn) : (updConn s ep i f).sluice = s.sluice := rfl
@[simp] theorem updConn_links (s : State) (ep i : Nat) (f : Conn → Conn) : (updConn s ep i f).links = s.links := rfl
@[simp] theorem updConn_recov (s : State) (ep i : Nat) (f : Conn → Conn) : (updConn s ep i f).recov = s.recov := rfl
@[simp] theorem updConn_power (s : State) (ep i : Nat) (f : Conn → Conn) : (updConn s ep i f).power = s.power := rfl
@[simp] theorem updConn_boot (s : State) (ep i : Nat) (f : Conn → Conn) : (updConn s ep i f).boot = s.boot := rfl
@[simp] theorem updConn_ledger (s : State) (ep i : Nat) (f : Conn → Conn) : (updConn s ep i f).ledger = s.ledger := rfl
@[simp] theorem updConn_csr (s : State) (ep i : Nat) (f : Conn → Conn) : (updConn s ep i f).csr = s.csr := rfl
@[simp] theorem updConn_ctr (s : State) (ep i : Nat) (f : Conn → Conn) : (updConn s ep i f).ctr = s.ctr := rfl
@[simp] theorem updConn_ticks (s : State) (ep i : Nat) (f : Conn → Conn) : (updConn s ep i f).ticks = s.ticks := rfl
@[simp] theorem updConn_free (s : State) (ep i : Nat) (f : Conn → Conn) : (updConn s ep i f).free = s.free := rfl
@[simp] theorem updConn_out (s : State) (ep i : Nat) (f : Conn → Conn) : (updConn s ep i f).out = s.out := rfl
@[simp] theorem updConn_pending (s : State) (ep i : Nat) (f : Conn → Conn) : (updConn s ep i f).pending = s.pending := rfl
@[simp] theorem updConn_getConn (s : State) (ep i : Nat) (f : Conn → Conn) : getConn (updConn s ep i f) ep i = f (getConn s ep i) :=
  SMap.get_upd_self _ _ _
theorem updConn_getConn_ne (s : State) (ep i : Nat) (f : Conn → Conn) (ep' i' : Nat) (h : ep' * 65536 + i' ≠ ep * 65536 + i) : getConn (updConn s ep i f) ep' i' = getConn s ep' i' :=
  SMap.get_upd_ne _ _ h

@[simp] theorem updBar_basins (s : State) (k : Nat) (f : Barrier → Barrier) : (updBar s k f).basins = s.basins := rfl
@[simp] theorem updBar_spouts (s : State) (k : Nat) (f : Barrier → Barrier) : (updBar s k f).spouts = s.spouts := rfl
@[simp] theorem updBar_mem (s : State) (k : Nat) (f : Barrier → Barrier) : (updBar s k f).mem = s.mem := rfl
@[simp] theorem updBar_host (s : State) (k : Nat) (f : Barrier → Barrier) : (updBar s k f).host = s.host := rfl
@[simp] theorem updBar_sluice (s : State) (k : Nat) (f : Barrier → Barrier) : (updBar s k f).sluice = s.sluice := rfl
@[simp] theorem updBar_links (s : State) (k : Nat) (f : Barrier → Barrier) : (updBar s k f).links = s.links := rfl
@[simp] theorem updBar_recov (s : State) (k : Nat) (f : Barrier → Barrier) : (updBar s k f).recov = s.recov := rfl
@[simp] theorem updBar_power (s : State) (k : Nat) (f : Barrier → Barrier) : (updBar s k f).power = s.power := rfl
@[simp] theorem updBar_boot (s : State) (k : Nat) (f : Barrier → Barrier) : (updBar s k f).boot = s.boot := rfl
@[simp] theorem updBar_ledger (s : State) (k : Nat) (f : Barrier → Barrier) : (updBar s k f).ledger = s.ledger := rfl
@[simp] theorem updBar_csr (s : State) (k : Nat) (f : Barrier → Barrier) : (updBar s k f).csr = s.csr := rfl
@[simp] theorem updBar_ctr (s : State) (k : Nat) (f : Barrier → Barrier) : (updBar s k f).ctr = s.ctr := rfl
@[simp] theorem updBar_ticks (s : State) (k : Nat) (f : Barrier → Barrier) : (updBar s k f).ticks = s.ticks := rfl
@[simp] theorem updBar_free (s : State) (k : Nat) (f : Barrier → Barrier) : (updBar s k f).free = s.free := rfl
@[simp] theorem updBar_out (s : State) (k : Nat) (f : Barrier → Barrier) : (updBar s k f).out = s.out := rfl
@[simp] theorem updBar_pending (s : State) (k : Nat) (f : Barrier → Barrier) : (updBar s k f).pending = s.pending := rfl
@[simp] theorem updBar_getBar (s : State) (k : Nat) (f : Barrier → Barrier) : getBar (updBar s k f) k = f (getBar s k) :=
  SMap.get_upd_self _ _ _
theorem updBar_getBar_ne (s : State) (k : Nat) (f : Barrier → Barrier) (k' : Nat) (h : k' ≠ k) : getBar (updBar s k f) k' = getBar s k' :=
  SMap.get_upd_ne _ _ h

@[simp] theorem updRowPort_basins (s : State) (k : Nat) (f : RowPort → RowPort) : (updRowPort s k f).basins = s.basins := rfl
@[simp] theorem updRowPort_spouts (s : State) (k : Nat) (f : RowPort → RowPort) : (updRowPort s k f).spouts = s.spouts := rfl
@[simp] theorem updRowPort_mem (s : State) (k : Nat) (f : RowPort → RowPort) : (updRowPort s k f).mem = s.mem := rfl
@[simp] theorem updRowPort_host (s : State) (k : Nat) (f : RowPort → RowPort) : (updRowPort s k f).host = s.host := rfl
@[simp] theorem updRowPort_sluice (s : State) (k : Nat) (f : RowPort → RowPort) : (updRowPort s k f).sluice = s.sluice := rfl
@[simp] theorem updRowPort_links (s : State) (k : Nat) (f : RowPort → RowPort) : (updRowPort s k f).links = s.links := rfl
@[simp] theorem updRowPort_recov (s : State) (k : Nat) (f : RowPort → RowPort) : (updRowPort s k f).recov = s.recov := rfl
@[simp] theorem updRowPort_power (s : State) (k : Nat) (f : RowPort → RowPort) : (updRowPort s k f).power = s.power := rfl
@[simp] theorem updRowPort_boot (s : State) (k : Nat) (f : RowPort → RowPort) : (updRowPort s k f).boot = s.boot := rfl
@[simp] theorem updRowPort_ledger (s : State) (k : Nat) (f : RowPort → RowPort) : (updRowPort s k f).ledger = s.ledger := rfl
@[simp] theorem updRowPort_csr (s : State) (k : Nat) (f : RowPort → RowPort) : (updRowPort s k f).csr = s.csr := rfl
@[simp] theorem updRowPort_ctr (s : State) (k : Nat) (f : RowPort → RowPort) : (updRowPort s k f).ctr = s.ctr := rfl
@[simp] theorem updRowPort_ticks (s : State) (k : Nat) (f : RowPort → RowPort) : (updRowPort s k f).ticks = s.ticks := rfl
@[simp] theorem updRowPort_free (s : State) (k : Nat) (f : RowPort → RowPort) : (updRowPort s k f).free = s.free := rfl
@[simp] theorem updRowPort_out (s : State) (k : Nat) (f : RowPort → RowPort) : (updRowPort s k f).out = s.out := rfl
@[simp] theorem updRowPort_pending (s : State) (k : Nat) (f : RowPort → RowPort) : (updRowPort s k f).pending = s.pending := rfl
@[simp] theorem updRowPort_getRowPort (s : State) (k : Nat) (f : RowPort → RowPort) : getRowPort (updRowPort s k f) k = f (getRowPort s k) :=
  SMap.get_upd_self _ _ _
theorem updRowPort_getRowPort_ne (s : State) (k : Nat) (f : RowPort → RowPort) (k' : Nat) (h : k' ≠ k) : getRowPort (updRowPort s k f) k' = getRowPort s k' :=
  SMap.get_upd_ne _ _ h

@[simp] theorem updTerrace_basins (s : State) (t : Nat) (f : Terrace → Terrace) : (updTerrace s t f).basins = s.basins := rfl
@[simp] theorem updTerrace_spouts (s : State) (t : Nat) (f : Terrace → Terrace) : (updTerrace s t f).spouts = s.spouts := rfl
@[simp] theorem updTerrace_mem (s : State) (t : Nat) (f : Terrace → Terrace) : (updTerrace s t f).mem = s.mem := rfl
@[simp] theorem updTerrace_host (s : State) (t : Nat) (f : Terrace → Terrace) : (updTerrace s t f).host = s.host := rfl
@[simp] theorem updTerrace_sluice (s : State) (t : Nat) (f : Terrace → Terrace) : (updTerrace s t f).sluice = s.sluice := rfl
@[simp] theorem updTerrace_links (s : State) (t : Nat) (f : Terrace → Terrace) : (updTerrace s t f).links = s.links := rfl
@[simp] theorem updTerrace_recov (s : State) (t : Nat) (f : Terrace → Terrace) : (updTerrace s t f).recov = s.recov := rfl
@[simp] theorem updTerrace_power (s : State) (t : Nat) (f : Terrace → Terrace) : (updTerrace s t f).power = s.power := rfl
@[simp] theorem updTerrace_boot (s : State) (t : Nat) (f : Terrace → Terrace) : (updTerrace s t f).boot = s.boot := rfl
@[simp] theorem updTerrace_ledger (s : State) (t : Nat) (f : Terrace → Terrace) : (updTerrace s t f).ledger = s.ledger := rfl
@[simp] theorem updTerrace_csr (s : State) (t : Nat) (f : Terrace → Terrace) : (updTerrace s t f).csr = s.csr := rfl
@[simp] theorem updTerrace_ctr (s : State) (t : Nat) (f : Terrace → Terrace) : (updTerrace s t f).ctr = s.ctr := rfl
@[simp] theorem updTerrace_ticks (s : State) (t : Nat) (f : Terrace → Terrace) : (updTerrace s t f).ticks = s.ticks := rfl
@[simp] theorem updTerrace_free (s : State) (t : Nat) (f : Terrace → Terrace) : (updTerrace s t f).free = s.free := rfl
@[simp] theorem updTerrace_out (s : State) (t : Nat) (f : Terrace → Terrace) : (updTerrace s t f).out = s.out := rfl
@[simp] theorem updTerrace_pending (s : State) (t : Nat) (f : Terrace → Terrace) : (updTerrace s t f).pending = s.pending := rfl
@[simp] theorem updTerrace_getTerrace (s : State) (t : Nat) (f : Terrace → Terrace) : getTerrace (updTerrace s t f) t = f (getTerrace s t) :=
  SMap.get_upd_self _ _ _
theorem updTerrace_getTerrace_ne (s : State) (t : Nat) (f : Terrace → Terrace) (t' : Nat) (h : t' ≠ t) : getTerrace (updTerrace s t f) t' = getTerrace s t' :=
  SMap.get_upd_ne _ _ h

@[simp] theorem updBasin_jets (s : State) (b : Nat) (f : Basin → Basin) : (updBasin s b f).jets = s.jets := rfl
@[simp] theorem updBasin_spouts (s : State) (b : Nat) (f : Basin → Basin) : (updBasin s b f).spouts = s.spouts := rfl
@[simp] theorem updBasin_mem (s : State) (b : Nat) (f : Basin → Basin) : (updBasin s b f).mem = s.mem := rfl
@[simp] theorem updBasin_host (s : State) (b : Nat) (f : Basin → Basin) : (updBasin s b f).host = s.host := rfl
@[simp] theorem updBasin_sluice (s : State) (b : Nat) (f : Basin → Basin) : (updBasin s b f).sluice = s.sluice := rfl
@[simp] theorem updBasin_links (s : State) (b : Nat) (f : Basin → Basin) : (updBasin s b f).links = s.links := rfl
@[simp] theorem updBasin_recov (s : State) (b : Nat) (f : Basin → Basin) : (updBasin s b f).recov = s.recov := rfl
@[simp] theorem updBasin_power (s : State) (b : Nat) (f : Basin → Basin) : (updBasin s b f).power = s.power := rfl
@[simp] theorem updBasin_boot (s : State) (b : Nat) (f : Basin → Basin) : (updBasin s b f).boot = s.boot := rfl
@[simp] theorem updBasin_ledger (s : State) (b : Nat) (f : Basin → Basin) : (updBasin s b f).ledger = s.ledger := rfl
@[simp] theorem updBasin_csr (s : State) (b : Nat) (f : Basin → Basin) : (updBasin s b f).csr = s.csr := rfl
@[simp] theorem updBasin_ctr (s : State) (b : Nat) (f : Basin → Basin) : (updBasin s b f).ctr = s.ctr := rfl
@[simp] theorem updBasin_ticks (s : State) (b : Nat) (f : Basin → Basin) : (updBasin s b f).ticks = s.ticks := rfl
@[simp] theorem updBasin_free (s : State) (b : Nat) (f : Basin → Basin) : (updBasin s b f).free = s.free := rfl
@[simp] theorem updBasin_out (s : State) (b : Nat) (f : Basin → Basin) : (updBasin s b f).out = s.out := rfl
@[simp] theorem updBasin_pending (s : State) (b : Nat) (f : Basin → Basin) : (updBasin s b f).pending = s.pending := rfl
@[simp] theorem updBasin_getBasin (s : State) (b : Nat) (f : Basin → Basin) : getBasin (updBasin s b f) b = f (getBasin s b) :=
  SMap.get_upd_self _ _ _
theorem updBasin_getBasin_ne (s : State) (b : Nat) (f : Basin → Basin) (b' : Nat) (h : b' ≠ b) : getBasin (updBasin s b f) b' = getBasin s b' :=
  SMap.get_upd_ne _ _ h

@[simp] theorem updSpout_jets (s : State) (b : Nat) (f : Spout → Spout) : (updSpout s b f).jets = s.jets := rfl
@[simp] theorem updSpout_basins (s : State) (b : Nat) (f : Spout → Spout) : (updSpout s b f).basins = s.basins := rfl
@[simp] theorem updSpout_mem (s : State) (b : Nat) (f : Spout → Spout) : (updSpout s b f).mem = s.mem := rfl
@[simp] theorem updSpout_host (s : State) (b : Nat) (f : Spout → Spout) : (updSpout s b f).host = s.host := rfl
@[simp] theorem updSpout_sluice (s : State) (b : Nat) (f : Spout → Spout) : (updSpout s b f).sluice = s.sluice := rfl
@[simp] theorem updSpout_links (s : State) (b : Nat) (f : Spout → Spout) : (updSpout s b f).links = s.links := rfl
@[simp] theorem updSpout_recov (s : State) (b : Nat) (f : Spout → Spout) : (updSpout s b f).recov = s.recov := rfl
@[simp] theorem updSpout_power (s : State) (b : Nat) (f : Spout → Spout) : (updSpout s b f).power = s.power := rfl
@[simp] theorem updSpout_boot (s : State) (b : Nat) (f : Spout → Spout) : (updSpout s b f).boot = s.boot := rfl
@[simp] theorem updSpout_ledger (s : State) (b : Nat) (f : Spout → Spout) : (updSpout s b f).ledger = s.ledger := rfl
@[simp] theorem updSpout_csr (s : State) (b : Nat) (f : Spout → Spout) : (updSpout s b f).csr = s.csr := rfl
@[simp] theorem updSpout_ctr (s : State) (b : Nat) (f : Spout → Spout) : (updSpout s b f).ctr = s.ctr := rfl
@[simp] theorem updSpout_ticks (s : State) (b : Nat) (f : Spout → Spout) : (updSpout s b f).ticks = s.ticks := rfl
@[simp] theorem updSpout_free (s : State) (b : Nat) (f : Spout → Spout) : (updSpout s b f).free = s.free := rfl
@[simp] theorem updSpout_out (s : State) (b : Nat) (f : Spout → Spout) : (updSpout s b f).out = s.out := rfl
@[simp] theorem updSpout_pending (s : State) (b : Nat) (f : Spout → Spout) : (updSpout s b f).pending = s.pending := rfl
@[simp] theorem updSpout_getSpout (s : State) (b : Nat) (f : Spout → Spout) : getSpout (updSpout s b f) b = f (getSpout s b) :=
  SMap.get_upd_self _ _ _
theorem updSpout_getSpout_ne (s : State) (b : Nat) (f : Spout → Spout) (b' : Nat) (h : b' ≠ b) : getSpout (updSpout s b f) b' = getSpout s b' :=
  SMap.get_upd_ne _ _ h

@[simp] theorem updCtx_jets (s : State) (c : Nat) (f : Ctx → Ctx) : (updCtx s c f).jets = s.jets := rfl
@[simp] theorem updCtx_basins (s : State) (c : Nat) (f : Ctx → Ctx) : (updCtx s c f).basins = s.basins := rfl
@[simp] theorem updCtx_spouts (s : State) (c : Nat) (f : Ctx → Ctx) : (updCtx s c f).spouts = s.spouts := rfl
@[simp] theorem updCtx_mem (s : State) (c : Nat) (f : Ctx → Ctx) : (updCtx s c f).mem = s.mem := rfl
@[simp] theorem updCtx_sluice (s : State) (c : Nat) (f : Ctx → Ctx) : (updCtx s c f).sluice = s.sluice := rfl
@[simp] theorem updCtx_links (s : State) (c : Nat) (f : Ctx → Ctx) : (updCtx s c f).links = s.links := rfl
@[simp] theorem updCtx_recov (s : State) (c : Nat) (f : Ctx → Ctx) : (updCtx s c f).recov = s.recov := rfl
@[simp] theorem updCtx_power (s : State) (c : Nat) (f : Ctx → Ctx) : (updCtx s c f).power = s.power := rfl
@[simp] theorem updCtx_boot (s : State) (c : Nat) (f : Ctx → Ctx) : (updCtx s c f).boot = s.boot := rfl
@[simp] theorem updCtx_ledger (s : State) (c : Nat) (f : Ctx → Ctx) : (updCtx s c f).ledger = s.ledger := rfl
@[simp] theorem updCtx_csr (s : State) (c : Nat) (f : Ctx → Ctx) : (updCtx s c f).csr = s.csr := rfl
@[simp] theorem updCtx_ctr (s : State) (c : Nat) (f : Ctx → Ctx) : (updCtx s c f).ctr = s.ctr := rfl
@[simp] theorem updCtx_ticks (s : State) (c : Nat) (f : Ctx → Ctx) : (updCtx s c f).ticks = s.ticks := rfl
@[simp] theorem updCtx_free (s : State) (c : Nat) (f : Ctx → Ctx) : (updCtx s c f).free = s.free := rfl
@[simp] theorem updCtx_out (s : State) (c : Nat) (f : Ctx → Ctx) : (updCtx s c f).out = s.out := rfl
@[simp] theorem updCtx_pending (s : State) (c : Nat) (f : Ctx → Ctx) : (updCtx s c f).pending = s.pending := rfl
@[simp] theorem updCtx_getCtx (s : State) (c : Nat) (f : Ctx → Ctx) : getCtx (updCtx s c f) c = f (getCtx s c) :=
  SMap.get_upd_self _ _ _
theorem updCtx_getCtx_ne (s : State) (c : Nat) (f : Ctx → Ctx) (c' : Nat) (h : c' ≠ c) : getCtx (updCtx s c f) c' = getCtx s c' :=
  SMap.get_upd_ne _ _ h

@[simp] theorem updPort_jets (s : State) (p : Nat) (f : Port → Port) : (updPort s p f).jets = s.jets := rfl
@[simp] theorem updPort_basins (s : State) (p : Nat) (f : Port → Port) : (updPort s p f).basins = s.basins := rfl
@[simp] theorem updPort_spouts (s : State) (p : Nat) (f : Port → Port) : (updPort s p f).spouts = s.spouts := rfl
@[simp] theorem updPort_mem (s : State) (p : Nat) (f : Port → Port) : (updPort s p f).mem = s.mem := rfl
@[simp] theorem updPort_sluice (s : State) (p : Nat) (f : Port → Port) : (updPort s p f).sluice = s.sluice := rfl
@[simp] theorem updPort_links (s : State) (p : Nat) (f : Port → Port) : (updPort s p f).links = s.links := rfl
@[simp] theorem updPort_recov (s : State) (p : Nat) (f : Port → Port) : (updPort s p f).recov = s.recov := rfl
@[simp] theorem updPort_power (s : State) (p : Nat) (f : Port → Port) : (updPort s p f).power = s.power := rfl
@[simp] theorem updPort_boot (s : State) (p : Nat) (f : Port → Port) : (updPort s p f).boot = s.boot := rfl
@[simp] theorem updPort_ledger (s : State) (p : Nat) (f : Port → Port) : (updPort s p f).ledger = s.ledger := rfl
@[simp] theorem updPort_csr (s : State) (p : Nat) (f : Port → Port) : (updPort s p f).csr = s.csr := rfl
@[simp] theorem updPort_ctr (s : State) (p : Nat) (f : Port → Port) : (updPort s p f).ctr = s.ctr := rfl
@[simp] theorem updPort_ticks (s : State) (p : Nat) (f : Port → Port) : (updPort s p f).ticks = s.ticks := rfl
@[simp] theorem updPort_free (s : State) (p : Nat) (f : Port → Port) : (updPort s p f).free = s.free := rfl
@[simp] theorem updPort_out (s : State) (p : Nat) (f : Port → Port) : (updPort s p f).out = s.out := rfl
@[simp] theorem updPort_pending (s : State) (p : Nat) (f : Port → Port) : (updPort s p f).pending = s.pending := rfl
@[simp] theorem updPort_getPort (s : State) (p : Nat) (f : Port → Port) : getPort (updPort s p f) p = f (getPort s p) :=
  SMap.get_upd_self _ _ _
theorem updPort_getPort_ne (s : State) (p : Nat) (f : Port → Port) (p' : Nat) (h : p' ≠ p) : getPort (updPort s p f) p' = getPort s p' :=
  SMap.get_upd_ne _ _ h

@[simp] theorem updStack_jets (s : State) (n : Nat) (f : Stack → Stack) : (updStack s n f).jets = s.jets := rfl
@[simp] theorem updStack_basins (s : State) (n : Nat) (f : Stack → Stack) : (updStack s n f).basins = s.basins := rfl
@[simp] theorem updStack_spouts (s : State) (n : Nat) (f : Stack → Stack) : (updStack s n f).spouts = s.spouts := rfl
@[simp] theorem updStack_host (s : State) (n : Nat) (f : Stack → Stack) : (updStack s n f).host = s.host := rfl
@[simp] theorem updStack_sluice (s : State) (n : Nat) (f : Stack → Stack) : (updStack s n f).sluice = s.sluice := rfl
@[simp] theorem updStack_links (s : State) (n : Nat) (f : Stack → Stack) : (updStack s n f).links = s.links := rfl
@[simp] theorem updStack_recov (s : State) (n : Nat) (f : Stack → Stack) : (updStack s n f).recov = s.recov := rfl
@[simp] theorem updStack_power (s : State) (n : Nat) (f : Stack → Stack) : (updStack s n f).power = s.power := rfl
@[simp] theorem updStack_boot (s : State) (n : Nat) (f : Stack → Stack) : (updStack s n f).boot = s.boot := rfl
@[simp] theorem updStack_ledger (s : State) (n : Nat) (f : Stack → Stack) : (updStack s n f).ledger = s.ledger := rfl
@[simp] theorem updStack_csr (s : State) (n : Nat) (f : Stack → Stack) : (updStack s n f).csr = s.csr := rfl
@[simp] theorem updStack_ctr (s : State) (n : Nat) (f : Stack → Stack) : (updStack s n f).ctr = s.ctr := rfl
@[simp] theorem updStack_ticks (s : State) (n : Nat) (f : Stack → Stack) : (updStack s n f).ticks = s.ticks := rfl
@[simp] theorem updStack_free (s : State) (n : Nat) (f : Stack → Stack) : (updStack s n f).free = s.free := rfl
@[simp] theorem updStack_out (s : State) (n : Nat) (f : Stack → Stack) : (updStack s n f).out = s.out := rfl
@[simp] theorem updStack_pending (s : State) (n : Nat) (f : Stack → Stack) : (updStack s n f).pending = s.pending := rfl
@[simp] theorem updStack_getStack (s : State) (n : Nat) (f : Stack → Stack) : getStack (updStack s n f) n = f (getStack s n) :=
  SMap.get_upd_self _ _ _
theorem updStack_getStack_ne (s : State) (n : Nat) (f : Stack → Stack) (n' : Nat) (h : n' ≠ n) : getStack (updStack s n f) n' = getStack s n' :=
  SMap.get_upd_ne _ _ h

@[simp] theorem updSlice_jets (s : State) (n : Nat) (f : Slice → Slice) : (updSlice s n f).jets = s.jets := rfl
@[simp] theorem updSlice_basins (s : State) (n : Nat) (f : Slice → Slice) : (updSlice s n f).basins = s.basins := rfl
@[simp] theorem updSlice_spouts (s : State) (n : Nat) (f : Slice → Slice) : (updSlice s n f).spouts = s.spouts := rfl
@[simp] theorem updSlice_host (s : State) (n : Nat) (f : Slice → Slice) : (updSlice s n f).host = s.host := rfl
@[simp] theorem updSlice_sluice (s : State) (n : Nat) (f : Slice → Slice) : (updSlice s n f).sluice = s.sluice := rfl
@[simp] theorem updSlice_links (s : State) (n : Nat) (f : Slice → Slice) : (updSlice s n f).links = s.links := rfl
@[simp] theorem updSlice_recov (s : State) (n : Nat) (f : Slice → Slice) : (updSlice s n f).recov = s.recov := rfl
@[simp] theorem updSlice_power (s : State) (n : Nat) (f : Slice → Slice) : (updSlice s n f).power = s.power := rfl
@[simp] theorem updSlice_boot (s : State) (n : Nat) (f : Slice → Slice) : (updSlice s n f).boot = s.boot := rfl
@[simp] theorem updSlice_ledger (s : State) (n : Nat) (f : Slice → Slice) : (updSlice s n f).ledger = s.ledger := rfl
@[simp] theorem updSlice_csr (s : State) (n : Nat) (f : Slice → Slice) : (updSlice s n f).csr = s.csr := rfl
@[simp] theorem updSlice_ctr (s : State) (n : Nat) (f : Slice → Slice) : (updSlice s n f).ctr = s.ctr := rfl
@[simp] theorem updSlice_ticks (s : State) (n : Nat) (f : Slice → Slice) : (updSlice s n f).ticks = s.ticks := rfl
@[simp] theorem updSlice_free (s : State) (n : Nat) (f : Slice → Slice) : (updSlice s n f).free = s.free := rfl
@[simp] theorem updSlice_out (s : State) (n : Nat) (f : Slice → Slice) : (updSlice s n f).out = s.out := rfl
@[simp] theorem updSlice_pending (s : State) (n : Nat) (f : Slice → Slice) : (updSlice s n f).pending = s.pending := rfl
@[simp] theorem updSlice_getSlice (s : State) (n : Nat) (f : Slice → Slice) : getSlice (updSlice s n f) n = f (getSlice s n) :=
  SMap.get_upd_self _ _ _
theorem updSlice_getSlice_ne (s : State) (n : Nat) (f : Slice → Slice) (n' : Nat) (h : n' ≠ n) : getSlice (updSlice s n f) n' = getSlice s n' :=
  SMap.get_upd_ne _ _ h

@[simp] theorem updLink_jets (s : State) (p : Nat) (f : LPort → LPort) : (updLink s p f).jets = s.jets := rfl
@[simp] theorem updLink_basins (s : State) (p : Nat) (f : LPort → LPort) : (updLink s p f).basins = s.basins := rfl
@[simp] theorem updLink_spouts (s : State) (p : Nat) (f : LPort → LPort) : (updLink s p f).spouts = s.spouts := rfl
@[simp] theorem updLink_mem (s : State) (p : Nat) (f : LPort → LPort) : (updLink s p f).mem = s.mem := rfl
@[simp] theorem updLink_host (s : State) (p : Nat) (f : LPort → LPort) : (updLink s p f).host = s.host := rfl
@[simp] theorem updLink_sluice (s : State) (p : Nat) (f : LPort → LPort) : (updLink s p f).sluice = s.sluice := rfl
@[simp] theorem updLink_recov (s : State) (p : Nat) (f : LPort → LPort) : (updLink s p f).recov = s.recov := rfl
@[simp] theorem updLink_power (s : State) (p : Nat) (f : LPort → LPort) : (updLink s p f).power = s.power := rfl
@[simp] theorem updLink_boot (s : State) (p : Nat) (f : LPort → LPort) : (updLink s p f).boot = s.boot := rfl
@[simp] theorem updLink_ledger (s : State) (p : Nat) (f : LPort → LPort) : (updLink s p f).ledger = s.ledger := rfl
@[simp] theorem updLink_csr (s : State) (p : Nat) (f : LPort → LPort) : (updLink s p f).csr = s.csr := rfl
@[simp] theorem updLink_ctr (s : State) (p : Nat) (f : LPort → LPort) : (updLink s p f).ctr = s.ctr := rfl
@[simp] theorem updLink_ticks (s : State) (p : Nat) (f : LPort → LPort) : (updLink s p f).ticks = s.ticks := rfl
@[simp] theorem updLink_free (s : State) (p : Nat) (f : LPort → LPort) : (updLink s p f).free = s.free := rfl
@[simp] theorem updLink_out (s : State) (p : Nat) (f : LPort → LPort) : (updLink s p f).out = s.out := rfl
@[simp] theorem updLink_pending (s : State) (p : Nat) (f : LPort → LPort) : (updLink s p f).pending = s.pending := rfl
@[simp] theorem updLink_getLink (s : State) (p : Nat) (f : LPort → LPort) : getLink (updLink s p f) p = f (getLink s p) :=
  SMap.get_upd_self _ _ _
theorem updLink_getLink_ne (s : State) (p : Nat) (f : LPort → LPort) (p' : Nat) (h : p' ≠ p) : getLink (updLink s p f) p' = getLink s p' :=
  SMap.get_upd_ne _ _ h

@[simp] theorem updFBar_jets (s : State) (k : Nat) (f : FBar → FBar) : (updFBar s k f).jets = s.jets := rfl
@[simp] theorem updFBar_basins (s : State) (k : Nat) (f : FBar → FBar) : (updFBar s k f).basins = s.basins := rfl
@[simp] theorem updFBar_spouts (s : State) (k : Nat) (f : FBar → FBar) : (updFBar s k f).spouts = s.spouts := rfl
@[simp] theorem updFBar_mem (s : State) (k : Nat) (f : FBar → FBar) : (updFBar s k f).mem = s.mem := rfl
@[simp] theorem updFBar_host (s : State) (k : Nat) (f : FBar → FBar) : (updFBar s k f).host = s.host := rfl
@[simp] theorem updFBar_sluice (s : State) (k : Nat) (f : FBar → FBar) : (updFBar s k f).sluice = s.sluice := rfl
@[simp] theorem updFBar_recov (s : State) (k : Nat) (f : FBar → FBar) : (updFBar s k f).recov = s.recov := rfl
@[simp] theorem updFBar_power (s : State) (k : Nat) (f : FBar → FBar) : (updFBar s k f).power = s.power := rfl
@[simp] theorem updFBar_boot (s : State) (k : Nat) (f : FBar → FBar) : (updFBar s k f).boot = s.boot := rfl
@[simp] theorem updFBar_ledger (s : State) (k : Nat) (f : FBar → FBar) : (updFBar s k f).ledger = s.ledger := rfl
@[simp] theorem updFBar_csr (s : State) (k : Nat) (f : FBar → FBar) : (updFBar s k f).csr = s.csr := rfl
@[simp] theorem updFBar_ctr (s : State) (k : Nat) (f : FBar → FBar) : (updFBar s k f).ctr = s.ctr := rfl
@[simp] theorem updFBar_ticks (s : State) (k : Nat) (f : FBar → FBar) : (updFBar s k f).ticks = s.ticks := rfl
@[simp] theorem updFBar_free (s : State) (k : Nat) (f : FBar → FBar) : (updFBar s k f).free = s.free := rfl
@[simp] theorem updFBar_out (s : State) (k : Nat) (f : FBar → FBar) : (updFBar s k f).out = s.out := rfl
@[simp] theorem updFBar_pending (s : State) (k : Nat) (f : FBar → FBar) : (updFBar s k f).pending = s.pending := rfl
@[simp] theorem updFBar_getFBar (s : State) (k : Nat) (f : FBar → FBar) : getFBar (updFBar s k f) k = f (getFBar s k) :=
  SMap.get_upd_self _ _ _
theorem updFBar_getFBar_ne (s : State) (k : Nat) (f : FBar → FBar) (k' : Nat) (h : k' ≠ k) : getFBar (updFBar s k f) k' = getFBar s k' :=
  SMap.get_upd_ne _ _ h

@[simp] theorem setReg_jets (s : State) (off v : Nat) : (setReg s off v).jets = s.jets := rfl
@[simp] theorem setReg_basins (s : State) (off v : Nat) : (setReg s off v).basins = s.basins := rfl
@[simp] theorem setReg_spouts (s : State) (off v : Nat) : (setReg s off v).spouts = s.spouts := rfl
@[simp] theorem setReg_mem (s : State) (off v : Nat) : (setReg s off v).mem = s.mem := rfl
@[simp] theorem setReg_host (s : State) (off v : Nat) : (setReg s off v).host = s.host := rfl
@[simp] theorem setReg_sluice (s : State) (off v : Nat) : (setReg s off v).sluice = s.sluice := rfl
@[simp] theorem setReg_links (s : State) (off v : Nat) : (setReg s off v).links = s.links := rfl
@[simp] theorem setReg_recov (s : State) (off v : Nat) : (setReg s off v).recov = s.recov := rfl
@[simp] theorem setReg_power (s : State) (off v : Nat) : (setReg s off v).power = s.power := rfl
@[simp] theorem setReg_boot (s : State) (off v : Nat) : (setReg s off v).boot = s.boot := rfl
@[simp] theorem setReg_ledger (s : State) (off v : Nat) : (setReg s off v).ledger = s.ledger := rfl
@[simp] theorem setReg_ctr (s : State) (off v : Nat) : (setReg s off v).ctr = s.ctr := rfl
@[simp] theorem setReg_ticks (s : State) (off v : Nat) : (setReg s off v).ticks = s.ticks := rfl
@[simp] theorem setReg_free (s : State) (off v : Nat) : (setReg s off v).free = s.free := rfl
@[simp] theorem setReg_out (s : State) (off v : Nat) : (setReg s off v).out = s.out := rfl
@[simp] theorem setReg_pending (s : State) (off v : Nat) : (setReg s off v).pending = s.pending := rfl

@[simp] theorem setBits_jets (s : State) (off v : Nat) : (setBits s off v).jets = s.jets := rfl
@[simp] theorem setBits_basins (s : State) (off v : Nat) : (setBits s off v).basins = s.basins := rfl
@[simp] theorem setBits_spouts (s : State) (off v : Nat) : (setBits s off v).spouts = s.spouts := rfl
@[simp] theorem setBits_mem (s : State) (off v : Nat) : (setBits s off v).mem = s.mem := rfl
@[simp] theorem setBits_host (s : State) (off v : Nat) : (setBits s off v).host = s.host := rfl
@[simp] theorem setBits_sluice (s : State) (off v : Nat) : (setBits s off v).sluice = s.sluice := rfl
@[simp] theorem setBits_links (s : State) (off v : Nat) : (setBits s off v).links = s.links := rfl
@[simp] theorem setBits_recov (s : State) (off v : Nat) : (setBits s off v).recov = s.recov := rfl
@[simp] theorem setBits_power (s : State) (off v : Nat) : (setBits s off v).power = s.power := rfl
@[simp] theorem setBits_boot (s : State) (off v : Nat) : (setBits s off v).boot = s.boot := rfl
@[simp] theorem setBits_ledger (s : State) (off v : Nat) : (setBits s off v).ledger = s.ledger := rfl
@[simp] theorem setBits_ctr (s : State) (off v : Nat) : (setBits s off v).ctr = s.ctr := rfl
@[simp] theorem setBits_ticks (s : State) (off v : Nat) : (setBits s off v).ticks = s.ticks := rfl
@[simp] theorem setBits_free (s : State) (off v : Nat) : (setBits s off v).free = s.free := rfl
@[simp] theorem setBits_out (s : State) (off v : Nat) : (setBits s off v).out = s.out := rfl
@[simp] theorem setBits_pending (s : State) (off v : Nat) : (setBits s off v).pending = s.pending := rfl

@[simp] theorem setBit_jets (s : State) (off i : Nat) : (setBit s off i).jets = s.jets := rfl
@[simp] theorem setBit_basins (s : State) (off i : Nat) : (setBit s off i).basins = s.basins := rfl
@[simp] theorem setBit_spouts (s : State) (off i : Nat) : (setBit s off i).spouts = s.spouts := rfl
@[simp] theorem setBit_mem (s : State) (off i : Nat) : (setBit s off i).mem = s.mem := rfl
@[simp] theorem setBit_host (s : State) (off i : Nat) : (setBit s off i).host = s.host := rfl
@[simp] theorem setBit_sluice (s : State) (off i : Nat) : (setBit s off i).sluice = s.sluice := rfl
@[simp] theorem setBit_links (s : State) (off i : Nat) : (setBit s off i).links = s.links := rfl
@[simp] theorem setBit_recov (s : State) (off i : Nat) : (setBit s off i).recov = s.recov := rfl
@[simp] theorem setBit_power (s : State) (off i : Nat) : (setBit s off i).power = s.power := rfl
@[simp] theorem setBit_boot (s : State) (off i : Nat) : (setBit s off i).boot = s.boot := rfl
@[simp] theorem setBit_ledger (s : State) (off i : Nat) : (setBit s off i).ledger = s.ledger := rfl
@[simp] theorem setBit_ctr (s : State) (off i : Nat) : (setBit s off i).ctr = s.ctr := rfl
@[simp] theorem setBit_ticks (s : State) (off i : Nat) : (setBit s off i).ticks = s.ticks := rfl
@[simp] theorem setBit_free (s : State) (off i : Nat) : (setBit s off i).free = s.free := rfl
@[simp] theorem setBit_out (s : State) (off i : Nat) : (setBit s off i).out = s.out := rfl
@[simp] theorem setBit_pending (s : State) (off i : Nat) : (setBit s off i).pending = s.pending := rfl

@[simp] theorem clearBits_jets (s : State) (off v : Nat) : (clearBits s off v).jets = s.jets := rfl
@[simp] theorem clearBits_basins (s : State) (off v : Nat) : (clearBits s off v).basins = s.basins := rfl
@[simp] theorem clearBits_spouts (s : State) (off v : Nat) : (clearBits s off v).spouts = s.spouts := rfl
@[simp] theorem clearBits_mem (s : State) (off v : Nat) : (clearBits s off v).mem = s.mem := rfl
@[simp] theorem clearBits_host (s : State) (off v : Nat) : (clearBits s off v).host = s.host := rfl
@[simp] theorem clearBits_sluice (s : State) (off v : Nat) : (clearBits s off v).sluice = s.sluice := rfl
@[simp] theorem clearBits_links (s : State) (off v : Nat) : (clearBits s off v).links = s.links := rfl
@[simp] theorem clearBits_recov (s : State) (off v : Nat) : (clearBits s off v).recov = s.recov := rfl
@[simp] theorem clearBits_power (s : State) (off v : Nat) : (clearBits s off v).power = s.power := rfl
@[simp] theorem clearBits_boot (s : State) (off v : Nat) : (clearBits s off v).boot = s.boot := rfl
@[simp] theorem clearBits_ledger (s : State) (off v : Nat) : (clearBits s off v).ledger = s.ledger := rfl
@[simp] theorem clearBits_ctr (s : State) (off v : Nat) : (clearBits s off v).ctr = s.ctr := rfl
@[simp] theorem clearBits_ticks (s : State) (off v : Nat) : (clearBits s off v).ticks = s.ticks := rfl
@[simp] theorem clearBits_free (s : State) (off v : Nat) : (clearBits s off v).free = s.free := rfl
@[simp] theorem clearBits_out (s : State) (off v : Nat) : (clearBits s off v).out = s.out := rfl
@[simp] theorem clearBits_pending (s : State) (off v : Nat) : (clearBits s off v).pending = s.pending := rfl

@[simp] theorem bump_jets (s : State) (off n : Nat) : (bump s off n).jets = s.jets := rfl
@[simp] theorem bump_basins (s : State) (off n : Nat) : (bump s off n).basins = s.basins := rfl
@[simp] theorem bump_spouts (s : State) (off n : Nat) : (bump s off n).spouts = s.spouts := rfl
@[simp] theorem bump_mem (s : State) (off n : Nat) : (bump s off n).mem = s.mem := rfl
@[simp] theorem bump_host (s : State) (off n : Nat) : (bump s off n).host = s.host := rfl
@[simp] theorem bump_sluice (s : State) (off n : Nat) : (bump s off n).sluice = s.sluice := rfl
@[simp] theorem bump_links (s : State) (off n : Nat) : (bump s off n).links = s.links := rfl
@[simp] theorem bump_recov (s : State) (off n : Nat) : (bump s off n).recov = s.recov := rfl
@[simp] theorem bump_power (s : State) (off n : Nat) : (bump s off n).power = s.power := rfl
@[simp] theorem bump_boot (s : State) (off n : Nat) : (bump s off n).boot = s.boot := rfl
@[simp] theorem bump_ledger (s : State) (off n : Nat) : (bump s off n).ledger = s.ledger := rfl
@[simp] theorem bump_csr (s : State) (off n : Nat) : (bump s off n).csr = s.csr := rfl
@[simp] theorem bump_ticks (s : State) (off n : Nat) : (bump s off n).ticks = s.ticks := rfl
@[simp] theorem bump_free (s : State) (off n : Nat) : (bump s off n).free = s.free := rfl
@[simp] theorem bump_out (s : State) (off n : Nat) : (bump s off n).out = s.out := rfl
@[simp] theorem bump_pending (s : State) (off n : Nat) : (bump s off n).pending = s.pending := rfl

@[simp] theorem setPair_jets (s : State) (off v : Nat) : (setPair s off v).jets = s.jets := rfl
@[simp] theorem setPair_basins (s : State) (off v : Nat) : (setPair s off v).basins = s.basins := rfl
@[simp] theorem setPair_spouts (s : State) (off v : Nat) : (setPair s off v).spouts = s.spouts := rfl
@[simp] theorem setPair_mem (s : State) (off v : Nat) : (setPair s off v).mem = s.mem := rfl
@[simp] theorem setPair_host (s : State) (off v : Nat) : (setPair s off v).host = s.host := rfl
@[simp] theorem setPair_sluice (s : State) (off v : Nat) : (setPair s off v).sluice = s.sluice := rfl
@[simp] theorem setPair_links (s : State) (off v : Nat) : (setPair s off v).links = s.links := rfl
@[simp] theorem setPair_recov (s : State) (off v : Nat) : (setPair s off v).recov = s.recov := rfl
@[simp] theorem setPair_power (s : State) (off v : Nat) : (setPair s off v).power = s.power := rfl
@[simp] theorem setPair_boot (s : State) (off v : Nat) : (setPair s off v).boot = s.boot := rfl
@[simp] theorem setPair_ledger (s : State) (off v : Nat) : (setPair s off v).ledger = s.ledger := rfl
@[simp] theorem setPair_csr (s : State) (off v : Nat) : (setPair s off v).csr = s.csr := rfl
@[simp] theorem setPair_ticks (s : State) (off v : Nat) : (setPair s off v).ticks = s.ticks := rfl
@[simp] theorem setPair_free (s : State) (off v : Nat) : (setPair s off v).free = s.free := rfl
@[simp] theorem setPair_out (s : State) (off v : Nat) : (setPair s off v).out = s.out := rfl
@[simp] theorem setPair_pending (s : State) (off v : Nat) : (setPair s off v).pending = s.pending := rfl

@[simp] theorem emit_jets (s : State) (o : Out) : (emit s o).jets = s.jets := rfl
@[simp] theorem emit_basins (s : State) (o : Out) : (emit s o).basins = s.basins := rfl
@[simp] theorem emit_spouts (s : State) (o : Out) : (emit s o).spouts = s.spouts := rfl
@[simp] theorem emit_mem (s : State) (o : Out) : (emit s o).mem = s.mem := rfl
@[simp] theorem emit_host (s : State) (o : Out) : (emit s o).host = s.host := rfl
@[simp] theorem emit_sluice (s : State) (o : Out) : (emit s o).sluice = s.sluice := rfl
@[simp] theorem emit_links (s : State) (o : Out) : (emit s o).links = s.links := rfl
@[simp] theorem emit_recov (s : State) (o : Out) : (emit s o).recov = s.recov := rfl
@[simp] theorem emit_power (s : State) (o : Out) : (emit s o).power = s.power := rfl
@[simp] theorem emit_boot (s : State) (o : Out) : (emit s o).boot = s.boot := rfl
@[simp] theorem emit_ledger (s : State) (o : Out) : (emit s o).ledger = s.ledger := rfl
@[simp] theorem emit_csr (s : State) (o : Out) : (emit s o).csr = s.csr := rfl
@[simp] theorem emit_ctr (s : State) (o : Out) : (emit s o).ctr = s.ctr := rfl
@[simp] theorem emit_ticks (s : State) (o : Out) : (emit s o).ticks = s.ticks := rfl
@[simp] theorem emit_free (s : State) (o : Out) : (emit s o).free = s.free := rfl
@[simp] theorem emit_pending (s : State) (o : Out) : (emit s o).pending = s.pending := rfl

@[simp] theorem fresh_jets (s : State) : (fresh s).jets = s.jets := rfl
@[simp] theorem fresh_basins (s : State) : (fresh s).basins = s.basins := rfl
@[simp] theorem fresh_spouts (s : State) : (fresh s).spouts = s.spouts := rfl
@[simp] theorem fresh_mem (s : State) : (fresh s).mem = s.mem := rfl
@[simp] theorem fresh_host (s : State) : (fresh s).host = s.host := rfl
@[simp] theorem fresh_sluice (s : State) : (fresh s).sluice = s.sluice := rfl
@[simp] theorem fresh_links (s : State) : (fresh s).links = s.links := rfl
@[simp] theorem fresh_recov (s : State) : (fresh s).recov = s.recov := rfl
@[simp] theorem fresh_power (s : State) : (fresh s).power = s.power := rfl
@[simp] theorem fresh_boot (s : State) : (fresh s).boot = s.boot := rfl
@[simp] theorem fresh_ledger (s : State) : (fresh s).ledger = s.ledger := rfl
@[simp] theorem fresh_csr (s : State) : (fresh s).csr = s.csr := rfl
@[simp] theorem fresh_ctr (s : State) : (fresh s).ctr = s.ctr := rfl
@[simp] theorem fresh_ticks (s : State) : (fresh s).ticks = s.ticks := rfl
@[simp] theorem fresh_out (s : State) : (fresh s).out = s.out := rfl
@[simp] theorem fresh_pending (s : State) : (fresh s).pending = s.pending := rfl

end Sys2Proof.Machine
end

