-- ==== Sys2Proof/Laws/Cells.lean ====
section
/-!
SUPPORT. What leaves the memory's bytes alone: one law `f_cells` for each operation and each meaning that writes none.
-/

set_option linter.unusedVariables false

namespace Sys2Proof.Machine

/-! Ops. -/

@[simp] theorem setReg_cells (s : State) (off : Nat) (v : Nat) : (setReg s off v).mem.cells = s.mem.cells := by
  unfold setReg; rfl

@[simp] theorem setBits_cells (s : State) (off : Nat) (mask : Nat) : (setBits s off mask).mem.cells = s.mem.cells := by
  unfold setBits; rfl

@[simp] theorem setBit_cells (s : State) (off : Nat) (i : Nat) : (setBit s off i).mem.cells = s.mem.cells := by
  unfold setBit; rfl

@[simp] theorem clearBits_cells (s : State) (off : Nat) (v : Nat) : (clearBits s off v).mem.cells = s.mem.cells := by
  unfold clearBits; rfl

@[simp] theorem bump_cells (s : State) (off : Nat) (n : Nat) : (bump s off n).mem.cells = s.mem.cells := by
  unfold bump; rfl

@[simp] theorem setPair_cells (s : State) (off : Nat) (v : Nat) : (setPair s off v).mem.cells = s.mem.cells := by
  unfold setPair; rfl

@[simp] theorem emit_cells (s : State) (o : Out) : (emit s o).mem.cells = s.mem.cells := by
  unfold emit; rfl

@[simp] theorem hifFlag_cells (s : State) (p : Nat) (i : Nat) : (hifFlag s p i).mem.cells = s.mem.cells := by
  unfold hifFlag; rfl

@[simp] theorem fresh_cells (s : State) : (fresh s).mem.cells = s.mem.cells := by
  unfold fresh; rfl

@[simp] theorem updThread_cells (s : State) (j : Nat) (t : Nat) (f : Thread → Thread) :
    (updThread s j t f).mem.cells = s.mem.cells := by
  unfold updThread; rfl

@[simp] theorem updChan_cells (s : State) (j : Nat) (c : Nat) (f : Channel → Channel) :
    (updChan s j c f).mem.cells = s.mem.cells := by
  unfold updChan; rfl

@[simp] theorem updConn_cells (s : State) (ep : Nat) (i : Nat) (f : Conn → Conn) :
    (updConn s ep i f).mem.cells = s.mem.cells := by
  unfold updConn; rfl

@[simp] theorem orphanWops_cells (s : State) (p : Nat → Bool) : (orphanWops s p).mem.cells = s.mem.cells := by
  unfold orphanWops; rfl

@[simp] theorem updBar_cells (s : State) (k : Nat) (f : Barrier → Barrier) : (updBar s k f).mem.cells = s.mem.cells := by
  unfold updBar; rfl

@[simp] theorem updRowPort_cells (s : State) (k : Nat) (f : RowPort → RowPort) :
    (updRowPort s k f).mem.cells = s.mem.cells := by
  unfold updRowPort; rfl

@[simp] theorem updTerrace_cells (s : State) (t : Nat) (f : Terrace → Terrace) :
    (updTerrace s t f).mem.cells = s.mem.cells := by
  unfold updTerrace; rfl

@[simp] theorem updBasin_cells (s : State) (b : Nat) (f : Basin → Basin) : (updBasin s b f).mem.cells = s.mem.cells := by
  unfold updBasin; rfl

@[simp] theorem updSpout_cells (s : State) (b : Nat) (f : Spout → Spout) : (updSpout s b f).mem.cells = s.mem.cells := by
  unfold updSpout; rfl

@[simp] theorem updCtx_cells (s : State) (c : Nat) (f : Ctx → Ctx) : (updCtx s c f).mem.cells = s.mem.cells := by
  unfold updCtx; rfl

@[simp] theorem updPort_cells (s : State) (p : Nat) (f : Port → Port) : (updPort s p f).mem.cells = s.mem.cells := by
  unfold updPort; rfl

@[simp] theorem updStack_cells (s : State) (n : Nat) (f : Stack → Stack) : (updStack s n f).mem.cells = s.mem.cells := by
  unfold updStack; rfl

@[simp] theorem updSlice_cells (s : State) (n : Nat) (f : Slice → Slice) : (updSlice s n f).mem.cells = s.mem.cells := by
  unfold updSlice; rfl

@[simp] theorem updLink_cells (s : State) (p : Nat) (f : LPort → LPort) : (updLink s p f).mem.cells = s.mem.cells := by
  unfold updLink; rfl

@[simp] theorem updFBar_cells (s : State) (k : Nat) (f : FBar → FBar) : (updFBar s k f).mem.cells = s.mem.cells := by
  unfold updFBar; rfl

@[simp] theorem ledgerRecord_cells (s : State) (code : Nat) (v : Nat) (d : List Byte) :
    (ledgerRecord s code v d).mem.cells = s.mem.cells := by
  unfold ledgerRecord; rfl

/-! Translate. -/

@[simp] theorem cisRefused_cells (s : State) : (cisRefused s).mem.cells = s.mem.cells := by
  unfold cisRefused; rfl

/-! LinkOps. -/

@[simp] theorem creditsBack_cells (s : State) (p : Nat) (v : Nat) (n : Nat) :
    (creditsBack s p v n).mem.cells = s.mem.cells := by
  unfold creditsBack; rfl

@[simp] theorem flitsGone_cells (s : State) (os : List (Nat × Nat)) : (flitsGone s os).mem.cells = s.mem.cells := by
  unfold flitsGone; simp

@[simp] theorem pumpN_cells (a0 : Nat) (a1 : State) (a2 : Nat) (a3 : Bool) :
    (pumpN a0 a1 a2 a3).mem.cells = a1.mem.cells := by
  induction a0 generalizing a1 a3 with
  | zero => rfl
  | succ n ih =>
    unfold pumpN
    split
    · rfl
    · dsimp only; rw [ih]; simp

@[simp] theorem pump_cells (s : State) (p : Nat) (news : Bool) : (pump s p news).mem.cells = s.mem.cells := by
  unfold pump
  rw [foldl_cells, pumpN_cells]
  intro s q; split
  · rfl
  · exact pumpN_cells _ _ _ _

@[simp] theorem queueFlits_cells (s : State) (p : Nat) (v : Nat) (fs : List TFlit) :
    (queueFlits s p v fs).mem.cells = s.mem.cells := by
  unfold queueFlits; rfl

@[simp] theorem sendOn_cells (s : State) (p : Nat) (k : Pkt) : (sendOn s p k).mem.cells = s.mem.cells := by
  unfold sendOn; simp

@[simp] theorem inject_cells (s : State) (k : Pkt) : (inject s k).mem.cells = s.mem.cells := by
  unfold inject; rfl

/-! Halt. -/

@[simp] theorem abortBasin_cells (s : State) (b : Nat) : (abortBasin s b).mem.cells = s.mem.cells := by
  unfold abortBasin; rfl

@[simp] theorem countDiscards_cells (s : State) (n : Nat) : (countDiscards s n).mem.cells = s.mem.cells := by
  unfold countDiscards; simp

@[simp] theorem clearJets_cells (s : State) (p : Nat → Bool) : (clearJets s p).mem.cells = s.mem.cells := by
  unfold clearJets; simp

@[simp] theorem abandon_cells (s : State) (c : Nat) : (abandon s c).mem.cells = s.mem.cells := by
  unfold abandon; simp

@[simp] theorem adminDone_cells (s : State) (p : Nat) (code : Nat) : (adminDone s p code).mem.cells = s.mem.cells := by
  unfold adminDone; rfl

@[simp] theorem endSuspend_cells (s : State) (c : Nat) : (endSuspend s c).mem.cells = s.mem.cells := by
  unfold endSuspend; simp

@[simp] theorem haltCore_cells (s : State) (c : Nat) (reason : Nat) : (haltCore s c reason).mem.cells = s.mem.cells := by
  simp only [haltCore, updCtx_cells, endSuspend_cells, abandon_cells]

@[simp] theorem postEvent_cells (s : State) (c : Nat) (kind : Nat) (slot : Nat) (detail : List Byte) :
    (postEvent s c kind slot detail).mem.cells = s.mem.cells := by
  unfold postEvent; simp

@[simp] theorem haltOne_cells (s : State) (c : Nat) (reason : Nat) (slot : Nat) (err : Nat) :
    (haltOne s c reason slot err).mem.cells = s.mem.cells := by
  unfold haltOne; simp

@[simp] theorem halt_cells (s : State) (c : Nat) (reason : Nat) (slot : Nat) (err : Nat) :
    (halt s c reason slot err).mem.cells = s.mem.cells := by
  unfold halt; (try simp only []); (repeat' split) <;> simp_all

@[simp] theorem abortKernel_cells (s : State) (c : Nat) : (abortKernel s c).mem.cells = s.mem.cells := by
  unfold abortKernel; simp

@[simp] theorem noteErr_cells (s : State) (r : ErrRec) (w : Touch) : (noteErr s r w).mem.cells = s.mem.cells := by
  unfold noteErr; simp

@[simp] theorem contain_cells (s : State) : (contain s).mem.cells = s.mem.cells := by
  unfold contain; rfl

@[simp] theorem raiseS4_cells (s : State) (code : Nat) (unit : Nat) (inst : Nat) :
    (raiseS4 s code unit inst).mem.cells = s.mem.cells := by
  unfold raiseS4; simp

@[simp] theorem sendNotices_cells (s : State) (lost : List Nat) (origin : Nat) (but : Option Nat) :
    (sendNotices s lost origin but).mem.cells = s.mem.cells := by
  unfold sendNotices; simp

@[simp] theorem quiesce_cells (s : State) (c : Nat) : (quiesce s c).mem.cells = s.mem.cells := by
  unfold quiesce; simp

@[simp] theorem closeWindows_cells (s : State) : (closeWindows s).mem.cells = s.mem.cells := by
  unfold closeWindows; refine foldl_cells _ ?_ _ _; exact fun _ _ => rfl

@[simp] theorem jobLost_cells (s : State) : (jobLost s).mem.cells = s.mem.cells := by
  unfold jobLost; simp

/-! FabricOps. -/

@[simp] theorem completeCmd_cells (s : State) (c : Nat) (slot : Nat) : (completeCmd s c slot).mem.cells = s.mem.cells := by
  unfold completeCmd; (repeat' split) <;> simp

@[simp] theorem endWait_cells (s : State) (j : Nat) (t : Nat) (ws : List (Nat × Word)) :
    (endWait s j t ws).mem.cells = s.mem.cells := by
  unfold endWait; rfl

@[simp] theorem wakePassed_cells (s : State) (k : Nat) : (wakePassed s k).mem.cells = s.mem.cells := by
  unfold wakePassed; simp

@[simp] theorem breakBar_cells (s : State) (k : Nat) : (breakBar s k).mem.cells = s.mem.cells := by
  unfold breakBar; simp

@[simp] theorem breakBarsOf_cells (s : State) (p : Nat → Bool) : (breakBarsOf s p).mem.cells = s.mem.cells := by
  unfold breakBarsOf; simp

@[simp] theorem fbarLeave_cells (s : State) (b : Nat) (mn : Nat) (mx : Nat) (fl : Nat) (ps : List (Nat × Int)) :
    (fbarLeave s b mn mx fl ps).mem.cells = s.mem.cells := by
  unfold fbarLeave; simp

@[simp] theorem fbarAdvance_cells (s : State) (b : Nat) : (fbarAdvance s b).mem.cells = s.mem.cells := by
  unfold fbarAdvance; simp

@[simp] theorem fbarArrive_cells (s : State) (b : Nat) (mn : Nat) (mx : Nat) (fl : Nat) (ps : List (Nat × Int)) :
    (fbarArrive s b mn mx fl ps).mem.cells = s.mem.cells := by
  unfold fbarArrive; simp

@[simp] theorem barFull_cells (s : State) (k : Nat) : (barFull s k).mem.cells = s.mem.cells := by
  unfold barFull; simp

@[simp] theorem fbarAgain_cells (s : State) (b : Nat) : (fbarAgain s b).mem.cells = s.mem.cells := by
  unfold fbarAgain; simp

@[simp] theorem fbarRelease_cells (s : State) (b : Nat) (mn : Nat) (mx : Nat) (fl : Nat) (ps : List (Nat × Int)) :
    (fbarRelease s b mn mx fl ps).mem.cells = s.mem.cells := by
  unfold fbarRelease; simp

@[simp] theorem wakeBar_cells (s : State) (k : Nat) : (wakeBar s k).mem.cells = s.mem.cells := by
  unfold wakeBar; simp

@[simp] theorem leaveBar_cells (s : State) (who : Nat) (k : Nat) : (leaveBar s who k).mem.cells = s.mem.cells := by
  unfold leaveBar; simp

/-! JetOps. -/

@[simp] theorem retire_cells (s : State) (j : Nat) (t : Nat) (f : Thread → Thread) :
    (retire s j t f).mem.cells = s.mem.cells := by
  unfold retire; rfl

@[simp] theorem threadFault_cells (s : State) (c : Nat) (j : Nat) (t : Nat) (code : Nat) :
    (threadFault s c j t code).mem.cells = s.mem.cells := by
  unfold threadFault; simp

@[simp] theorem takeSlot_cells (s : State) (j : Nat) (t : Nat) : (takeSlot s j t).mem.cells = s.mem.cells := by
  unfold takeSlot; rfl

@[simp] theorem cacheWord_cells (s : State) (j : Nat) (pc : Nat) (w : Word) :
    (cacheWord s j pc w).mem.cells = s.mem.cells := by
  unfold cacheWord; rfl

@[simp] theorem accessFault_cells (s : State) (c : Nat) (j : Nat) (t : Nat) (a : Nat) (n : Nat) (write : Bool) :
    (accessFault s c j t a n write).mem.cells = s.mem.cells := by
  unfold accessFault; simp

@[simp] theorem parityFault_cells (s : State) (c : Nat) (j : Nat) (t : Nat) :
    (parityFault s c j t).mem.cells = s.mem.cells := by
  unfold parityFault; simp

@[simp] theorem startWait_cells (s : State) (j : Nat) (t : Nat) (st : ThreadState) (w : Wait) :
    (startWait s j t st w).mem.cells = s.mem.cells := by
  unfold startWait; rfl

/-! JetMemory. -/

@[simp] theorem memFlits_cells (s : State) (out : Nat) (back : Nat) : (memFlits s out back).mem.cells = s.mem.cells := by
  unfold memFlits; rfl

@[simp] theorem barArrive_cells (s : State) (c : Nat) (j : Nat) (t : Nat) (h : Nat) (d : Nat) :
    (barArrive s c j t h d).mem.cells = s.mem.cells := by
  unfold barArrive; (repeat' split) <;> simp

theorem execFenceComplete_cells (jet : Nat) (thread : Nat) (s : State) : ∀ r,
    (execFenceComplete jet thread s) = .next r → r.mem.cells = s.mem.cells := by
  intro r h; unfold execFenceComplete at h; injection h with h; subst h; dsimp only; (repeat' split) <;> simp

/-! JetMessage. -/

@[simp] theorem countP0_cells (s : State) (n : Nat) : (countP0 s n).mem.cells = s.mem.cells := by
  unfold countP0; rfl

@[simp] theorem countP1_cells (s : State) (n : Nat) : (countP1 s n).mem.cells = s.mem.cells := by
  unfold countP1; rfl

@[simp] theorem sendNow_cells (s : State) (j : Nat) (t : Nat) (idx : Nat) (data : List Byte) (tag : Nat) :
    (sendNow s j t idx data tag).mem.cells = s.mem.cells := by
  unfold sendNow; rfl

@[simp] theorem creditIn_cells (s : State) (ep : Nat) (idx : Nat) (n : Nat) :
    (creditIn s ep idx n).mem.cells = s.mem.cells := by
  unfold creditIn; (try simp only []); (repeat' split) <;> simp_all

@[simp] theorem takeMsg_cells (s : State) (j : Nat) (ch : Nat) (k : Nat) : (takeMsg s j ch k).mem.cells = s.mem.cells := by
  unfold takeMsg; rfl

@[simp] theorem wakeReceiver_cells (s : State) (j : Nat) (ch : Nat) (src : Nat) :
    (wakeReceiver s j ch src).mem.cells = s.mem.cells := by
  unfold wakeReceiver; (try simp only []); (repeat' split) <;> simp_all

@[simp] theorem grantBack_cells (s : State) (g : Grant) : (grantBack s g).mem.cells = s.mem.cells := by
  unfold grantBack; rfl

@[simp] theorem answer_cells (s : State) (r : ConnReq) (granted : Bool) (credits : Nat) (largest : Nat) :
    (answer s r granted credits largest).mem.cells = s.mem.cells := by
  unfold answer; simp

@[simp] theorem decideReq_cells (s : State) (r : ConnReq) : (decideReq s r).mem.cells = s.mem.cells := by
  unfold decideReq; simp

@[simp] theorem closeIfDone_cells (s : State) (j : Nat) (ch : Nat) : (closeIfDone s j ch).mem.cells = s.mem.cells := by
  unfold closeIfDone; simp

@[simp] theorem leaveChan_cells (s : State) (j : Nat) (ch : Nat) (ep : Nat) (idx : Nat) :
    (leaveChan s j ch ep idx).mem.cells = s.mem.cells := by
  unfold leaveChan; simp

@[simp] theorem dropConn_cells (s : State) (ep : Nat) (idx : Nat) : (dropConn s ep idx).mem.cells = s.mem.cells := by
  unfold dropConn; (try simp only []); (repeat' split) <;> simp_all

@[simp] theorem finishDisc_cells (s : State) (j : Nat) (idx : Nat) : (finishDisc s j idx).mem.cells = s.mem.cells := by
  unfold finishDisc; dsimp only
  split
  · rfl
  · rw [foldl_cells _ (by intros; simp), foldl_cells, dropConn_cells]
    intros; split <;> simp

@[simp] theorem slotCredit_cells (s : State) (j : Nat) (ch : Nat) (m : Slot) :
    (slotCredit s j ch m).mem.cells = s.mem.cells := by
  unfold slotCredit; simp

/-! JetThread. -/

@[simp] theorem launchedExit_cells (s : State) (c : Nat) (who : Nat) : (launchedExit s c who).mem.cells = s.mem.cells := by
  unfold launchedExit; (repeat' split) <;> simp

/-! UnitConn. -/

theorem unitConnect_cells (s : State) (ep : Nat) (jet : Nat) (ch : Nat) :
    (unitConnect s ep jet ch).2.mem.cells = s.mem.cells := by
  unfold unitConnect
  split
  · rfl
  · simp

@[simp] theorem unitOpen_cells (s : State) (ep : Nat) (jet : Nat) (ch : Nat) :
    (unitOpen s ep jet ch).mem.cells = s.mem.cells := by
  unfold unitOpen
  split
  · simp
  · exact unitConnect_cells _ _ _ _

@[simp] theorem connSend_cells (s : State) (ep : Nat) (i : Nat) (tag : Nat) (data : List Byte) :
    (connSend s ep i tag data).mem.cells = s.mem.cells := by
  unfold connSend; rfl

@[simp] theorem unitSend_cells (s : State) (ep : Nat) (jet : Nat) (ch : Nat) (tag : Nat) (data : List Byte) :
    (unitSend s ep jet ch tag data).mem.cells = s.mem.cells := by
  unfold unitSend; (repeat' split) <;> simp

@[simp] theorem unitFree_cells (s : State) (ep : Nat) (i : Nat) : (unitFree s ep i).mem.cells = s.mem.cells := by
  unfold unitFree; simp

@[simp] theorem connClose_cells (s : State) (ep : Nat) (i : Nat) : (connClose s ep i).mem.cells = s.mem.cells := by
  unfold connClose; simp

@[simp] theorem unitClose_cells (s : State) (ep : Nat) (jet : Nat) (ch : Nat) :
    (unitClose s ep jet ch).mem.cells = s.mem.cells := by
  unfold unitClose; (repeat' split) <;> simp

/-! JetEvents. -/

@[simp] theorem acked_cells (s : State) : (acked s).mem.cells = s.mem.cells := by
  unfold acked; rfl

@[simp] theorem dropMsg_cells (s : State) (k : Nat) : (dropMsg s k).mem.cells = s.mem.cells := by
  unfold dropMsg; rfl

@[simp] theorem discardMsg_cells (s : State) : (discardMsg s).mem.cells = s.mem.cells := by
  unfold discardMsg; rfl

@[simp] theorem rowPortReq_cells (s : State) (r : ConnReq) : (rowPortReq s r).mem.cells = s.mem.cells := by
  unfold rowPortReq; simp

@[simp] theorem chanterReq_cells (s : State) (r : ConnReq) : (chanterReq s r).mem.cells = s.mem.cells := by
  unfold chanterReq; simp

@[simp] theorem jetReq_cells (s : State) (r : ConnReq) : (jetReq s r).mem.cells = s.mem.cells := by
  unfold jetReq; simp

@[simp] theorem jetGrant_cells (s : State) (g : Grant) : (jetGrant s g).mem.cells = s.mem.cells := by
  unfold jetGrant; (try simp only []); (repeat' split) <;> simp_all

theorem execCreditReturn_cells (k : Nat) (s : State) : ∀ r,
    (execCreditReturn k s) = .next r → r.mem.cells = s.mem.cells := by
  intro r h; unfold execCreditReturn at h; injection h with h; subst h; (repeat' split) <;> simp

@[simp] theorem reportWait_cells (jet : Nat) (thread : Nat) (s : State) :
    (reportWait jet thread s).mem.cells = s.mem.cells := by
  unfold reportWait; (repeat' split) <;> simp

theorem execWaitStall_cells (jet : Nat) (thread : Nat) (s : State) : ∀ r,
    (execWaitStall jet thread s) = .next r → r.mem.cells = s.mem.cells := by
  intro r h; unfold execWaitStall at h; injection h with h; subst h; simp

@[simp] theorem moveToSpare_cells (s : State) (jet : Nat) : (moveToSpare s jet).mem.cells = s.mem.cells := by
  unfold moveToSpare; rfl

@[simp] theorem stopTerrace_cells (s : State) (t : Nat) : (stopTerrace s t).mem.cells = s.mem.cells := by
  unfold stopTerrace; rfl

@[simp] theorem resumeTerrace_cells (s : State) (t : Nat) : (resumeTerrace s t).mem.cells = s.mem.cells := by
  unfold resumeTerrace; simp

@[simp] theorem breakJet_cells (s : State) (jet : Nat) : (breakJet s jet).mem.cells = s.mem.cells := by
  unfold breakJet; (repeat' split) <;> simp

@[simp] theorem tryLaunch_cells (s : State) (c : Nat) (m : Cmd) : (tryLaunch s c m).mem.cells = s.mem.cells := by
  unfold tryLaunch
  dsimp -failIfUnchanged only
  split
  · rw [updCtx_cells, foldl_cells]; intro s k; exact updThread_cells _ _ _ _
  · rfl

theorem execLaunchStart_cells (ctx : Nat) (s : State) : ∀ r,
    (execLaunchStart ctx s) = .next r → r.mem.cells = s.mem.cells := by
  intro r h; unfold execLaunchStart at h; injection h with h; subst h; dsimp only; (repeat' split) <;> simp

/-! Weir. -/

@[simp] theorem poisonCtx_cells (s : State) (c : Nat) : (poisonCtx s c).mem.cells = s.mem.cells := by
  unfold poisonCtx; rfl

@[simp] theorem updRegion_cells (s : State) (n : Nat) (f : Region → Region) : (updRegion s n f).mem.cells = s.mem.cells := by
  unfold updRegion; rfl

@[simp] theorem weirReject_cells (s : State) (c : Nat) (cause : Nat) (stack : Nat) (region : Nat) (src : Nat) :
    (weirReject s c cause stack region src).mem.cells = s.mem.cells := by
  unfold weirReject; simp

@[simp] theorem weirEnd_cells (s : State) (r : WReq) : (weirEnd s r).mem.cells = s.mem.cells := by
  unfold weirEnd; (repeat' split) <;> simp

@[simp] theorem raiseLongsum_cells (s : State) (g : Region) (stack : Nat) :
    (raiseLongsum s g stack).mem.cells = s.mem.cells := by
  unfold raiseLongsum; simp

@[simp] theorem declareRegion_cells (s : State) (c : Nat) (r : List Byte) :
    (declareRegion s c r).mem.cells = s.mem.cells := by
  unfold declareRegion; simp

@[simp] theorem releaseRegion_cells (s : State) (c : Nat) (n : Nat) : (releaseRegion s c n).mem.cells = s.mem.cells := by
  unfold releaseRegion; (repeat' split) <;> simp

@[simp] theorem noteRefused_cells (s : State) (sluice : Bool) : (noteRefused s sluice).mem.cells = s.mem.cells := by
  unfold noteRefused; simp

@[simp] theorem dropNote_cells (s : State) (k : Nat) : (dropNote s k).mem.cells = s.mem.cells := by
  unfold dropNote; rfl

@[simp] theorem noteLost_cells (s : State) (k : Nat) : (noteLost s k).mem.cells = s.mem.cells := by
  unfold noteLost; (repeat' split) <;> simp

@[simp] theorem noteGrantRefused_cells (s : State) (ep : Nat) (jet : Nat) (ch : Nat) :
    (noteGrantRefused s ep jet ch).mem.cells = s.mem.cells := by
  unfold noteGrantRefused; (repeat' split) <;> simp

theorem execNotifyDelivery_cells (k : Nat) (s : State) : ∀ r,
    (execNotifyDelivery k s) = .next r → r.mem.cells = s.mem.cells := by
  intro r h; unfold execNotifyDelivery at h; injection h with h; subst h; (repeat' split) <;> simp

/-! BasinOps. -/

@[simp] theorem setBank_cells (s : State) (b : Nat) (k : Nat) (f : Bank → Bank) :
    (setBank s b k f).mem.cells = s.mem.cells := by
  unfold setBank; rfl

@[simp] theorem updItem_cells (s : State) (b : Nat) (seq : BitVec 32) (f : Item → Item) :
    (updItem s b seq f).mem.cells = s.mem.cells := by
  unfold updItem; rfl

@[simp] theorem updRun_cells (s : State) (b : Nat) (seq : BitVec 32) (f : PassRun → PassRun) :
    (updRun s b seq f).mem.cells = s.mem.cells := by
  unfold updRun; rfl

@[simp] theorem openConns_cells (s : State) (b : Nat) (a2 : List (Nat × Nat)) :
    (openConns s b a2).2.mem.cells = s.mem.cells := by
  induction a2 generalizing s with
  | nil => rfl
  | cons x l ih =>
    unfold openConns
    exact (ih _).trans (unitConnect_cells _ _ _ _)

@[simp] theorem closeConns_cells (s : State) (b : Nat) (cs : List (Nat × Nat × Nat)) :
    (closeConns s b cs).mem.cells = s.mem.cells := by
  unfold closeConns; simp

@[simp] theorem reportHalt_cells (s : State) (b : Nat) (seq : BitVec 32) (st : ItemStatus) :
    (reportHalt s b seq st).mem.cells = s.mem.cells := by
  unfold reportHalt; simp

@[simp] theorem haltQueue_cells (s : State) (b : Nat) : (haltQueue s b).mem.cells = s.mem.cells := by
  unfold haltQueue; (repeat' split) <;> simp

@[simp] theorem itemOut_cells (s : State) (b : Nat) (seq : BitVec 32) (comp : Bool) (ctr : Nat) :
    (itemOut s b seq comp ctr).mem.cells = s.mem.cells := by
  unfold itemOut; rfl

@[simp] theorem itemDone_cells (s : State) (b : Nat) (seq : BitVec 32) (comp : Bool) (ctr : Nat) :
    (itemDone s b seq comp ctr).mem.cells = s.mem.cells := by
  unfold itemDone; simp

@[simp] theorem dropRuns_cells (s : State) (b : Nat) (gone : BitVec 32 → Bool) :
    (dropRuns s b gone).mem.cells = s.mem.cells := by
  unfold dropRuns; simp

@[simp] theorem itemFail_cells (s : State) (b : Nat) (seq : BitVec 32) (st : ItemStatus) :
    (itemFail s b seq st).mem.cells = s.mem.cells := by
  unfold itemFail; simp

/-! BasinCheck. -/

theorem execBasinItemCheck_cells (b : Nat) (s : State) : ∀ r,
    (execBasinItemCheck b s) = .next r → r.mem.cells = s.mem.cells := by
  intro r h; unfold execBasinItemCheck at h; injection h with h; subst h; dsimp only; (repeat' split) <;> simp

/-! Bellows. -/

@[simp] theorem updPower_cells (s : State) (f : Power → Power) : (updPower s f).mem.cells = s.mem.cells := by
  unfold updPower; rfl

@[simp] theorem setCtl_cells (s : State) (i : Nat) (c : Ctl) : (setCtl s i c).mem.cells = s.mem.cells := by
  unfold setCtl; rfl

@[simp] theorem ctlUpdate_cells (s : State) (i : Nat) (e : Estimate) : (ctlUpdate s i e).mem.cells = s.mem.cells := by
  unfold ctlUpdate; simp

@[simp] theorem noteReason_cells (s : State) (n : Nat) : (noteReason s n).mem.cells = s.mem.cells := by
  unfold noteReason; (repeat' split) <;> simp

@[simp] theorem settle_cells (s : State) : (settle s).mem.cells = s.mem.cells := by
  unfold settle; simp

/-! SpoutOps. -/

@[simp] theorem updDrain_cells (s : State) (b : Nat) (seq : BitVec 32) (f : PassDrain → PassDrain) :
    (updDrain s b seq f).mem.cells = s.mem.cells := by
  unfold updDrain; rfl

@[simp] theorem spoutPoison_cells (s : State) (b : Nat) (c : Nat) : (spoutPoison s b c).mem.cells = s.mem.cells := by
  unfold spoutPoison; simp

@[simp] theorem countClasses_cells (s : State) (b : Nat) (c : Nat) (exempt : Bool) (cs : List (Option Cls)) :
    (countClasses s b c exempt cs).mem.cells = s.mem.cells := by
  unfold countClasses; simp

@[simp] theorem updGroup_cells (s : State) (b : Nat) (i : Nat) (f : ColGroup → ColGroup) :
    (updGroup s b i f).mem.cells = s.mem.cells := by
  unfold updGroup; rfl

@[simp] theorem phase1_cells (s : State) (b : Nat) (i : Nat) (d : PassDrain) (r : Nat) (row : List SVal) :
    (phase1 s b i d r row).mem.cells = s.mem.cells := by
  unfold phase1; rfl

/-! BasinRun. -/

theorem execLoadItem_cells (b : Nat) (s : State) : ∀ r, (execLoadItem b s) = .next r → r.mem.cells = s.mem.cells := by
  intro r h; unfold execLoadItem at h; injection h with h; subst h; dsimp only; (repeat' split) <;> simp

@[simp] theorem loadFail_cells (s : State) (b : Nat) (seq : BitVec 32) (st : ItemStatus) :
    (loadFail s b seq st).mem.cells = s.mem.cells := by
  unfold loadFail; simp

@[simp] theorem noteScope_cells (s : State) (c : Nat) (prof : List Byte) : (noteScope s c prof).mem.cells = s.mem.cells := by
  unfold noteScope; simp

@[simp] theorem joinGroup_cells (s : State) (b : Nat) (seq : BitVec 32) (raw : List Byte) (prof : List Byte) :
    (joinGroup s b seq raw prof).mem.cells = s.mem.cells := by
  unfold joinGroup; simp

@[simp] theorem startPass_cells (s : State) (b : Nat) (c : Nat) (i : Item) (prof : List Byte) (route : List Byte) (r
    : List Byte) (sa : Int) (sb : Int) : (startPass s b c i prof route r sa sb).mem.cells = s.mem.cells := by
  unfold startPass; simp

@[simp] theorem sendNote_cells (s : State) (b : Nat) (i : Nat) (flit : List Byte) :
    (sendNote s b i flit).mem.cells = s.mem.cells := by
  unfold sendNote; rfl

@[simp] theorem signalNote_cells (s : State) (b : Nat) (jet : Nat) (ch : Nat) (flit : List Byte) :
    (signalNote s b jet ch flit).mem.cells = s.mem.cells := by
  unfold signalNote
  split
  · have h := unitConnect_cells s (spoutEp b) jet ch
    split <;> rename_i e <;> rw [e] at h
    · exact (sendNote_cells _ _ _ _).trans h
    · exact h
  · simp

theorem execSignalMark_cells (b : Nat) (s : State) : ∀ r, (execSignalMark b s) = .next r → r.mem.cells = s.mem.cells := by
  intro r h; unfold execSignalMark at h; injection h with h; subst h; (repeat' split) <;> simp

theorem execWaitMark_cells (b : Nat) (s : State) : ∀ r, (execWaitMark b s) = .next r → r.mem.cells = s.mem.cells := by
  intro r h; unfold execWaitMark at h; injection h with h; subst h; dsimp only; (repeat' split) <;> simp

theorem execExchange_cells (b : Nat) (s : State) : ∀ r, (execExchange b s) = .next r → r.mem.cells = s.mem.cells := by
  intro r h; unfold execExchange at h; injection h with h; subst h; dsimp only; (repeat' split) <;> simp

theorem execRowSegmentArrival_cells (k : Nat) (s : State) : ∀ r,
    (execRowSegmentArrival k s) = .next r → r.mem.cells = s.mem.cells := by
  intro r h; unfold execRowSegmentArrival at h; injection h with h; subst h; (repeat' split) <;> simp

@[simp] theorem takeSegment_cells (s : State) (k : Nat) (j : Nat) : (takeSegment s k j).mem.cells = s.mem.cells := by
  unfold takeSegment; (repeat' split) <;> simp

theorem segmentFor_cells (s : State) (b : Nat) (p : PassRun) (slots : Nat) : ∀ r,
    (segmentFor s b p slots) = some r → r.mem.cells = s.mem.cells := by
  intro r h; unfold segmentFor at h; dsimp only at h
  (repeat' split at h) <;> cases h <;> simp

@[simp] theorem enterRows_cells (s : State) (b : Nat) (p : PassRun) (units : Nat) (rows : Nat) (rs : List ArrRow) :
    (enterRows s b p units rows rs).mem.cells = s.mem.cells := by
  unfold enterRows; rfl

@[simp] theorem passBubbles_cells (s : State) (b : Nat) : (passBubbles s b).mem.cells = s.mem.cells := by
  unfold passBubbles; rfl

theorem execFeedStall_cells (b : Nat) (s : State) : ∀ r, (execFeedStall b s) = .next r → r.mem.cells = s.mem.cells := by
  intro r h; unfold execFeedStall at h; injection h with h; subst h; (repeat' split) <;> simp

/-! BasinRows. -/

theorem execTokenExit_cells (b : Nat) (s : State) : ∀ r, (execTokenExit b s) = .next r → r.mem.cells = s.mem.cells := by
  intro r h; unfold execTokenExit at h; injection h with h; subst h; simp

@[simp] theorem noteLongsum_cells (s : State) (b : Nat) (seq : BitVec 32) :
    (noteLongsum s b seq).mem.cells = s.mem.cells := by
  unfold noteLongsum; (try simp only []); (repeat' split) <;> simp_all

@[simp] theorem countLongsum_cells (s : State) (b : Nat) (n : Nat) : (countLongsum s b n).mem.cells = s.mem.cells := by
  unfold countLongsum; simp

@[simp] theorem replayStepDone_cells (s : State) (b : Nat) (seq : BitVec 32) :
    (replayStepDone s b seq).mem.cells = s.mem.cells := by
  unfold replayStepDone; simp

@[simp] theorem dropSides_cells (s : State) (b : Nat) (rows : List ArrRow) :
    (dropSides s b rows).mem.cells = s.mem.cells := by
  unfold dropSides; rfl

@[simp] theorem discardRows_cells (s : State) (b : Nat) : (discardRows s b).mem.cells = s.mem.cells := by
  unfold discardRows; rfl

theorem execDrain_cells (b : Nat) (s : State) : ∀ r, (execDrain b s) = .next r → r.mem.cells = s.mem.cells := by
  intro r h; unfold execDrain at h; injection h with h; subst h; dsimp only; (repeat' split) <;> simp

theorem execDrainComplete_cells (b : Nat) (s : State) : ∀ r,
    (execDrainComplete b s) = .next r → r.mem.cells = s.mem.cells := by
  intro r h; unfold execDrainComplete at h; injection h with h; subst h; (repeat' split) <;> simp

@[simp] theorem sourceChanged_cells (s : State) (b : Nat) (k : Nat) : (sourceChanged s b k).mem.cells = s.mem.cells := by
  unfold sourceChanged; (try simp only []); (repeat' split) <;> simp_all

/-! Spout. -/

theorem execRowStoreAcquire_cells (b : Nat) (s : State) : ∀ r,
    (execRowStoreAcquire b s) = .next r → r.mem.cells = s.mem.cells := by
  intro r h; unfold execRowStoreAcquire at h; injection h with h; subst h; dsimp only; (repeat' split) <;> simp

@[simp] theorem unitGone_cells (s : State) (b : Nat) (k : Nat) (u : DUnit) : (unitGone s b k u).mem.cells = s.mem.cells := by
  unfold unitGone; simp

@[simp] theorem sendPiece_cells (s : State) (b : Nat) (k : Nat) (u : DUnit) (n : Nat) :
    (sendPiece s b k u n).mem.cells = s.mem.cells := by
  unfold sendPiece; (repeat' split) <;> simp

@[simp] theorem sendNotice_cells (s : State) (b : Nat) (k : Nat) : (sendNotice s b k).mem.cells = s.mem.cells := by
  unfold sendNotice; (repeat' split) <;> simp

@[simp] theorem spoutRefused_cells (s : State) (b : Nat) (i : Nat) : (spoutRefused s b i).mem.cells = s.mem.cells := by
  unfold spoutRefused; (try simp only []); (repeat' split) <;> simp_all

@[simp] theorem unitGrant_cells (s : State) (g : Grant) : (unitGrant s g).mem.cells = s.mem.cells := by
  unfold unitGrant; simp

theorem execConnectionGrant_cells (k : Nat) (s : State) : ∀ r,
    (execConnectionGrant k s) = .next r → r.mem.cells = s.mem.cells := by
  intro r h; unfold execConnectionGrant at h; injection h with h; subst h; (repeat' split) <;> simp

@[simp] theorem applyHeld_cells (route : Bool) (b : Nat) (k : Nat) (s : State) :
    (applyHeld route b k s).mem.cells = s.mem.cells := by
  unfold applyHeld; (repeat' split) <;> simp

theorem execProfileApplied_cells (b : Nat) (k : Nat) (s : State) : ∀ r,
    (execProfileApplied b k s) = .next r → r.mem.cells = s.mem.cells := by
  intro r h; unfold execProfileApplied at h; injection h with h; subst h; simp

theorem execRouteApplied_cells (b : Nat) (k : Nat) (s : State) : ∀ r,
    (execRouteApplied b k s) = .next r → r.mem.cells = s.mem.cells := by
  intro r h; unfold execRouteApplied at h; injection h with h; subst h; simp

/-! Contexts. -/

@[simp] theorem putBasin_cells (c : Nat) (s : State) (e : Nat × Basin) : (putBasin c s e).mem.cells = s.mem.cells := by
  unfold putBasin; rfl

@[simp] theorem stopBasin_cells (s : State) (b : Nat) : (stopBasin s b).mem.cells = s.mem.cells := by
  unfold stopBasin; rfl

theorem execBasinPreempt_cells (b : Nat) (s : State) : ∀ r,
    (execBasinPreempt b s) = .next r → r.mem.cells = s.mem.cells := by
  intro r h; unfold execBasinPreempt at h; injection h with h; subst h; dsimp only; (repeat' split) <;> simp

theorem execBasinResume_cells (b : Nat) (s : State) : ∀ r, (execBasinResume b s) = .next r → r.mem.cells = s.mem.cells := by
  intro r h; unfold execBasinResume at h; injection h with h; subst h; dsimp only; (repeat' split) <;> simp

@[simp] theorem yielded_cells (s : State) (c : Nat) : (yielded s c).mem.cells = s.mem.cells := by
  unfold yielded; simp

theorem execQuantumExpiry_cells (ctx : Nat) (s : State) : ∀ r,
    (execQuantumExpiry ctx s) = .next r → r.mem.cells = s.mem.cells := by
  intro r h; unfold execQuantumExpiry at h; injection h with h; subst h; simp

/-! PowerRows. -/

@[simp] theorem bellows_cells (s : State) (f : State → State) (h : ∀ s, (f s).mem.cells = s.mem.cells) :
    (bellows s f).mem.cells = s.mem.cells := by
  unfold bellows; split <;> simp [h]

@[simp] theorem releaseZone_cells (s : State) (n : Nat) : (releaseZone s n).mem.cells = s.mem.cells := by
  unfold releaseZone; simp

@[simp] theorem governorCounts_cells (s : State) : (governorCounts s).mem.cells = s.mem.cells := by
  unfold governorCounts; rfl

theorem execBellowsUpdate_cells (est : List Estimate) (s : State) : ∀ r,
    (execBellowsUpdate est s) = .next r → r.mem.cells = s.mem.cells := by
  intro r h; unfold execBellowsUpdate at h; injection h with h; subst h; simp

theorem execCurrentSample_cells (amps : List Nat) (watts : Nat) (s : State) : ∀ r,
    (execCurrentSample amps watts s) = .next r → r.mem.cells = s.mem.cells := by
  intro r h; unfold execCurrentSample at h; injection h with h; subst h; simp

theorem execCurrentTrip_cells (rail : Nat) (s : State) : ∀ r,
    (execCurrentTrip rail s) = .next r → r.mem.cells = s.mem.cells := by
  intro r h; unfold execCurrentTrip at h; injection h with h; subst h; simp

theorem execCapGovernorLower_cells (s : State) : ∀ r, (execCapGovernorLower s) = .next r → r.mem.cells = s.mem.cells := by
  intro r h; unfold execCapGovernorLower at h; injection h with h; subst h; simp

theorem execCapGovernorRaise_cells (s : State) : ∀ r, (execCapGovernorRaise s) = .next r → r.mem.cells = s.mem.cells := by
  intro r h; unfold execCapGovernorRaise at h; injection h with h; subst h; simp

theorem execCalibration_cells (fit : List Int) (s : State) : ∀ r,
    (execCalibration fit s) = .next r → r.mem.cells = s.mem.cells := by
  intro r h; unfold execCalibration at h; injection h with h; subst h; simp

@[simp] theorem compareRail_cells (s : State) (r : Nat) (e : Nat) (m : Nat) :
    (compareRail s r e m).mem.cells = s.mem.cells := by
  unfold compareRail; simp

theorem execCalCompare_cells (est : List Nat) (meas : List Nat) (s : State) : ∀ r,
    (execCalCompare est meas s) = .next r → r.mem.cells = s.mem.cells := by
  intro r h; unfold execCalCompare at h; injection h with h; subst h; simp

theorem execOpChange_cells (s : State) : ∀ r, (execOpChange s) = .next r → r.mem.cells = s.mem.cells := by
  intro r h; unfold execOpChange at h; injection h with h; subst h; simp

theorem execRampComplete_cells (s : State) : ∀ r, (execRampComplete s) = .next r → r.mem.cells = s.mem.cells := by
  intro r h; unfold execRampComplete at h; injection h with h; subst h; simp

@[simp] theorem writeCap_cells (s : State) (w : Nat) : (writeCap s w).mem.cells = s.mem.cells := by
  unfold writeCap; simp

theorem execPwrCap_cells (port : Nat) (value : Nat) (s : State) : ∀ r,
    (execPwrCap port value s) = .next r → r.mem.cells = s.mem.cells := by
  intro r h; unfold execPwrCap at h; injection h with h; subst h; simp

theorem execPldmEffecterWrite_cells (value : Nat) (s : State) : ∀ r,
    (execPldmEffecterWrite value s) = .next r → r.mem.cells = s.mem.cells := by
  intro r h; unfold execPldmEffecterWrite at h; injection h with h; subst h; simp

@[simp] theorem updZone_cells (s : State) (n : Nat) (f : Region14 → Region14) : (updZone s n f).mem.cells = s.mem.cells := by
  unfold updZone; rfl

theorem execDroopEnter_cells (region : Nat) (s : State) : ∀ r,
    (execDroopEnter region s) = .next r → r.mem.cells = s.mem.cells := by
  intro r h; unfold execDroopEnter at h; injection h with h; subst h; simp

theorem execDroopEnd_cells (region : Nat) (ns : Nat) (s : State) : ∀ r,
    (execDroopEnd region ns s) = .next r → r.mem.cells = s.mem.cells := by
  intro r h; unfold execDroopEnd at h; injection h with h; subst h; simp

theorem execDroopRelease_cells (region : Nat) (s : State) : ∀ r,
    (execDroopRelease region s) = .next r → r.mem.cells = s.mem.cells := by
  intro r h; unfold execDroopRelease at h; injection h with h; subst h; simp

@[simp] theorem groupUpdate_cells (s : State) (g : Nat) (junction : Int) :
    (groupUpdate s g junction).mem.cells = s.mem.cells := by
  unfold groupUpdate; rfl

theorem execThermalUpdate_cells (junctions : List Int) (s : State) : ∀ r,
    (execThermalUpdate junctions s) = .next r → r.mem.cells = s.mem.cells := by
  intro r h; unfold execThermalUpdate at h; injection h with h; subst h; simp

theorem execThermalOpLimit_cells (s : State) : ∀ r, (execThermalOpLimit s) = .next r → r.mem.cells = s.mem.cells := by
  intro r h; unfold execThermalOpLimit at h; injection h with h; subst h; simp

theorem execThermalTrip_cells (stack : Bool) (unit : Nat) (temp : Int) (s : State) : ∀ r,
    (execThermalTrip stack unit temp s) = .next r → r.mem.cells = s.mem.cells := by
  intro r h; unfold execThermalTrip at h; injection h with h; subst h; simp

@[simp] theorem assertBrake_cells (s : State) (high : Bool) : (assertBrake s high).mem.cells = s.mem.cells := by
  unfold assertBrake; rfl

@[simp] theorem endBrake_cells (s : State) : (endBrake s).mem.cells = s.mem.cells := by
  unfold endBrake; simp

theorem execBrakeFall_cells (s : State) : ∀ r, (execBrakeFall s) = .next r → r.mem.cells = s.mem.cells := by
  intro r h; unfold execBrakeFall at h; injection h with h; subst h; simp

theorem execBrakeQualified_cells (s : State) : ∀ r, (execBrakeQualified s) = .next r → r.mem.cells = s.mem.cells := by
  intro r h; unfold execBrakeQualified at h; injection h with h; subst h; simp

theorem execBrakeRise_cells (ns : Nat) (s : State) : ∀ r, (execBrakeRise ns s) = .next r → r.mem.cells = s.mem.cells := by
  intro r h; unfold execBrakeRise at h; injection h with h; subst h; simp

theorem execBrakeRelease_cells (s : State) : ∀ r, (execBrakeRelease s) = .next r → r.mem.cells = s.mem.cells := by
  intro r h; unfold execBrakeRelease at h; injection h with h; subst h; simp

theorem execBrakeHeld_cells (s : State) : ∀ r, (execBrakeHeld s) = .next r → r.mem.cells = s.mem.cells := by
  intro r h; unfold execBrakeHeld at h; injection h with h; subst h; simp

@[simp] theorem addEnergy_cells (s : State) (c : Nat) (n : Nat) : (addEnergy s c n).mem.cells = s.mem.cells := by
  unfold addEnergy; rfl

@[simp] theorem addPlatform_cells (s : State) (n : Nat) : (addPlatform s n).mem.cells = s.mem.cells := by
  unfold addPlatform; rfl

@[simp] theorem leasedEnergy_cells (s : State) (l : Option Nat) (n : Nat) :
    (leasedEnergy s l n).mem.cells = s.mem.cells := by
  unfold leasedEnergy; (repeat' split) <;> simp

@[simp] theorem sharedEnergy_cells (s : State) (e : Nat) (ws : List (Nat × Nat)) :
    (sharedEnergy s e ws).mem.cells = s.mem.cells := by
  unfold sharedEnergy; simp

@[simp] theorem unitEnergy_cells (s : State) (x : EnergyOf) : (unitEnergy s x).mem.cells = s.mem.cells := by
  unfold unitEnergy; (repeat' split) <;> simp

theorem execEnergyAttribution_cells (energies : List EnergyOf) (s : State) : ∀ r,
    (execEnergyAttribution energies s) = .next r → r.mem.cells = s.mem.cells := by
  intro r h; unfold execEnergyAttribution at h; injection h with h; subst h; simp

/-! RingOps. -/

@[simp] theorem updCmd_cells (s : State) (c : Nat) (slot : Nat) (f : Cmd → Cmd) :
    (updCmd s c slot f).mem.cells = s.mem.cells := by
  unfold updCmd; rfl

@[simp] theorem startCmd_cells (s : State) (c : Nat) (slot : Nat) : (startCmd s c slot).mem.cells = s.mem.cells := by
  unfold startCmd; rfl

@[simp] theorem withCmd_cells (s : State) (c op : Nat) (k : State → Cmd → State)
    (h : ∀ s m, (k s m).mem.cells = s.mem.cells) : (withCmd s c op k).mem.cells = s.mem.cells := by
  unfold withCmd; (repeat' split) <;> simp [h]

@[simp] theorem hifErr_cells (s : State) (c : Nat) (bit : Nat) : (hifErr s c bit).mem.cells = s.mem.cells := by
  unfold hifErr; rfl

@[simp] theorem commandBad_cells (s : State) (c : Nat) (slot : Nat) : (commandBad s c slot).mem.cells = s.mem.cells := by
  unfold commandBad; simp

@[simp] theorem hostFault_cells (s : State) (c : Nat) : (hostFault s c).mem.cells = s.mem.cells := by
  unfold hostFault; simp

@[simp] theorem withSluiceCmd_cells (s : State) (c op : Nat) (k : State → Cmd → State)
    (h : ∀ s m, (k s m).mem.cells = s.mem.cells) : (withSluiceCmd s c op k).mem.cells = s.mem.cells := by
  unfold withSluiceCmd; (repeat' split) <;> simp [h]

@[simp] theorem hostWrite_cells (s : State) (c : Nat) (addr : Nat) (data : List Byte) :
    (hostWrite s c addr data).mem.cells = s.mem.cells := by
  unfold hostWrite; simp

/-! SluiceOps. -/

@[simp] theorem setBlock_cells (s : State) (c : Nat) (n : Nat) (b : Option Block) :
    (setBlock s c n b).mem.cells = s.mem.cells := by
  unfold setBlock; rfl

@[simp] theorem setRoot_cells (s : State) (c : Nat) (n : Nat) (right : Bool) (r : Option Root) :
    (setRoot s c n right r).mem.cells = s.mem.cells := by
  unfold setRoot; rfl

@[simp] theorem countOvf_cells (s : State) (n : Nat) : (countOvf s n).mem.cells = s.mem.cells := by
  unfold countOvf; simp

@[simp] theorem sluiceNote_cells (s : State) (c : Nat) (n : Nat) (d : List Byte) (kind : Nat) (step : Nat) :
    (sluiceNote s c n d kind step).mem.cells = s.mem.cells := by
  unfold sluiceNote; simp

@[simp] theorem rootFailed_cells (s : State) (c : Nat) (n : Nat) (right : Bool) :
    (rootFailed s c n right).mem.cells = s.mem.cells := by
  unfold rootFailed; rfl

@[simp] theorem touchBlock_cells (s : State) (c : Nat) (n : Nat) : (touchBlock s c n).mem.cells = s.mem.cells := by
  unfold touchBlock; (repeat' split) <;> simp

@[simp] theorem rootResult_cells (s : State) (c : Nat) (n : Nat) (right : Bool) (r : Option Root × Nat) :
    (rootResult s c n right r).mem.cells = s.mem.cells := by
  unfold rootResult; (repeat' split) <;> simp

@[simp] theorem startRoot_cells (s : State) (c : Nat) (n : Nat) (d : List Byte) (right : Bool) :
    (startRoot s c n d right).mem.cells = s.mem.cells := by
  unfold startRoot; simp

@[simp] theorem rescan_cells (s : State) (c : Nat) (n : Nat) : (rescan s c n).mem.cells = s.mem.cells := by
  unfold rescan; (repeat' split) <;> simp

@[simp] theorem slcErr_cells (s : State) (bit : Nat) : (slcErr s bit).mem.cells = s.mem.cells := by
  unfold slcErr; rfl

/-! Regs. -/

@[simp] theorem writeField_cells (s : State) (x : Nat) (v : Nat) (f : Field) :
    (writeField s x v f).mem.cells = s.mem.cells := by
  unfold writeField; simp

@[simp] theorem plainWrite_cells (s : State) (x : Nat) (v : Nat) : (plainWrite s x v).mem.cells = s.mem.cells := by
  unfold plainWrite; simp

@[simp] theorem readLow_cells (s : State) (req : Nat) (x : Nat) (v : Nat) :
    (readLow s req x v).2.mem.cells = s.mem.cells := by
  unfold readLow; rfl

@[simp] theorem readHigh_cells (s : State) (req : Nat) (x : Nat) (v : Nat) :
    (readHigh s req x v).2.mem.cells = s.mem.cells := by
  unfold readHigh; (repeat' split) <;> simp

@[simp] theorem readCtl_cells (s : State) (req : Nat) (x : Nat) : (readCtl s req x).2.mem.cells = s.mem.cells := by
  unfold readCtl; (repeat' split) <;> simp

@[simp] theorem readPage_cells (s : State) (req : Nat) (c : Nat) (o : Nat) (a : Nat) :
    (readPage s req c o a).2.mem.cells = s.mem.cells := by
  unfold readPage; (try simp only []); (repeat' split) <;> simp_all

@[simp] theorem readWord_cells (s : State) (port : Nat) (a : Nat) : (readWord s port a).2.mem.cells = s.mem.cells := by
  unfold readWord; (try simp only []); (repeat' split) <;> simp_all

@[simp] theorem readAccess_cells (s : State) (port : Nat) (a : Nat) (size : Nat) :
    (readAccess s port a size).2.mem.cells = s.mem.cells := by
  unfold readAccess; (repeat' split) <;> simp

/-! Image. -/

@[simp] theorem latchSlot_cells (s : State) (code : Nat) : (latchSlot s code).mem.cells = s.mem.cells := by
  unfold latchSlot; rfl

@[simp] theorem ctlWrite_cells (s : State) (x : Nat) (v : Nat) : (ctlWrite s x v).mem.cells = s.mem.cells := by
  unfold ctlWrite; simp

@[simp] theorem applyPair_cells (s : State) (p : Nat × Nat) : (applyPair s p).mem.cells = s.mem.cells := by
  unfold applyPair; simp

@[simp] theorem applyPairs_cells (s : State) (ps : List (Nat × Nat)) : (applyPairs s ps).mem.cells = s.mem.cells := by
  unfold applyPairs; simp

/-! Spdm. -/

@[simp] theorem spdmSend_cells (s : State) (v : Nat) (d : List Byte) : (spdmSend s v d).mem.cells = s.mem.cells := by
  unfold spdmSend; simp

@[simp] theorem updBoot_cells (s : State) (f : Boot → Boot) : (updBoot s f).mem.cells = s.mem.cells := by
  unfold updBoot; rfl

@[simp] theorem spdmNote_cells (s : State) (d : List Byte) : (spdmNote s d).mem.cells = s.mem.cells := by
  unfold spdmNote; rfl

@[simp] theorem inVersion_cells (s : State) (req : List Byte) (k : State → State)
    (h : ∀ s, (k s).mem.cells = s.mem.cells) : (inVersion s req k).mem.cells = s.mem.cells := by
  unfold inVersion; dsimp only; (repeat' split) <;> simp [h]

@[simp] theorem exchange_cells (s : State) (req : List Byte) (resp : List Byte) :
    (exchange s req resp).mem.cells = s.mem.cells := by
  unfold exchange; simp

@[simp] theorem spdmAnswer_cells (s : State) (req : List Byte) : (spdmAnswer s req).mem.cells = s.mem.cells := by
  unfold spdmAnswer; dsimp only; (repeat' split) <;> first | exact inVersion_cells _ _ _ fun _ => rfl | simp

@[simp] theorem spdmRequest_cells (s : State) (req : List Byte) : (spdmRequest s req).mem.cells = s.mem.cells := by
  unfold spdmRequest; simp

@[simp] theorem spdmRelease_cells (s : State) : (spdmRelease s).mem.cells = s.mem.cells := by
  unfold spdmRelease; simp

@[simp] theorem ofCode_cells (code : Nat) (req : List Byte) (s : State) : (ofCode code req s).mem.cells = s.mem.cells := by
  unfold ofCode; simp

theorem execGetVersion_cells (req : List Byte) (s : State) : ∀ r,
    (execGetVersion req s) = .next r → r.mem.cells = s.mem.cells := by
  intro r h; unfold execGetVersion at h; injection h with h; subst h; simp

theorem execGetCapabilities_cells (req : List Byte) (s : State) : ∀ r,
    (execGetCapabilities req s) = .next r → r.mem.cells = s.mem.cells := by
  intro r h; unfold execGetCapabilities at h; injection h with h; subst h; simp

theorem execNegotiateAlgorithms_cells (req : List Byte) (s : State) : ∀ r,
    (execNegotiateAlgorithms req s) = .next r → r.mem.cells = s.mem.cells := by
  intro r h; unfold execNegotiateAlgorithms at h; injection h with h; subst h; simp

theorem execGetDigests_cells (req : List Byte) (s : State) : ∀ r,
    (execGetDigests req s) = .next r → r.mem.cells = s.mem.cells := by
  intro r h; unfold execGetDigests at h; injection h with h; subst h; simp

theorem execGetCertificate_cells (req : List Byte) (s : State) : ∀ r,
    (execGetCertificate req s) = .next r → r.mem.cells = s.mem.cells := by
  intro r h; unfold execGetCertificate at h; injection h with h; subst h; simp

theorem execChunkGet_cells (req : List Byte) (s : State) : ∀ r,
    (execChunkGet req s) = .next r → r.mem.cells = s.mem.cells := by
  intro r h; unfold execChunkGet at h; injection h with h; subst h; simp

theorem execChallenge_cells (req : List Byte) (s : State) : ∀ r,
    (execChallenge req s) = .next r → r.mem.cells = s.mem.cells := by
  intro r h; unfold execChallenge at h; injection h with h; subst h; simp

theorem execGetMeasurements_cells (req : List Byte) (s : State) : ∀ r,
    (execGetMeasurements req s) = .next r → r.mem.cells = s.mem.cells := by
  intro r h; unfold execGetMeasurements at h; injection h with h; subst h; simp

theorem execSpdmUnsupported_cells (req : List Byte) (s : State) : ∀ r,
    (execSpdmUnsupported req s) = .next r → r.mem.cells = s.mem.cells := by
  intro r h; unfold execSpdmUnsupported at h; injection h with h; subst h; simp

/-! Boot. -/

theorem execInputInRange_cells (s : State) : ∀ r, (execInputInRange s) = .next r → r.mem.cells = s.mem.cells := by
  intro r h; unfold execInputInRange at h; injection h with h; subst h; rfl

@[simp] theorem setCode_cells (s : State) (k : Nat) (code : Nat) : (setCode s k code).mem.cells = s.mem.cells := by
  unfold setCode; rfl

@[simp] theorem failSlot_cells (s : State) (k : Nat) (code : Nat) : (failSlot s k code).mem.cells = s.mem.cells := by
  unfold failSlot; rfl

@[simp] theorem bootDone_cells (s : State) (failed : Bool) : (bootDone s failed).mem.cells = s.mem.cells := by
  unfold bootDone; rfl

@[simp] theorem toFailed_cells (s : State) : (toFailed s).mem.cells = s.mem.cells := by
  unfold toFailed; simp

@[simp] theorem booted_cells (s : State) (k : Nat) (fallback : Bool) (a : Applied) :
    (booted s k fallback a).mem.cells = s.mem.cells := by
  unfold booted; rfl

@[simp] theorem bootSlots_cells (s : State) : (bootSlots s).mem.cells = s.mem.cells := by
  unfold bootSlots; simp

@[simp] theorem romStep_cells (s : State) : (romStep s).mem.cells = s.mem.cells := by
  unfold romStep; rfl

theorem execInternalResetRelease_cells (s : State) : ∀ r,
    (execInternalResetRelease s) = .next r → r.mem.cells = s.mem.cells := by
  intro r h; unfold execInternalResetRelease at h; injection h with h; subst h; simp

theorem execHbmTrain_cells (stack : Nat) (s : State) : ∀ r,
    (execHbmTrain stack s) = .next r → r.mem.cells = s.mem.cells := by
  intro r h; unfold execHbmTrain at h; injection h with h; subst h; simp

@[simp] theorem createPorts_cells (s : State) (d : List Byte) : (createPorts s d).mem.cells = s.mem.cells := by
  unfold createPorts; refine foldl_cells _ ?_ _ _; exact fun _ _ => rfl

@[simp] theorem applyChassis_cells (s : State) (d : List Byte) : (applyChassis s d).mem.cells = s.mem.cells := by
  unfold applyChassis; rfl

@[simp] theorem applyPlan_cells (s : State) (a : Applied) : (applyPlan s a).mem.cells = s.mem.cells := by
  unfold applyPlan; simp

@[simp] theorem enablePort_cells (s : State) (p : Nat) : (enablePort s p).mem.cells = s.mem.cells := by
  unfold enablePort; simp

@[simp] theorem enablePorts_cells (s : State) : (enablePorts s).mem.cells = s.mem.cells := by
  unfold enablePorts; simp

@[simp] theorem lockBrake_cells (s : State) : (lockBrake s).mem.cells = s.mem.cells := by
  unfold lockBrake; simp

@[simp] theorem lockStraps_cells (s : State) : (lockStraps s).mem.cells = s.mem.cells := by
  unfold lockStraps; simp

theorem execOvlSelChange_cells (level : Nat) (s : State) : ∀ r,
    (execOvlSelChange level s) = .next r → r.mem.cells = s.mem.cells := by
  intro r h; unfold execOvlSelChange at h; injection h with h; subst h; simp

theorem execLinkUp_cells (port : Nat) (width : Nat) (speed : Nat) (flit : Bool) (s : State) : ∀ r,
    (execLinkUp port width speed flit s) = .next r → r.mem.cells = s.mem.cells := by
  intro r h; unfold execLinkUp at h; injection h with h; subst h; simp

@[simp] theorem updRefuse_cells (s : State) : (updRefuse s).mem.cells = s.mem.cells := by
  unfold updRefuse; rfl

@[simp] theorem ofUpdate_cells (s : State) (path : Bool) (k : State → State)
    (h : ∀ s, (k s).mem.cells = s.mem.cells) : (ofUpdate s path k).mem.cells = s.mem.cells := by
  unfold ofUpdate; (repeat' split) <;> simp [h]

@[simp] theorem programNor_cells (s : State) (a : Nat) (d : List Byte) : (programNor s a d).mem.cells = s.mem.cells := by
  unfold programNor; rfl

@[simp] theorem eraseNor_cells (s : State) (a : Nat) (n : Nat) : (eraseNor s a n).mem.cells = s.mem.cells := by
  unfold eraseNor; rfl

@[simp] theorem beginUpdate_cells (s : State) (path : Bool) (slot : Nat) :
    (beginUpdate s path slot).mem.cells = s.mem.cells := by
  unfold beginUpdate; simp

@[simp] theorem writeBlock_cells (block : Nat) (data : List Byte) (s : State) :
    (writeBlock block data s).mem.cells = s.mem.cells := by
  unfold writeBlock
  cases blockInSlot s block
  · exact updRefuse_cells s
  · exact programNor_cells _ _ _

@[simp] theorem writeUpdate_cells (s : State) (path : Bool) (block : Nat) (data : List Byte) :
    (writeUpdate s path block data).mem.cells = s.mem.cells := by
  exact ofUpdate_cells s path _ (writeBlock_cells block data)

@[simp] theorem finishUpdate_cells (s : State) (path : Bool) : (finishUpdate s path).mem.cells = s.mem.cells := by
  unfold finishUpdate; simp

@[simp] theorem abortUpdate_cells (s : State) (path : Bool) : (abortUpdate s path).mem.cells = s.mem.cells := by
  unfold abortUpdate; simp

@[simp] theorem svnCommit_cells (s : State) (path : Bool) (fuses : Nat) :
    (svnCommit s path fuses).mem.cells = s.mem.cells := by
  unfold svnCommit; simp

theorem execUpdBegin_cells (path : Bool) (slot : Nat) (s : State) : ∀ r,
    (execUpdBegin path slot s) = .next r → r.mem.cells = s.mem.cells := by
  intro r h; unfold execUpdBegin at h; injection h with h; subst h; simp

theorem execUpdateWrite_cells (path : Bool) (block : Nat) (data : List Byte) (s : State) : ∀ r,
    (execUpdateWrite path block data s) = .next r → r.mem.cells = s.mem.cells := by
  intro r h; unfold execUpdateWrite at h; injection h with h; subst h; simp

theorem execUpdFinish_cells (path : Bool) (s : State) : ∀ r,
    (execUpdFinish path s) = .next r → r.mem.cells = s.mem.cells := by
  intro r h; unfold execUpdFinish at h; injection h with h; subst h; simp

theorem execUpdateAbort_cells (path : Bool) (s : State) : ∀ r,
    (execUpdateAbort path s) = .next r → r.mem.cells = s.mem.cells := by
  intro r h; unfold execUpdateAbort at h; injection h with h; subst h; simp

theorem execSvnCommit_cells (path : Bool) (fuses : Nat) (s : State) : ∀ r,
    (execSvnCommit path fuses s) = .next r → r.mem.cells = s.mem.cells := by
  intro r h; unfold execSvnCommit at h; injection h with h; subst h; simp

/-! Admin. -/

@[simp] theorem opCreate_cells (s : State) (p : Nat) (c : Nat) (m : List Byte) :
    (opCreate s p c m).2.mem.cells = s.mem.cells := by
  unfold opCreate; (repeat' split) <;> simp

@[simp] theorem opWindow_cells (s : State) (c : Nat) (m : List Byte) : (opWindow s c m).2.mem.cells = s.mem.cells := by
  unfold opWindow; (repeat' split) <;> simp

@[simp] theorem opInvalidate_cells (s : State) (c : Nat) (m : List Byte) :
    (opInvalidate s c m).2.mem.cells = s.mem.cells := by
  unfold opInvalidate; (repeat' split) <;> simp

@[simp] theorem opSuspend_cells (s : State) (c : Nat) (m : List Byte) : (opSuspend s c m).2.mem.cells = s.mem.cells := by
  unfold opSuspend; (try simp only []); (repeat' split) <;> simp_all

@[simp] theorem opRestart_cells (s : State) (c : Nat) (m : List Byte) : (opRestart s c m).2.mem.cells = s.mem.cells := by
  unfold opRestart; (try simp only []); (repeat' split) <;> simp_all

@[simp] theorem opAbort_cells (s : State) (c : Nat) (m : List Byte) : (opAbort s c m).2.mem.cells = s.mem.cells := by
  unfold opAbort; (try simp only []); (repeat' split) <;> simp_all

@[simp] theorem opDraft_cells (s : State) (p : Nat) (m : List Byte) : (opDraft s p m).2.mem.cells = s.mem.cells := by
  unfold opDraft; (try simp only []); (repeat' split) <;> simp_all

/-! Buddy. -/

@[simp] theorem buddyDone_cells (s : State) (b : Buddy) : (buddyDone s b).mem.cells = s.mem.cells := by
  unfold buddyDone; rfl

/-! Links. -/

@[simp] theorem endStream_cells (s : State) (t : Stream) : (endStream s t).mem.cells = s.mem.cells := by
  unfold endStream; (repeat' split) <;> simp

@[simp] theorem cutPort_cells (s : State) (p : Nat) : (cutPort s p).mem.cells = s.mem.cells := by
  unfold cutPort; simp

theorem execLinkTrainingComplete_cells (port : Nat) (lanes : Nat) (s : State) : ∀ r,
    (execLinkTrainingComplete port lanes s) = .next r → r.mem.cells = s.mem.cells := by
  intro r h; unfold execLinkTrainingComplete at h; injection h with h; subst h; simp

theorem execDownRetry_cells (port : Nat) (s : State) : ∀ r,
    (execDownRetry port s) = .next r → r.mem.cells = s.mem.cells := by
  intro r h; unfold execDownRetry at h; injection h with h; subst h; simp

theorem execDiscoverySend_cells (port : Nat) (s : State) : ∀ r,
    (execDiscoverySend port s) = .next r → r.mem.cells = s.mem.cells := by
  intro r h; unfold execDiscoverySend at h; injection h with h; subst h; simp

@[simp] theorem decidePort_cells (s : State) (p : Nat) (r : List Byte) : (decidePort s p r).mem.cells = s.mem.cells := by
  unfold decidePort; simp

theorem execDiscoveryRec_cells (port : Nat) (s : State) : ∀ r,
    (execDiscoveryRec port s) = .next r → r.mem.cells = s.mem.cells := by
  intro r h; unfold execDiscoveryRec at h; injection h with h; subst h; dsimp only; (repeat' split) <;> simp

theorem execDiscoveryTimeout_cells (port : Nat) (s : State) : ∀ r,
    (execDiscoveryTimeout port s) = .next r → r.mem.cells = s.mem.cells := by
  intro r h; unfold execDiscoveryTimeout at h; injection h with h; subst h; simp

@[simp] theorem retrained_cells (s : State) (p : Nat) : (retrained s p).mem.cells = s.mem.cells := by
  unfold retrained; rfl

theorem execCreditStall_cells (port : Nat) (vc : Nat) (us : Nat) (s : State) : ∀ r,
    (execCreditStall port vc us s) = .next r → r.mem.cells = s.mem.cells := by
  intro r h; unfold execCreditStall at h; injection h with h; subst h; simp

@[simp] theorem dropPacket_cells (s : State) : (dropPacket s).mem.cells = s.mem.cells := by
  unfold dropPacket; rfl

@[simp] theorem discardPkt_cells (s : State) (src : Option Nat) (k : Pkt) :
    (discardPkt s src k).mem.cells = s.mem.cells := by
  unfold discardPkt; (repeat' split) <;> simp

@[simp] theorem headerIn_cells (p : Nat) (v : Nat) (s : State) (f : List Byte) :
    (headerIn p v s f).mem.cells = s.mem.cells := by
  unfold headerIn; simp

@[simp] theorem streamFlit_cells (s : State) (t : Stream) (f : List Byte) : (streamFlit s t f).mem.cells = s.mem.cells := by
  unfold streamFlit; (repeat' split) <;> simp

@[simp] theorem flitIn_cells (p : Nat) (v : Nat) (s : State) (f : List Byte) : (flitIn p v s f).mem.cells = s.mem.cells := by
  unfold flitIn; (repeat' split) <;> simp

@[simp] theorem refuseBlock_cells (s : State) (p : Nat) : (refuseBlock s p).mem.cells = s.mem.cells := by
  unfold refuseBlock
  rw [pump_cells, updLink_cells]

/-! Collective. -/

@[simp] theorem weirLines_cells (s : State) (c : Nat) (src : Nat) (va : Nat) (op : Nat) (ty : Nat) (mode : Nat) (tag
    : Nat) (d : List Byte) : (weirLines s c src va op ty mode tag d).mem.cells = s.mem.cells := by
  unfold weirLines; rfl

@[simp] theorem sendLines_cells (s : State) (x : Coll) (q : Nat) (addr : Nat) (d : List Byte) :
    (sendLines s x q addr d).mem.cells = s.mem.cells := by
  unfold sendLines; simp

@[simp] theorem sendDirect_cells (s : State) (x : Coll) (e : Nat × Nat) : (sendDirect s x e).1.mem.cells = s.mem.cells := by
  unfold sendDirect; (repeat' split) <;> simp

@[simp] theorem sendResult_cells (s : State) (x : Coll) (e : Nat × Nat) : (sendResult s x e).1.mem.cells = s.mem.cells := by
  unfold sendResult; (repeat' split) <;> simp

@[simp] theorem tellReady_cells (s : State) (x : Coll) (g : Region) : (tellReady s x g).1.mem.cells = s.mem.cells := by
  unfold tellReady; simp

@[simp] theorem applyResult_cells (s : State) (x : Coll) (g : Region) : (applyResult s x g).1.mem.cells = s.mem.cells := by
  unfold applyResult; (try simp only []); (repeat' split) <;> simp_all

@[simp] theorem sendNode_cells (k r : Nat) (sx : State × Coll) : (sendNode k r sx).1.mem.cells = sx.1.mem.cells := by
  unfold sendNode; dsimp only; (repeat' split) <;> simp

@[simp] theorem climbColl_cells (g : Region) (sx : State × Coll) : (climbColl g sx).1.mem.cells = sx.1.mem.cells := by
  unfold climbColl
  apply foldl_fst_cells; intro p x
  apply foldl_fst_cells; intro p x
  dsimp only; split <;> simp

@[simp] theorem advance_cells (s : State) (x : Coll) (turn : Bool) : (advance s x turn).1.mem.cells = s.mem.cells := by
  unfold advance
  split
  · rfl
  · rename_i g _
    have h1 : (if (!x.told && turn) = true then tellReady s x g else (s, x)).1.mem.cells = s.mem.cells := by
      split <;> simp
    split
    rename_i s1 x1 heq
    rw [heq] at h1
    have h2 : ∀ l : List (Nat × Nat), (l.foldl (fun (sx : State × Coll) e => sendDirect sx.1 sx.2 e) (s1, x1)).1.mem.cells =
        s.mem.cells := fun l => by rw [foldl_fst_cells _ (by simp)]; exact h1
    (repeat' split) <;> simp_all

@[simp] theorem putColl_cells (s : State) (i : Nat) (x : Coll) : (putColl s i x).mem.cells = s.mem.cells := by
  unfold putColl; rfl

@[simp] theorem advanceAll_cells (s : State) (c : Nat) : (advanceAll s c).mem.cells = s.mem.cells := by
  unfold advanceAll
  apply foldl_cells; intro s i
  (repeat' split) <;> first | rfl | (simp only [putColl_cells]; simp_all)

@[simp] theorem collFault_cells (s : State) (c : Nat) : (collFault s c).mem.cells = s.mem.cells := by
  unfold collFault; simp

@[simp] theorem takeEarly_cells (s : State) (x : Coll) : (takeEarly s x).1.mem.cells = s.mem.cells := by
  unfold takeEarly; rfl

@[simp] theorem finishColl_cells (s : State) (i : Nat) (x : Coll) : (finishColl s i x).mem.cells = s.mem.cells := by
  unfold finishColl; simp

theorem execCollectiveComplete_cells (ctx : Nat) (s : State) : ∀ r,
    (execCollectiveComplete ctx s) = .next r → r.mem.cells = s.mem.cells := by
  intro r h; unfold execCollectiveComplete at h; injection h with h; subst h
  dsimp only
  rw [foldl_cells, advanceAll_cells]
  intro s i; (repeat' split) <;> simp

@[simp] theorem readyIn_cells (s : State) (c : Nat) (id : Nat) (dev : Nat) (addr : Nat) :
    (readyIn s c id dev addr).mem.cells = s.mem.cells := by
  unfold readyIn; (try simp only []); (repeat' split) <;> simp_all

@[simp] theorem nodeIn_cells (s : State) (c : Nat) (id : Nat) (dev : Nat) (k : Nat) (r : Nat) (addr : Nat) (d
    : List Byte) : (nodeIn s c id dev k r addr d).1.mem.cells = s.mem.cells := by
  unfold nodeIn; (try simp only []); (repeat' split) <;> simp_all

/-! Sluice. -/

theorem execBlockRelease_cells (ctx : Nat) (s : State) : ∀ r,
    (execBlockRelease ctx s) = .next r → r.mem.cells = s.mem.cells := by
  intro r h; unfold execBlockRelease at h; injection h with h; subst h; simp

theorem execSchedule_cells (ctx : Nat) (s : State) : ∀ r, (execSchedule ctx s) = .next r → r.mem.cells = s.mem.cells := by
  intro r h; unfold execSchedule at h; injection h with h; subst h; simp

@[simp] theorem updCommit_cells (s : State) (c : Nat) (slot : Nat) (f : Commit → Commit) :
    (updCommit s c slot f).mem.cells = s.mem.cells := by
  unfold updCommit; rfl

@[simp] theorem takeSnap_cells (s : State) (m : Commit) (o : Nat) : (takeSnap s m o).mem.cells = s.mem.cells := by
  unfold takeSnap; simp

@[simp] theorem outcomeNoted_cells (s : State) (o : Nat) : (outcomeNoted s o).mem.cells = s.mem.cells := by
  unfold outcomeNoted; simp

theorem execCheckpointRequest_cells (s : State) : ∀ r, (execCheckpointRequest s) = .next r → r.mem.cells = s.mem.cells := by
  intro r h; unfold execCheckpointRequest at h; injection h with h; subst h; simp

@[simp] theorem windowDone_cells (s : State) (b : Nat) (i : Item) : (windowDone s b i).mem.cells = s.mem.cells := by
  unfold windowDone; simp

@[simp] theorem windowPass_cells (s : State) (b : Nat) (i : Item) : (windowPass s b i).mem.cells = s.mem.cells := by
  unfold windowPass; (try simp only []); (repeat' split) <;> simp_all

@[simp] theorem windowPassEnd_cells (s : State) (b : Nat) (i : Item) : (windowPassEnd s b i).mem.cells = s.mem.cells := by
  unfold windowPassEnd; (try simp only []); (repeat' split) <;> simp_all

/-! Ring. -/

@[simp] theorem ringDoorbell_cells (s : State) (c : Nat) (v : Nat) : (ringDoorbell s c v).mem.cells = s.mem.cells := by
  unfold ringDoorbell; simp

theorem execChanterDoorbell_cells (k : Nat) (s : State) : ∀ r,
    (execChanterDoorbell k s) = .next r → r.mem.cells = s.mem.cells := by
  intro r h; unfold execChanterDoorbell at h; injection h with h; subst h; (repeat' split) <;> simp

@[simp] theorem decodeCmd_cells (s : State) (c : Nat) (n : Nat) (raw : List Byte) :
    (decodeCmd s c n raw).mem.cells = s.mem.cells := by
  unfold decodeCmd; simp

theorem execNopCmd_cells (ctx : Nat) (s : State) : ∀ r, (execNopCmd ctx s) = .next r → r.mem.cells = s.mem.cells := by
  intro r h; unfold execNopCmd at h; injection h with h; subst h; simp

theorem execLaunchCmd_cells (ctx : Nat) (s : State) : ∀ r, (execLaunchCmd ctx s) = .next r → r.mem.cells = s.mem.cells := by
  intro r h; unfold execLaunchCmd at h; injection h with h; subst h; simp

@[simp] theorem holdWrite_cells (route : Bool) (op : Nat) (n : Nat) (ctx : Nat) (s : State) :
    (holdWrite route op n ctx s).mem.cells = s.mem.cells := by
  unfold holdWrite; simp

theorem execProfileWrite_cells (ctx : Nat) (s : State) : ∀ r,
    (execProfileWrite ctx s) = .next r → r.mem.cells = s.mem.cells := by
  intro r h; unfold execProfileWrite at h; injection h with h; subst h; simp

theorem execRouteWrite_cells (ctx : Nat) (s : State) : ∀ r,
    (execRouteWrite ctx s) = .next r → r.mem.cells = s.mem.cells := by
  intro r h; unfold execRouteWrite at h; injection h with h; subst h; simp

theorem execSetCmd_cells (ctx : Nat) (s : State) : ∀ r, (execSetCmd ctx s) = .next r → r.mem.cells = s.mem.cells := by
  intro r h; unfold execSetCmd at h; injection h with h; subst h; simp

theorem execPhaseCmd_cells (ctx : Nat) (s : State) : ∀ r, (execPhaseCmd ctx s) = .next r → r.mem.cells = s.mem.cells := by
  intro r h; unfold execPhaseCmd at h; injection h with h; subst h; simp

theorem execRegionDeclare_cells (ctx : Nat) (s : State) : ∀ r,
    (execRegionDeclare ctx s) = .next r → r.mem.cells = s.mem.cells := by
  intro r h; unfold execRegionDeclare at h; injection h with h; subst h; simp

theorem execRegionRelease_cells (ctx : Nat) (s : State) : ∀ r,
    (execRegionRelease ctx s) = .next r → r.mem.cells = s.mem.cells := by
  intro r h; unfold execRegionRelease at h; injection h with h; subst h; simp

theorem execJobStart_cells (ctx : Nat) (s : State) : ∀ r, (execJobStart ctx s) = .next r → r.mem.cells = s.mem.cells := by
  intro r h; unfold execJobStart at h; injection h with h; subst h; simp

theorem execEvalOpen_cells (ctx : Nat) (s : State) : ∀ r, (execEvalOpen ctx s) = .next r → r.mem.cells = s.mem.cells := by
  intro r h; unfold execEvalOpen at h; injection h with h; subst h; (repeat' split) <;> simp

theorem execEvalClose_cells (ctx : Nat) (s : State) : ∀ r, (execEvalClose ctx s) = .next r → r.mem.cells = s.mem.cells := by
  intro r h; unfold execEvalClose at h; injection h with h; subst h; simp

@[simp] theorem tryWait_cells (c : Nat) (s : State) (slot : Nat) : (tryWait c s slot).mem.cells = s.mem.cells := by
  unfold tryWait; (repeat' split) <;> simp

theorem execWaitCmd_cells (ctx : Nat) (s : State) : ∀ r, (execWaitCmd ctx s) = .next r → r.mem.cells = s.mem.cells := by
  intro r h; unfold execWaitCmd at h; injection h with h; subst h; simp

@[simp] theorem queueItem_cells (s : State) (c : Nat) (b : Nat) (slot : Nat) (raw : List Byte) :
    (queueItem s c b slot raw).mem.cells = s.mem.cells := by
  unfold queueItem; rfl

@[simp] theorem moveItems_cells (c : Nat) (slot : Nat) (a2 : Nat) (a3 : State) :
    (moveItems c slot a2 a3).mem.cells = a3.mem.cells := by
  induction a2 generalizing a3 with
  | zero => rfl
  | succ n ih =>
    unfold moveItems
    split
    · rfl
    · split
      · dsimp only
        split
        · simp
        · rw [ih]; simp
      · rfl

theorem execBasinItems_cells (ctx : Nat) (s : State) : ∀ r,
    (execBasinItems ctx s) = .next r → r.mem.cells = s.mem.cells := by
  intro r h; unfold execBasinItems at h; injection h with h; subst h; simp

theorem execHostAccessTimeout_cells (ctx : Nat) (s : State) : ∀ r,
    (execHostAccessTimeout ctx s) = .next r → r.mem.cells = s.mem.cells := by
  intro r h; unfold execHostAccessTimeout at h; injection h with h; subst h; simp

theorem execCommandStall_cells (ctx : Nat) (s : State) : ∀ r,
    (execCommandStall ctx s) = .next r → r.mem.cells = s.mem.cells := by
  intro r h; unfold execCommandStall at h; injection h with h; subst h; dsimp only; (repeat' split) <;> simp

/-! HostRows. -/

@[simp] theorem secCommand_cells (s : State) (v : Nat) : (secCommand s v).mem.cells = s.mem.cells := by
  unfold secCommand; (repeat' split) <;> simp

@[simp] theorem evqAdvance_cells (s : State) (c : Nat) (v : Nat) : (evqAdvance s c v).mem.cells = s.mem.cells := by
  unfold evqAdvance; rfl

theorem execCounterLowRead_cells (port : Nat) (addr : Nat) (size : Nat) (s : State) : ∀ r,
    (execCounterLowRead port addr size s) = .next r → r.mem.cells = s.mem.cells := by
  intro r h; unfold execCounterLowRead at h; injection h with h; subst h; simp

theorem execCtxTail_cells (port : Nat) (ctx : Nat) (value : Nat) (s : State) : ∀ r,
    (execCtxTail port ctx value s) = .next r → r.mem.cells = s.mem.cells := by
  intro r h; unfold execCtxTail at h; injection h with h; subst h; simp

theorem execCtxEvqHead_cells (port : Nat) (ctx : Nat) (value : Nat) (s : State) : ∀ r,
    (execCtxEvqHead port ctx value s) = .next r → r.mem.cells = s.mem.cells := by
  intro r h; unfold execCtxEvqHead at h; injection h with h; subst h; simp

@[simp] theorem aperFault_cells (s : State) (port : Nat) (off : Nat) (write : Bool) :
    (aperFault s port off write).mem.cells = s.mem.cells := by
  unfold aperFault; simp

/-! LedgerRows. -/

@[simp] theorem ldgErr_cells (s : State) (i : Nat) : (ldgErr s i).mem.cells = s.mem.cells := by
  unfold ldgErr; rfl

@[simp] theorem flushDone_cells (s : State) : (flushDone s).mem.cells = s.mem.cells := by
  unfold flushDone; simp

theorem execLedgerLoad_cells (bad0 : Bool) (bad1 : Bool) (slots0 : List Nat) (slots1 : List Nat) (s : State) : ∀ r,
    (execLedgerLoad bad0 bad1 slots0 slots1 s) = .next r → r.mem.cells = s.mem.cells := by
  intro r h; unfold execLedgerLoad at h; injection h with h; subst h; simp

@[simp] theorem ldgReply_cells (s : State) (d : List Byte) : (ldgReply s d).mem.cells = s.mem.cells := by
  unfold ldgReply; simp

theorem execReadHeader_cells (s : State) : ∀ r, (execReadHeader s) = .next r → r.mem.cells = s.mem.cells := by
  intro r h; unfold execReadHeader at h; injection h with h; subst h; simp

theorem execReadSlots_cells (first : Nat) (count : Nat) (s : State) : ∀ r,
    (execReadSlots first count s) = .next r → r.mem.cells = s.mem.cells := by
  intro r h; unfold execReadSlots at h; injection h with h; subst h; simp

theorem execLedgerUnsupported_cells (req : Nat) (s : State) : ∀ r,
    (execLedgerUnsupported req s) = .next r → r.mem.cells = s.mem.cells := by
  intro r h; unfold execLedgerUnsupported at h; injection h with h; subst h; simp

theorem execLdgReadIndex_cells (port : Nat) (value : Nat) (s : State) : ∀ r,
    (execLdgReadIndex port value s) = .next r → r.mem.cells = s.mem.cells := by
  intro r h; unfold execLdgReadIndex at h; injection h with h; subst h; simp

/-! MemEvents. -/

theorem execHbmTempRead_cells (stack : Nat) (temp : Nat) (high : Bool) (s : State) : ∀ r,
    (execHbmTempRead stack temp high s) = .next r → r.mem.cells = s.mem.cells := by
  intro r h; unfold execHbmTempRead at h; injection h with h; subst h; simp

theorem execRfmRequest_cells (stack : Nat) (s : State) : ∀ r,
    (execRfmRequest stack s) = .next r → r.mem.cells = s.mem.cells := by
  intro r h; unfold execRfmRequest at h; injection h with h; subst h; simp

/-! Packets. -/

@[simp] theorem leave_cells (s : State) (inPort : Option Nat) (k : Pkt) (p : Nat) :
    (leave s inPort k p).mem.cells = s.mem.cells := by
  unfold leave
  dsimp only
  rw [pump_cells]
  split
  · split <;> simp only [queueFlits_cells]
  · exact queueFlits_cells _ _ _ _

@[simp] theorem rejectPacket_cells (s : State) (job : Nat) : (rejectPacket s job).mem.cells = s.mem.cells := by
  unfold rejectPacket; (try simp only []); (repeat' split) <;> simp_all

@[simp] theorem dropInbox_cells (s : State) (k : Nat) : (dropInbox s k).mem.cells = s.mem.cells := by
  unfold dropInbox; rfl

@[simp] theorem withJob_cells (s : State) (k kind : Nat) (f : State → Nat → Hdr → Pkt → State)
    (h : ∀ s c d p, (f s c d p).mem.cells = s.mem.cells) : (withJob s k kind f).mem.cells = s.mem.cells := by
  unfold withJob; (repeat' split) <;> simp [h]

theorem execConnReq_cells (k : Nat) (s : State) : ∀ r, (execConnReq k s) = .next r → r.mem.cells = s.mem.cells := by
  intro r h; unfold execConnReq at h; injection h with h; subst h; dsimp only; (repeat' split) <;> simp

theorem execConnGrant_cells (k : Nat) (s : State) : ∀ r, (execConnGrant k s) = .next r → r.mem.cells = s.mem.cells := by
  intro r h; unfold execConnGrant at h; injection h with h; subst h
  apply withJob_cells; intros; (repeat' split) <;> simp

theorem execMsgCredit_cells (k : Nat) (s : State) : ∀ r, (execMsgCredit k s) = .next r → r.mem.cells = s.mem.cells := by
  intro r h; unfold execMsgCredit at h; injection h with h; subst h
  apply withJob_cells; intros; (repeat' split) <;> simp

theorem execWeirStream_cells (k : Nat) (s : State) : ∀ r, (execWeirStream k s) = .next r → r.mem.cells = s.mem.cells := by
  intro r h; unfold execWeirStream at h; injection h with h; subst h; simp

theorem execCollReady_cells (k : Nat) (s : State) : ∀ r, (execCollReady k s) = .next r → r.mem.cells = s.mem.cells := by
  intro r h; unfold execCollReady at h; injection h with h; subst h; simp

theorem execFabricBarrierTimeout_cells (idx : Nat) (s : State) : ∀ r,
    (execFabricBarrierTimeout idx s) = .next r → r.mem.cells = s.mem.cells := by
  intro r h; unfold execFabricBarrierTimeout at h; injection h with h; subst h; simp

/-! Recovery. -/

theorem execS2Record_cells (good : Bool) (s : State) : ∀ r, (execS2Record s good) = .next r → r.mem.cells = s.mem.cells := by
  intro r h; unfold execS2Record at h; injection h with h; subst h; (repeat' split) <;> simp

@[simp] theorem includePorts_cells (s : State) : (includePorts s).mem.cells = s.mem.cells := by
  unfold includePorts; rfl

theorem execQuiesceComplete_cells (s : State) : ∀ r, (execQuiesceComplete s) = .next r → r.mem.cells = s.mem.cells := by
  intro r h; unfold execQuiesceComplete at h; injection h with h; subst h; simp

@[simp] theorem repairFault_cells (s : State) (r : ErrRec) : (repairFault s r).mem.cells = s.mem.cells := by
  unfold repairFault; (try simp only []); (repeat' split) <;> simp_all

@[simp] theorem endMigration_cells (s : State) (n : Nat) : (endMigration s n).mem.cells = s.mem.cells := by
  unfold endMigration; simp

@[simp] theorem deviceFailed_cells (s : State) : (deviceFailed s).mem.cells = s.mem.cells := by
  unfold deviceFailed; simp

theorem execRepairComplete_cells (good : Bool) (s : State) : ∀ r,
    (execRepairComplete good s) = .next r → r.mem.cells = s.mem.cells := by
  intro r h; unfold execRepairComplete at h; injection h with h; subst h; simp

theorem execRejoinReady_cells (held : Nat) (back : List Nat) (s : State) : ∀ r,
    (execRejoinReady held s back) = .next r → r.mem.cells = s.mem.cells := by
  intro r h; unfold execRejoinReady at h; injection h with h; subst h; simp

theorem execDraftWaitExpiry_cells (s : State) : ∀ r, (execDraftWaitExpiry s) = .next r → r.mem.cells = s.mem.cells := by
  intro r h; unfold execDraftWaitExpiry at h; injection h with h; subst h; simp

@[simp] theorem sendRestore_cells (s : State) (t : Nat) : (sendRestore s t).mem.cells = s.mem.cells := by
  unfold sendRestore; (repeat' split) <;> simp

@[simp] theorem takeRelease_cells (s : State) (b : Nat) : (takeRelease s b).mem.cells = s.mem.cells := by
  unfold takeRelease; rfl

@[simp] theorem resume_cells (s : State) : (resume s).mem.cells = s.mem.cells := by
  unfold resume; rfl

@[simp] theorem reportRollback_cells (t : Nat) (s : State) (c : Nat) : (reportRollback t s c).mem.cells = s.mem.cells := by
  unfold reportRollback; simp

theorem execRollbackReported_cells (s : State) : ∀ r, (execRollbackReported s) = .next r → r.mem.cells = s.mem.cells := by
  intro r h; unfold execRollbackReported at h; injection h with h; subst h; simp

theorem execTimebaseRestored_cells (s : State) : ∀ r, (execTimebaseRestored s) = .next r → r.mem.cells = s.mem.cells := by
  intro r h; unfold execTimebaseRestored at h; injection h with h; subst h; simp

/-! Tick. -/

@[simp] theorem reasonTimes_cells (s : State) : (reasonTimes s).mem.cells = s.mem.cells := by
  unfold reasonTimes; simp

@[simp] theorem operatingSecond_cells (s : State) : (operatingSecond s).mem.cells = s.mem.cells := by
  unfold operatingSecond; rfl

@[simp] theorem tick_cells (s : State) : (tick s).mem.cells = s.mem.cells := by
  unfold tick; simp

end Sys2Proof.Machine
end

