-- ==== Sys2Proof/Laws/Canon.lean ====
section
/-!
SUPPORT. Every operation and every meaning that writes memory keeps its canonical form: one law `f_canon` each; `f_keeps`
says the same of the state in a pair or an option that `f` answers.
-/

set_option linter.unusedVariables false

namespace Sys2Proof.Machine

/-! Ops. -/

theorem setBits_canon (s : State) (off : Nat) (mask : Nat) (hw : Canon s) : Canon (setBits s off mask) := by
  exact canon_of (setBits_cells s off mask) hw

theorem setBit_canon (s : State) (off : Nat) (i : Nat) (hw : Canon s) : Canon (setBit s off i) := by
  exact canon_of (setBit_cells s off i) hw

theorem bump_canon (s : State) (off : Nat) (n : Nat) (hw : Canon s) : Canon (bump s off n) := by
  exact canon_of (bump_cells s off n) hw

theorem emit_canon (s : State) (o : Out) (hw : Canon s) : Canon (emit s o) := by
  exact canon_of (emit_cells s o) hw

theorem hifFlag_canon (s : State) (p : Nat) (i : Nat) (hw : Canon s) : Canon (hifFlag s p i) := by
  exact canon_of (hifFlag_cells s p i) hw

theorem fresh_canon (s : State) (hw : Canon s) : Canon (fresh s) := by
  exact canon_of (fresh_cells s) hw

theorem updThread_canon (s : State) (j : Nat) (t : Nat) (f : Thread → Thread) (hw : Canon s) : Canon
    (updThread s j t f) := by
  exact canon_of (updThread_cells s j t f) hw

theorem updChan_canon (s : State) (j : Nat) (c : Nat) (f : Channel → Channel) (hw : Canon s) : Canon (updChan s j c f) := by
  exact canon_of (updChan_cells s j c f) hw

theorem updConn_canon (s : State) (ep : Nat) (i : Nat) (f : Conn → Conn) (hw : Canon s) : Canon (updConn s ep i f) := by
  exact canon_of (updConn_cells s ep i f) hw

theorem orphanWops_canon (s : State) (p : Nat → Bool) (hw : Canon s) : Canon (orphanWops s p) := by
  exact canon_of (orphanWops_cells s p) hw

theorem updBar_canon (s : State) (k : Nat) (f : Barrier → Barrier) (hw : Canon s) : Canon (updBar s k f) := by
  exact canon_of (updBar_cells s k f) hw

theorem updTerrace_canon (s : State) (t : Nat) (f : Terrace → Terrace) (hw : Canon s) : Canon (updTerrace s t f) := by
  exact canon_of (updTerrace_cells s t f) hw

theorem updBasin_canon (s : State) (b : Nat) (f : Basin → Basin) (hw : Canon s) : Canon (updBasin s b f) := by
  exact canon_of (updBasin_cells s b f) hw

theorem updSpout_canon (s : State) (b : Nat) (f : Spout → Spout) (hw : Canon s) : Canon (updSpout s b f) := by
  exact canon_of (updSpout_cells s b f) hw

theorem updCtx_canon (s : State) (c : Nat) (f : Ctx → Ctx) (hw : Canon s) : Canon (updCtx s c f) := by
  exact canon_of (updCtx_cells s c f) hw

theorem updPort_canon (s : State) (p : Nat) (f : Port → Port) (hw : Canon s) : Canon (updPort s p f) := by
  exact canon_of (updPort_cells s p f) hw

theorem updStack_canon (s : State) (n : Nat) (f : Stack → Stack) (hw : Canon s) : Canon (updStack s n f) := by
  exact canon_of (updStack_cells s n f) hw

theorem updSlice_canon (s : State) (n : Nat) (f : Slice → Slice) (hw : Canon s) : Canon (updSlice s n f) := by
  exact canon_of (updSlice_cells s n f) hw

theorem updLink_canon (s : State) (p : Nat) (f : LPort → LPort) (hw : Canon s) : Canon (updLink s p f) := by
  exact canon_of (updLink_cells s p f) hw

theorem updFBar_canon (s : State) (k : Nat) (f : FBar → FBar) (hw : Canon s) : Canon (updFBar s k f) := by
  exact canon_of (updFBar_cells s k f) hw

theorem ledgerRecord_canon (s : State) (code : Nat) (v : Nat) (d : List Byte) (hw : Canon s) : Canon
    (ledgerRecord s code v d) := by
  exact canon_of (ledgerRecord_cells s code v d) hw

/-! Translate. -/

theorem cisRefused_canon (s : State) (hw : Canon s) : Canon (cisRefused s) := by
  exact canon_of (cisRefused_cells s) hw

theorem dropLine_canon (s : State) (k : Nat) (hw : Canon s) : Canon (dropLine s k) := by
  unfold dropLine; (repeat' (first
      | with_reducible assumption | split | dsimp only | (with_reducible apply canon_cells; with_reducible assumption)
      | (with_reducible apply canon_cells; with_reducible apply writePhys_canon)))

theorem flushSlice_canon (s : State) (n : Nat) (hw : Canon s) : Canon (flushSlice s n) := by
  unfold flushSlice; (repeat' (first
      | intro _ | with_reducible assumption | with_reducible apply dropLine_canon | with_reducible apply canon_foldl))

theorem fillLine_canon (s : State) (n : Nat) (k : Nat) (hw : Canon s) : Canon (fillLine s n k) := by
  unfold fillLine; (repeat' (first
      | with_reducible assumption | with_reducible apply bump_canon | split | dsimp only
      | (with_reducible apply canon_cells; with_reducible assumption)
      | (with_reducible apply canon_cells; with_reducible apply dropLine_canon)))

theorem readLoc_canon (s : State) (ns : List Nat) (l : Loc) (n : Nat) (hw : Canon s) : Canon (readLoc s ns l n).2 := by
  unfold readLoc; (repeat' (first | with_reducible assumption | with_reducible apply fillLine_canon | split))

theorem readLoc_keeps {s : State} {ns : List Nat} {l : Loc} {n : Nat} {q_ : List Byte} {r_ : State} (he :
    (readLoc s ns l n) = (q_, r_)) (hw : Canon s) : Canon r_ := by
  have := readLoc_canon s ns l n hw
  rw [he] at this
  exact this

theorem writeLoc_canon (s : State) (ns : List Nat) (l : Loc) (bs : List Byte) (hw : Canon s) : Canon
    (writeLoc s ns l bs) := by
  unfold writeLoc; (repeat' (first
      | with_reducible assumption | with_reducible apply canon_ite | with_reducible apply writePhys_canon | split
      | dsimp only | (with_reducible apply canon_cells; with_reducible apply fillLine_canon)))

theorem ctxRead_canon (s : State) (c : Nat) (va : Nat) (n : Nat) (hw : Canon s) : ∀ r,
    (ctxRead s c va n) = some r → Canon r.2 := by
  intro r e; unfold ctxRead at e; dsimp -failIfUnchanged only at e; (repeat' split at e) <;> cases e <;> (repeat' (first
      | intro _ | with_reducible assumption | with_reducible apply canon_foldl_snd | split
      | with_reducible apply readLoc_canon))

theorem ctxRead_keeps {s : State} {c : Nat} {va : Nat} {n : Nat} {q_ : List Byte} {r_ : State} (he :
    (ctxRead s c va n) = some (q_, r_)) (hw : Canon s) : Canon r_ := ctxRead_canon s c va n hw _ he

theorem ctxWrite_canon (s : State) (c : Nat) (va : Nat) (bs : List Byte) (hw : Canon s) : ∀ r,
    (ctxWrite s c va bs) = some r → Canon r := by
  intro r e; unfold ctxWrite at e; dsimp -failIfUnchanged only at e; (repeat' split at e) <;> cases e <;> (repeat' (first
      | intro _ | with_reducible assumption | with_reducible apply writeLoc_canon | with_reducible apply canon_foldl
      | split))

theorem ctxWrite_keeps {s : State} {c : Nat} {va : Nat} {bs : List Byte} {r_ : State} (he :
    (ctxWrite s c va bs) = some r_) (hw : Canon s) : Canon r_ := ctxWrite_canon s c va bs hw _ he

/-! LinkOps. -/

theorem creditsBack_canon (s : State) (p : Nat) (v : Nat) (n : Nat) (hw : Canon s) : Canon (creditsBack s p v n) := by
  exact canon_of (creditsBack_cells s p v n) hw

theorem pump_canon (s : State) (p : Nat) (news : Bool) (hw : Canon s) : Canon (pump s p news) := by
  exact canon_of (pump_cells s p news) hw

theorem inject_canon (s : State) (k : Pkt) (hw : Canon s) : Canon (inject s k) := by
  exact canon_of (inject_cells s k) hw

/-! Halt. -/

theorem adminDone_canon (s : State) (p : Nat) (code : Nat) (hw : Canon s) : Canon (adminDone s p code) := by
  exact canon_of (adminDone_cells s p code) hw

theorem haltCore_canon (s : State) (c : Nat) (reason : Nat) (hw : Canon s) : Canon (haltCore s c reason) := by
  exact canon_of (haltCore_cells s c reason) hw

theorem postEvent_canon (s : State) (c : Nat) (kind : Nat) (slot : Nat) (detail : List Byte) (hw : Canon s) : Canon
    (postEvent s c kind slot detail) := by
  exact canon_of (postEvent_cells s c kind slot detail) hw

theorem abortKernel_canon (s : State) (c : Nat) (hw : Canon s) : Canon (abortKernel s c) := by
  exact canon_of (abortKernel_cells s c) hw

theorem noteErr_canon (s : State) (r : ErrRec) (w : Touch) (hw : Canon s) : Canon (noteErr s r w) := by
  exact canon_of (noteErr_cells s r w) hw

theorem raiseS4_canon (s : State) (code : Nat) (unit : Nat) (inst : Nat) (hw : Canon s) : Canon
    (raiseS4 s code unit inst) := by
  exact canon_of (raiseS4_cells s code unit inst) hw

theorem sendNotices_canon (s : State) (lost : List Nat) (origin : Nat) (but : Option Nat) (hw : Canon s) : Canon
    (sendNotices s lost origin but) := by
  exact canon_of (sendNotices_cells s lost origin but) hw

theorem quiesce_canon (s : State) (c : Nat) (hw : Canon s) : Canon (quiesce s c) := by
  exact canon_of (quiesce_cells s c) hw

theorem jobLost_canon (s : State) (hw : Canon s) : Canon (jobLost s) := by
  exact canon_of (jobLost_cells s) hw

theorem closeWindows_canon (s : State) (hw : Canon s) : Canon (closeWindows s) := by
  exact canon_of (closeWindows_cells s) hw

theorem startRecovery_canon (s : State) (isLocal : Bool) (ids : List Nat) (rs : List ErrRec) (hw : Canon s) : Canon
    (startRecovery s isLocal ids rs) := by
  unfold startRecovery; (repeat' (first
      | intro _ | with_reducible assumption | with_reducible apply canon_ite | with_reducible apply quiesce_canon
      | with_reducible apply jobLost_canon | with_reducible apply closeWindows_canon | split | dsimp only
      | (with_reducible apply canon_mem; with_reducible assumption)
      | (with_reducible apply canon_mem; with_reducible apply closeWindows_canon)
      | with_reducible apply canon_foldl))

theorem raiseS3_canon (s : State) (code : Nat) (unit : Nat) (inst : Nat) (w : Touch) (hw : Canon s) : Canon
    (raiseS3 s code unit inst w) := by
  unfold raiseS3; (repeat' (first
      | with_reducible assumption | with_reducible apply canon_ite | with_reducible apply startRecovery_canon
      | with_reducible apply noteErr_canon | with_reducible apply raiseS4_canon | with_reducible apply sendNotices_canon
      | split | dsimp only | (with_reducible apply canon_mem; with_reducible apply noteErr_canon)))

theorem fabricEvent_canon (s : State) (port : Nat) (ids : List Nat) (hw : Canon s) : Canon (fabricEvent s port ids) := by
  unfold fabricEvent; (repeat' (first
      | with_reducible assumption | with_reducible apply canon_ite | with_reducible apply startRecovery_canon
      | with_reducible apply setBit_canon | with_reducible apply noteErr_canon | with_reducible apply sendNotices_canon
      | dsimp only | (with_reducible apply canon_mem; with_reducible apply setBit_canon)))

theorem raiseS2_canon (s : State) (code : Nat) (unit : Nat) (inst : Nat) (w : Touch) (hw : Canon s) : Canon
    (raiseS2 s code unit inst w) := by
  unfold raiseS2; (repeat' (first
      | with_reducible assumption | with_reducible apply canon_ite | with_reducible apply noteErr_canon
      | with_reducible apply raiseS3_canon | split | dsimp only
      | (with_reducible apply canon_mem; with_reducible apply noteErr_canon)))

theorem raise_canon (s : State) (code : Nat) (unit : Nat) (inst : Nat) (w : Touch) (hw : Canon s) : Canon
    (raise s code unit inst w) := by
  unfold raise; (repeat' (first
      | with_reducible assumption | with_reducible apply canon_ite | with_reducible apply raiseS2_canon
      | with_reducible apply noteErr_canon | with_reducible apply raiseS4_canon | with_reducible apply raiseS3_canon))

/-! FabricOps. -/

theorem completeCmd_canon (s : State) (c : Nat) (slot : Nat) (hw : Canon s) : Canon (completeCmd s c slot) := by
  exact canon_of (completeCmd_cells s c slot) hw

theorem endWait_canon (s : State) (j : Nat) (t : Nat) (ws : List (Nat × Word)) (hw : Canon s) : Canon
    (endWait s j t ws) := by
  exact canon_of (endWait_cells s j t ws) hw

theorem fbarAdvance_canon (s : State) (b : Nat) (hw : Canon s) : Canon (fbarAdvance s b) := by
  exact canon_of (fbarAdvance_cells s b) hw

theorem fbarArrive_canon (s : State) (b : Nat) (mn : Nat) (mx : Nat) (fl : Nat) (ps : List (Nat × Int)) (hw : Canon s)
    : Canon (fbarArrive s b mn mx fl ps) := by
  exact canon_of (fbarArrive_cells s b mn mx fl ps) hw

theorem fbarAgain_canon (s : State) (b : Nat) (hw : Canon s) : Canon (fbarAgain s b) := by
  exact canon_of (fbarAgain_cells s b) hw

theorem fbarRelease_canon (s : State) (b : Nat) (mn : Nat) (mx : Nat) (fl : Nat) (ps : List (Nat × Int)) (hw : Canon s)
    : Canon (fbarRelease s b mn mx fl ps) := by
  exact canon_of (fbarRelease_cells s b mn mx fl ps) hw

theorem wakeBar_canon (s : State) (k : Nat) (hw : Canon s) : Canon (wakeBar s k) := by
  exact canon_of (wakeBar_cells s k) hw

theorem leaveBar_canon (s : State) (who : Nat) (k : Nat) (hw : Canon s) : Canon (leaveBar s who k) := by
  exact canon_of (leaveBar_cells s who k) hw

/-! MemCheck. -/

theorem retirePc_canon (s : State) (stack : Nat) (pc : Nat) (hw : Canon s) : Canon (retirePc s stack pc) := by
  unfold retirePc; (repeat' (first
      | with_reducible assumption | with_reducible apply canon_ite | with_reducible apply setBit_canon
      | with_reducible apply raise_canon | dsimp only
      | (with_reducible apply canon_cells; with_reducible apply updStack_canon)))

theorem laneCorrected_canon (s : State) (stack : Nat) (pc : Nat) (lane : Nat) (hw : Canon s) : Canon
    (laneCorrected s stack pc lane) := by
  unfold laneCorrected; (repeat' (first
      | with_reducible assumption | with_reducible apply canon_ite | with_reducible apply updStack_canon
      | with_reducible apply setBit_canon | with_reducible apply retirePc_canon))

theorem hbmLost_canon (s : State) (stack : Nat) (pc : Nat) (hw : Canon s) : Canon (hbmLost s stack pc) := by
  unfold hbmLost; (repeat' (first
      | with_reducible assumption | with_reducible apply canon_ite | with_reducible apply updStack_canon
      | with_reducible apply setBit_canon | with_reducible apply raise_canon))

theorem hbmFault_canon (s : State) (a : Nat) (wrong : List Nat) (hw : Canon s) : Canon (hbmFault s a wrong).2 := by
  unfold hbmFault; (repeat' (first
      | intro _ | with_reducible assumption | with_reducible apply bump_canon | with_reducible apply laneCorrected_canon
      | with_reducible apply setBit_canon | with_reducible apply hbmLost_canon | with_reducible apply raise_canon
      | with_reducible apply canon_foldl | split | dsimp only))

theorem hbmFault_keeps {s : State} {a : Nat} {wrong : List Nat} {q_ : Bool} {r_ : State} (he : (hbmFault s a wrong) =
    (q_, r_)) (hw : Canon s) : Canon r_ := by
  have := hbmFault_canon s a wrong hw
  rw [he] at this
  exact this

theorem sliceFault_canon (s : State) (n : Nat) (wrong : List Nat) (hw : Canon s) : Canon (sliceFault s n wrong).2 := by
  unfold sliceFault; (repeat' (first
      | with_reducible assumption | with_reducible apply bump_canon | with_reducible apply setBit_canon
      | with_reducible apply raise_canon | split | dsimp only))

theorem sliceFault_keeps {s : State} {n : Nat} {wrong : List Nat} {q_ : Bool} {r_ : State} (he :
    (sliceFault s n wrong) = (q_, r_)) (hw : Canon s) : Canon r_ := by
  have := sliceFault_canon s n wrong hw
  rw [he] at this
  exact this

theorem jlmFault_canon (s : State) (j : Nat) (wrong : List Nat) (hw : Canon s) : Canon (jlmFault s j wrong).2 := by
  unfold jlmFault; (repeat' (first | with_reducible assumption | with_reducible apply raise_canon | split | dsimp only))

theorem jlmFault_keeps {s : State} {j : Nat} {wrong : List Nat} {q_ : Bool} {r_ : State} (he : (jlmFault s j wrong) =
    (q_, r_)) (hw : Canon s) : Canon r_ := by
  have := jlmFault_canon s j wrong hw
  rw [he] at this
  exact this

theorem memFault_canon (s : State) (f : MemFault) (hw : Canon s) : Canon (memFault s f).2 := by
  unfold memFault; (repeat' (first
      | with_reducible assumption | split | with_reducible apply jlmFault_canon | with_reducible apply sliceFault_canon
      | with_reducible apply hbmFault_canon))

theorem memFault_keeps {s : State} {f : MemFault} {q_ : Bool} {r_ : State} (he : (memFault s f) = (q_, r_)) (hw
    : Canon s) : Canon r_ := by
  have := memFault_canon s f hw
  rw [he] at this
  exact this

theorem memChecks_canon (a0 : List MemFault) (a1 : State) (hw : Canon a1) : Canon (memChecks a0 a1).2 := by
  induction a0 generalizing a1 with
  | nil => exact hw
  | cons f fs ih =>
    unfold memChecks
    split
    · exact ih _ (memFault_keeps (by assumption) hw)
    · exact memFault_keeps (by assumption) hw

theorem memChecks_keeps {a0 : List MemFault} {a1 : State} {q_ : Bool} {r_ : State} (he : (memChecks a0 a1) = (q_, r_))
    (hw : Canon a1) : Canon r_ := by
  have := memChecks_canon a0 a1 hw
  rw [he] at this
  exact this

theorem memFaults_canon (fs : List MemFault) (s : State) (k : State → State) (hw : Canon s) (hk : ∀ x0, Canon x0 → Canon
    (k x0)) : Canon (memFaults fs s k) := by
  unfold memFaults; (repeat' (first
      | with_reducible assumption | with_reducible apply canon_ite | with_reducible apply hk
      | (with_reducible refine memChecks_keeps (by with_reducible assumption) ?_) | split))

/-! JetOps. -/

theorem retire_canon (s : State) (j : Nat) (t : Nat) (f : Thread → Thread) (hw : Canon s) : Canon (retire s j t f) := by
  exact canon_of (retire_cells s j t f) hw

theorem threadFault_canon (s : State) (c : Nat) (j : Nat) (t : Nat) (code : Nat) (hw : Canon s) : Canon
    (threadFault s c j t code) := by
  exact canon_of (threadFault_cells s c j t code) hw

theorem takeSlot_canon (s : State) (j : Nat) (t : Nat) (hw : Canon s) : Canon (takeSlot s j t) := by
  exact canon_of (takeSlot_cells s j t) hw

theorem cacheWord_canon (s : State) (j : Nat) (pc : Nat) (w : Word) (hw : Canon s) : Canon (cacheWord s j pc w) := by
  exact canon_of (cacheWord_cells s j pc w) hw

theorem fetched_canon (s : State) (c : Nat) (j : Nat) (pc : Nat) (w : Word) (hw : Canon s) : ∀ r,
    (fetched s c j pc w) = some r → Canon r := by
  intro r e; unfold fetched at e; dsimp -failIfUnchanged only at e; (repeat' split at e) <;> cases e <;> (repeat' (first
      | with_reducible assumption | with_reducible apply cacheWord_canon
      | (with_reducible refine ctxRead_keeps (by with_reducible assumption) ?_)))

theorem fetched_keeps {s : State} {c : Nat} {j : Nat} {pc : Nat} {w : Word} {r_ : State} (he :
    (fetched s c j pc w) = some r_) (hw : Canon s) : Canon r_ := fetched_canon s c j pc w hw _ he

theorem accessFault_canon (s : State) (c : Nat) (j : Nat) (t : Nat) (a : Nat) (n : Nat) (write : Bool) (hw : Canon s)
    : Canon (accessFault s c j t a n write) := by
  exact canon_of (accessFault_cells s c j t a n write) hw

theorem parityFault_canon (s : State) (c : Nat) (j : Nat) (t : Nat) (hw : Canon s) : Canon (parityFault s c j t) := by
  exact canon_of (parityFault_cells s c j t) hw

theorem issue_canon (row : Nat → Nat → Bool) (cost : Nat) (i : Issue) (s : State) (body : State → Nat → Fields → State)
    (hw : Canon s) (hk : ∀ x0 x1 x2, Canon x0 → Canon (body x0 x1 x2)) : Canon (issue row cost i s body) := by
  unfold issue; (repeat' (first
      | intro _ | with_reducible assumption | with_reducible apply canon_ite | with_reducible apply hk
      | with_reducible apply accessFault_canon | with_reducible apply setBit_canon | with_reducible apply takeSlot_canon
      | with_reducible apply updThread_canon | with_reducible apply parityFault_canon | with_reducible apply raise_canon
      | with_reducible apply threadFault_canon | with_reducible apply retire_canon | with_reducible apply memFaults_canon
      | (with_reducible refine fetched_keeps (by with_reducible assumption) ?_) | split))

theorem startWait_canon (s : State) (j : Nat) (t : Nat) (st : ThreadState) (w : Wait) (hw : Canon s) : Canon
    (startWait s j t st w) := by
  exact canon_of (startWait_cells s j t st w) hw

/-! JetScalar. -/

theorem alu_canon (fn : Nat) (cost : Nat) (g : Word → Word → Word) (i : Issue) (s : State) (hw : Canon s) : Canon
    (alu fn cost g i s) := by
  unfold alu; (repeat' (first
      | intro _ | with_reducible assumption | with_reducible apply issue_canon | with_reducible apply retire_canon))

theorem compare_canon (fn : Nat) (g : Word → Word → Bool) (i : Issue) (s : State) (hw : Canon s) : Canon
    (compare fn g i s) := by
  unfold compare; (repeat' (first
      | intro _ | with_reducible assumption | with_reducible apply issue_canon | with_reducible apply retire_canon))

theorem fcompare_canon (fn : Nat) (g : FVal → FVal → Bool) (i : Issue) (s : State) (hw : Canon s) : Canon
    (fcompare fn g i s) := by
  unfold fcompare; (repeat' (first
      | intro _ | with_reducible assumption | with_reducible apply issue_canon | with_reducible apply retire_canon))

theorem predOp_canon (fn : Nat) (g : Thread → Fields → Thread) (i : Issue) (s : State) (hw : Canon s) : Canon
    (predOp fn g i s) := by
  unfold predOp; (repeat' (first
      | intro _ | with_reducible assumption | with_reducible apply issue_canon | with_reducible apply retire_canon))

theorem fop_canon (fn : Nat) (cost : Nat) (g : Nat → Nat → Nat → Nat × Nat) (i : Issue) (s : State) (hw : Canon s)
    : Canon (fop fn cost g i s) := by
  unfold fop; (repeat' (first
      | intro _ | with_reducible assumption | with_reducible apply issue_canon | with_reducible apply retire_canon))

theorem execAdd_canon (i : Issue) (s : State) (hw : Canon s) : ∀ r, (execAdd i s) = .next r → Canon r := by
  intro r e; unfold execAdd at e; injection e with e; subst e; (repeat' (first
      | with_reducible assumption | with_reducible apply alu_canon))

theorem execSub_canon (i : Issue) (s : State) (hw : Canon s) : ∀ r, (execSub i s) = .next r → Canon r := by
  intro r e; unfold execSub at e; injection e with e; subst e; (repeat' (first
      | with_reducible assumption | with_reducible apply alu_canon))

theorem execAndI_canon (i : Issue) (s : State) (hw : Canon s) : ∀ r, (execAndI i s) = .next r → Canon r := by
  intro r e; unfold execAndI at e; injection e with e; subst e; (repeat' (first
      | with_reducible assumption | with_reducible apply alu_canon))

theorem execOrI_canon (i : Issue) (s : State) (hw : Canon s) : ∀ r, (execOrI i s) = .next r → Canon r := by
  intro r e; unfold execOrI at e; injection e with e; subst e; (repeat' (first
      | with_reducible assumption | with_reducible apply alu_canon))

theorem execXorI_canon (i : Issue) (s : State) (hw : Canon s) : ∀ r, (execXorI i s) = .next r → Canon r := by
  intro r e; unfold execXorI at e; injection e with e; subst e; (repeat' (first
      | with_reducible assumption | with_reducible apply alu_canon))

theorem execShl_canon (i : Issue) (s : State) (hw : Canon s) : ∀ r, (execShl i s) = .next r → Canon r := by
  intro r e; unfold execShl at e; injection e with e; subst e; (repeat' (first
      | with_reducible assumption | with_reducible apply alu_canon))

theorem execShr_canon (i : Issue) (s : State) (hw : Canon s) : ∀ r, (execShr i s) = .next r → Canon r := by
  intro r e; unfold execShr at e; injection e with e; subst e; (repeat' (first
      | with_reducible assumption | with_reducible apply alu_canon))

theorem execSra_canon (i : Issue) (s : State) (hw : Canon s) : ∀ r, (execSra i s) = .next r → Canon r := by
  intro r e; unfold execSra at e; injection e with e; subst e; (repeat' (first
      | with_reducible assumption | with_reducible apply alu_canon))

theorem execMul_canon (i : Issue) (s : State) (hw : Canon s) : ∀ r, (execMul i s) = .next r → Canon r := by
  intro r e; unfold execMul at e; injection e with e; subst e; (repeat' (first
      | with_reducible assumption | with_reducible apply alu_canon))

theorem execMulhu_canon (i : Issue) (s : State) (hw : Canon s) : ∀ r, (execMulhu i s) = .next r → Canon r := by
  intro r e; unfold execMulhu at e; injection e with e; subst e; (repeat' (first
      | with_reducible assumption | with_reducible apply alu_canon))

theorem execDiv_canon (i : Issue) (s : State) (hw : Canon s) : ∀ r, (execDiv i s) = .next r → Canon r := by
  intro r e; unfold execDiv at e; injection e with e; subst e; (repeat' (first
      | with_reducible assumption | with_reducible apply alu_canon))

theorem execDivu_canon (i : Issue) (s : State) (hw : Canon s) : ∀ r, (execDivu i s) = .next r → Canon r := by
  intro r e; unfold execDivu at e; injection e with e; subst e; (repeat' (first
      | with_reducible assumption | with_reducible apply alu_canon))

theorem execRem_canon (i : Issue) (s : State) (hw : Canon s) : ∀ r, (execRem i s) = .next r → Canon r := by
  intro r e; unfold execRem at e; injection e with e; subst e; (repeat' (first
      | with_reducible assumption | with_reducible apply alu_canon))

theorem execRemu_canon (i : Issue) (s : State) (hw : Canon s) : ∀ r, (execRemu i s) = .next r → Canon r := by
  intro r e; unfold execRemu at e; injection e with e; subst e; (repeat' (first
      | with_reducible assumption | with_reducible apply alu_canon))

theorem execMin_canon (i : Issue) (s : State) (hw : Canon s) : ∀ r, (execMin i s) = .next r → Canon r := by
  intro r e; unfold execMin at e; injection e with e; subst e; (repeat' (first
      | with_reducible assumption | with_reducible apply alu_canon))

theorem execMax_canon (i : Issue) (s : State) (hw : Canon s) : ∀ r, (execMax i s) = .next r → Canon r := by
  intro r e; unfold execMax at e; injection e with e; subst e; (repeat' (first
      | with_reducible assumption | with_reducible apply alu_canon))

theorem execMinu_canon (i : Issue) (s : State) (hw : Canon s) : ∀ r, (execMinu i s) = .next r → Canon r := by
  intro r e; unfold execMinu at e; injection e with e; subst e; (repeat' (first
      | with_reducible assumption | with_reducible apply alu_canon))

theorem execMaxu_canon (i : Issue) (s : State) (hw : Canon s) : ∀ r, (execMaxu i s) = .next r → Canon r := by
  intro r e; unfold execMaxu at e; injection e with e; subst e; (repeat' (first
      | with_reducible assumption | with_reducible apply alu_canon))

theorem execClz_canon (i : Issue) (s : State) (hw : Canon s) : ∀ r, (execClz i s) = .next r → Canon r := by
  intro r e; unfold execClz at e; injection e with e; subst e; (repeat' (first
      | with_reducible assumption | with_reducible apply alu_canon))

theorem execPopc_canon (i : Issue) (s : State) (hw : Canon s) : ∀ r, (execPopc i s) = .next r → Canon r := by
  intro r e; unfold execPopc at e; injection e with e; subst e; (repeat' (first
      | with_reducible assumption | with_reducible apply alu_canon))

theorem loadImm_canon (fn : Nat) (g : Word → Nat → Word) (i : Issue) (s : State) (hw : Canon s) : Canon
    (loadImm fn g i s) := by
  unfold loadImm; (repeat' (first
      | intro _ | with_reducible assumption | with_reducible apply issue_canon | with_reducible apply retire_canon))

theorem execLiz_canon (i : Issue) (s : State) (hw : Canon s) : ∀ r, (execLiz i s) = .next r → Canon r := by
  intro r e; unfold execLiz at e; injection e with e; subst e; (repeat' (first
      | with_reducible assumption | with_reducible apply loadImm_canon))

theorem execLih_canon (i : Issue) (s : State) (hw : Canon s) : ∀ r, (execLih i s) = .next r → Canon r := by
  intro r e; unfold execLih at e; injection e with e; subst e; (repeat' (first
      | with_reducible assumption | with_reducible apply loadImm_canon))

theorem execEqI_canon (i : Issue) (s : State) (hw : Canon s) : ∀ r, (execEqI i s) = .next r → Canon r := by
  intro r e; unfold execEqI at e; injection e with e; subst e; (repeat' (first
      | with_reducible assumption | with_reducible apply compare_canon))

theorem execNeI_canon (i : Issue) (s : State) (hw : Canon s) : ∀ r, (execNeI i s) = .next r → Canon r := by
  intro r e; unfold execNeI at e; injection e with e; subst e; (repeat' (first
      | with_reducible assumption | with_reducible apply compare_canon))

theorem execLtI_canon (i : Issue) (s : State) (hw : Canon s) : ∀ r, (execLtI i s) = .next r → Canon r := by
  intro r e; unfold execLtI at e; injection e with e; subst e; (repeat' (first
      | with_reducible assumption | with_reducible apply compare_canon))

theorem execLtu_canon (i : Issue) (s : State) (hw : Canon s) : ∀ r, (execLtu i s) = .next r → Canon r := by
  intro r e; unfold execLtu at e; injection e with e; subst e; (repeat' (first
      | with_reducible assumption | with_reducible apply compare_canon))

theorem execGeI_canon (i : Issue) (s : State) (hw : Canon s) : ∀ r, (execGeI i s) = .next r → Canon r := by
  intro r e; unfold execGeI at e; injection e with e; subst e; (repeat' (first
      | with_reducible assumption | with_reducible apply compare_canon))

theorem execGeu_canon (i : Issue) (s : State) (hw : Canon s) : ∀ r, (execGeu i s) = .next r → Canon r := by
  intro r e; unfold execGeu at e; injection e with e; subst e; (repeat' (first
      | with_reducible assumption | with_reducible apply compare_canon))

theorem execFeq_canon (i : Issue) (s : State) (hw : Canon s) : ∀ r, (execFeq i s) = .next r → Canon r := by
  intro r e; unfold execFeq at e; injection e with e; subst e; (repeat' (first
      | with_reducible assumption | with_reducible apply fcompare_canon))

theorem execFlt_canon (i : Issue) (s : State) (hw : Canon s) : ∀ r, (execFlt i s) = .next r → Canon r := by
  intro r e; unfold execFlt at e; injection e with e; subst e; (repeat' (first
      | with_reducible assumption | with_reducible apply fcompare_canon))

theorem execFle_canon (i : Issue) (s : State) (hw : Canon s) : ∀ r, (execFle i s) = .next r → Canon r := by
  intro r e; unfold execFle at e; injection e with e; subst e; (repeat' (first
      | with_reducible assumption | with_reducible apply fcompare_canon))

theorem execFunCmp_canon (i : Issue) (s : State) (hw : Canon s) : ∀ r, (execFunCmp i s) = .next r → Canon r := by
  intro r e; unfold execFunCmp at e; injection e with e; subst e; (repeat' (first
      | with_reducible assumption | with_reducible apply fcompare_canon))

theorem execPand_canon (i : Issue) (s : State) (hw : Canon s) : ∀ r, (execPand i s) = .next r → Canon r := by
  intro r e; unfold execPand at e; injection e with e; subst e; (repeat' (first
      | with_reducible assumption | with_reducible apply predOp_canon))

theorem execPor_canon (i : Issue) (s : State) (hw : Canon s) : ∀ r, (execPor i s) = .next r → Canon r := by
  intro r e; unfold execPor at e; injection e with e; subst e; (repeat' (first
      | with_reducible assumption | with_reducible apply predOp_canon))

theorem execPxor_canon (i : Issue) (s : State) (hw : Canon s) : ∀ r, (execPxor i s) = .next r → Canon r := by
  intro r e; unfold execPxor at e; injection e with e; subst e; (repeat' (first
      | with_reducible assumption | with_reducible apply predOp_canon))

theorem execPnot_canon (i : Issue) (s : State) (hw : Canon s) : ∀ r, (execPnot i s) = .next r → Canon r := by
  intro r e; unfold execPnot at e; injection e with e; subst e; (repeat' (first
      | with_reducible assumption | with_reducible apply predOp_canon))

theorem execPset_canon (i : Issue) (s : State) (hw : Canon s) : ∀ r, (execPset i s) = .next r → Canon r := by
  intro r e; unfold execPset at e; injection e with e; subst e; (repeat' (first
      | with_reducible assumption | with_reducible apply predOp_canon))

theorem execPget_canon (i : Issue) (s : State) (hw : Canon s) : ∀ r, (execPget i s) = .next r → Canon r := by
  intro r e; unfold execPget at e; injection e with e; subst e; (repeat' (first
      | with_reducible assumption | with_reducible apply predOp_canon))

theorem execFadd_canon (i : Issue) (s : State) (hw : Canon s) : ∀ r, (execFadd i s) = .next r → Canon r := by
  intro r e; unfold execFadd at e; injection e with e; subst e; (repeat' (first
      | with_reducible assumption | with_reducible apply fop_canon))

theorem execFsub_canon (i : Issue) (s : State) (hw : Canon s) : ∀ r, (execFsub i s) = .next r → Canon r := by
  intro r e; unfold execFsub at e; injection e with e; subst e; (repeat' (first
      | with_reducible assumption | with_reducible apply fop_canon))

theorem execFmul_canon (i : Issue) (s : State) (hw : Canon s) : ∀ r, (execFmul i s) = .next r → Canon r := by
  intro r e; unfold execFmul at e; injection e with e; subst e; (repeat' (first
      | with_reducible assumption | with_reducible apply fop_canon))

theorem execFfma_canon (i : Issue) (s : State) (hw : Canon s) : ∀ r, (execFfma i s) = .next r → Canon r := by
  intro r e; unfold execFfma at e; injection e with e; subst e; (repeat' (first
      | with_reducible assumption | with_reducible apply fop_canon))

theorem execFdiv_canon (i : Issue) (s : State) (hw : Canon s) : ∀ r, (execFdiv i s) = .next r → Canon r := by
  intro r e; unfold execFdiv at e; injection e with e; subst e; (repeat' (first
      | with_reducible assumption | with_reducible apply fop_canon))

theorem execFsqrt_canon (i : Issue) (s : State) (hw : Canon s) : ∀ r, (execFsqrt i s) = .next r → Canon r := by
  intro r e; unfold execFsqrt at e; injection e with e; subst e; (repeat' (first
      | with_reducible assumption | with_reducible apply fop_canon))

theorem execFmin_canon (i : Issue) (s : State) (hw : Canon s) : ∀ r, (execFmin i s) = .next r → Canon r := by
  intro r e; unfold execFmin at e; injection e with e; subst e; (repeat' (first
      | with_reducible assumption | with_reducible apply fop_canon))

theorem execFmax_canon (i : Issue) (s : State) (hw : Canon s) : ∀ r, (execFmax i s) = .next r → Canon r := by
  intro r e; unfold execFmax at e; injection e with e; subst e; (repeat' (first
      | with_reducible assumption | with_reducible apply fop_canon))

theorem execFcvti_canon (i : Issue) (s : State) (hw : Canon s) : ∀ r, (execFcvti i s) = .next r → Canon r := by
  intro r e; unfold execFcvti at e; injection e with e; subst e; (repeat' (first
      | with_reducible assumption | with_reducible apply fop_canon))

theorem execFcvtf_canon (i : Issue) (s : State) (hw : Canon s) : ∀ r, (execFcvtf i s) = .next r → Canon r := by
  intro r e; unfold execFcvtf at e; injection e with e; subst e; (repeat' (first
      | intro _ | with_reducible assumption | with_reducible apply issue_canon | with_reducible apply retire_canon))

theorem execFabs_canon (i : Issue) (s : State) (hw : Canon s) : ∀ r, (execFabs i s) = .next r → Canon r := by
  intro r e; unfold execFabs at e; injection e with e; subst e; (repeat' (first
      | with_reducible assumption | with_reducible apply fop_canon))

theorem execFneg_canon (i : Issue) (s : State) (hw : Canon s) : ∀ r, (execFneg i s) = .next r → Canon r := by
  intro r e; unfold execFneg at e; injection e with e; subst e; (repeat' (first
      | with_reducible assumption | with_reducible apply fop_canon))

theorem execBr_canon (i : Issue) (s : State) (hw : Canon s) : ∀ r, (execBr i s) = .next r → Canon r := by
  intro r e; unfold execBr at e; injection e with e; subst e; (repeat' (first
      | intro _ | with_reducible assumption | with_reducible apply issue_canon | with_reducible apply updThread_canon))

theorem execJal_canon (i : Issue) (s : State) (hw : Canon s) : ∀ r, (execJal i s) = .next r → Canon r := by
  intro r e; unfold execJal at e; injection e with e; subst e; (repeat' (first
      | intro _ | with_reducible assumption | with_reducible apply issue_canon | with_reducible apply updThread_canon))

/-! JetMemory. -/

theorem memFlits_canon (s : State) (out : Nat) (back : Nat) (hw : Canon s) : Canon (memFlits s out back) := by
  exact canon_of (memFlits_cells s out back) hw

theorem execLd_canon (i : Issue) (s : State) (hw : Canon s) : ∀ r, (execLd i s) = .next r → Canon r := by
  intro r e; unfold execLd at e; injection e with e; subst e; (repeat' (first
      | intro _ | with_reducible assumption | with_reducible apply canon_ite | with_reducible apply accessFault_canon
      | with_reducible apply issue_canon | with_reducible apply startWait_canon | with_reducible apply memFlits_canon
      | with_reducible apply threadFault_canon | with_reducible apply retire_canon | with_reducible apply memFaults_canon
      | split))

theorem execSt_canon (i : Issue) (s : State) (hw : Canon s) : ∀ r, (execSt i s) = .next r → Canon r := by
  intro r e; unfold execSt at e; injection e with e; subst e; (repeat' (first
      | intro _ | with_reducible assumption | with_reducible apply canon_ite | with_reducible apply writePhys_canon
      | with_reducible apply accessFault_canon | with_reducible apply issue_canon | with_reducible apply startWait_canon
      | with_reducible apply memFlits_canon | with_reducible apply threadFault_canon | with_reducible apply retire_canon
      | split))

theorem atom_canon (op : Nat) (g : Nat → Nat → Nat → Nat → Nat) (i : Issue) (s : State) (hw : Canon s) : Canon
    (atom op g i s) := by
  unfold atom; (repeat' (first
      | intro _ | with_reducible assumption | with_reducible apply canon_ite | with_reducible apply writePhys_canon
      | with_reducible apply issue_canon | with_reducible apply threadFault_canon | with_reducible apply retire_canon
      | with_reducible apply memFaults_canon))

theorem execAadd_canon (i : Issue) (s : State) (hw : Canon s) : ∀ r, (execAadd i s) = .next r → Canon r := by
  intro r e; unfold execAadd at e; injection e with e; subst e; (repeat' (first
      | with_reducible assumption | with_reducible apply atom_canon))

theorem execAswap_canon (i : Issue) (s : State) (hw : Canon s) : ∀ r, (execAswap i s) = .next r → Canon r := by
  intro r e; unfold execAswap at e; injection e with e; subst e; (repeat' (first
      | with_reducible assumption | with_reducible apply atom_canon))

theorem execAcas_canon (i : Issue) (s : State) (hw : Canon s) : ∀ r, (execAcas i s) = .next r → Canon r := by
  intro r e; unfold execAcas at e; injection e with e; subst e; (repeat' (first
      | with_reducible assumption | with_reducible apply atom_canon))

theorem execAmin_canon (i : Issue) (s : State) (hw : Canon s) : ∀ r, (execAmin i s) = .next r → Canon r := by
  intro r e; unfold execAmin at e; injection e with e; subst e; (repeat' (first
      | with_reducible assumption | with_reducible apply atom_canon))

theorem execAmax_canon (i : Issue) (s : State) (hw : Canon s) : ∀ r, (execAmax i s) = .next r → Canon r := by
  intro r e; unfold execAmax at e; injection e with e; subst e; (repeat' (first
      | with_reducible assumption | with_reducible apply atom_canon))

theorem execAminu_canon (i : Issue) (s : State) (hw : Canon s) : ∀ r, (execAminu i s) = .next r → Canon r := by
  intro r e; unfold execAminu at e; injection e with e; subst e; (repeat' (first
      | with_reducible assumption | with_reducible apply atom_canon))

theorem execAmaxu_canon (i : Issue) (s : State) (hw : Canon s) : ∀ r, (execAmaxu i s) = .next r → Canon r := by
  intro r e; unfold execAmaxu at e; injection e with e; subst e; (repeat' (first
      | with_reducible assumption | with_reducible apply atom_canon))

theorem execAand_canon (i : Issue) (s : State) (hw : Canon s) : ∀ r, (execAand i s) = .next r → Canon r := by
  intro r e; unfold execAand at e; injection e with e; subst e; (repeat' (first
      | with_reducible assumption | with_reducible apply atom_canon))

theorem execAor_canon (i : Issue) (s : State) (hw : Canon s) : ∀ r, (execAor i s) = .next r → Canon r := by
  intro r e; unfold execAor at e; injection e with e; subst e; (repeat' (first
      | with_reducible assumption | with_reducible apply atom_canon))

theorem execFence_canon (i : Issue) (s : State) (hw : Canon s) : ∀ r, (execFence i s) = .next r → Canon r := by
  intro r e; unfold execFence at e; injection e with e; subst e; (repeat' (first
      | intro _ | with_reducible assumption | with_reducible apply canon_ite | with_reducible apply issue_canon
      | with_reducible apply startWait_canon | with_reducible apply retire_canon))

theorem execIflush_canon (i : Issue) (s : State) (hw : Canon s) : ∀ r, (execIflush i s) = .next r → Canon r := by
  intro r e; unfold execIflush at e; injection e with e; subst e; (repeat' (first
      | intro _ | with_reducible assumption | with_reducible apply issue_canon | with_reducible apply retire_canon
      | dsimp only | (with_reducible apply canon_mem; with_reducible assumption)))

theorem execBulk_canon (i : Issue) (s : State) (hw : Canon s) : ∀ r, (execBulk i s) = .next r → Canon r := by
  intro r e; unfold execBulk at e; injection e with e; subst e; (repeat' (first
      | intro _ | with_reducible assumption | with_reducible apply canon_ite | with_reducible apply accessFault_canon
      | with_reducible apply issue_canon | with_reducible apply startWait_canon | with_reducible apply memFlits_canon
      | with_reducible apply threadFault_canon))

theorem execWop_canon (i : Issue) (s : State) (hw : Canon s) : ∀ r, (execWop i s) = .next r → Canon r := by
  intro r e; unfold execWop at e; injection e with e; subst e; (repeat' (first
      | intro _ | with_reducible assumption | with_reducible apply canon_ite | with_reducible apply accessFault_canon
      | with_reducible apply issue_canon | with_reducible apply memFlits_canon | with_reducible apply threadFault_canon
      | with_reducible apply retire_canon | with_reducible apply memFaults_canon | split | dsimp only
      | (with_reducible apply canon_cells; with_reducible assumption)))

theorem bulkChunk_canon (s : State) (ns : List Nat) (toJlm : Bool) (ext : Loc) (loc : Nat) (hw : Canon s) : Canon
    (bulkChunk s ns toJlm ext loc) := by
  unfold bulkChunk; (repeat' (first
      | with_reducible assumption | with_reducible apply canon_ite | with_reducible apply writeLoc_canon
      | with_reducible apply writePhys_canon | with_reducible apply readLoc_canon))

theorem bulkChunks_canon (ns : List Nat) (toJlm : Bool) (a2 : Nat) (a3 : State) (a4 : List (Loc × Nat)) (a5 : Nat) (hw
    : Canon a3) : Canon (bulkChunks ns toJlm a2 a3 a4 a5).1 := by
  induction a2 generalizing a3 a4 a5 with
  | zero => exact hw
  | succ n ih =>
    unfold bulkChunks
    split
    · exact hw
    · exact ih _ _ _ (bulkChunk_canon _ _ _ _ _ hw)

theorem bulkChunks_keeps {ns : List Nat} {toJlm : Bool} {a2 : Nat} {a3 : State} {a4 : List (Loc × Nat)} {a5 : Nat} {q_
    : List (Loc × Nat) × Nat} {r_ : State} (he : (bulkChunks ns toJlm a2 a3 a4 a5) = (r_, q_)) (hw : Canon a3)
    : Canon r_ := by
  have := bulkChunks_canon ns toJlm a2 a3 a4 a5 hw
  rw [he] at this
  exact this

theorem execMemAccessComplete_canon (jet : Nat) (thread : Nat) (chunks : Nat) (fs : List MemFault) (s : State) (hw
    : Canon s) : ∀ r, (execMemAccessComplete jet thread chunks fs s) = .next r → Canon r := by
  intro r e; unfold execMemAccessComplete at e; injection e with e; subst e; (repeat' (first
      | intro _ | with_reducible assumption | with_reducible apply canon_ite | with_reducible apply endWait_canon
      | with_reducible apply writeLoc_canon | with_reducible apply updThread_canon | with_reducible apply memFaults_canon
      | split | with_reducible apply readLoc_canon | with_reducible apply bulkChunks_canon))

theorem barArrive_canon (s : State) (c : Nat) (j : Nat) (t : Nat) (h : Nat) (d : Nat) (hw : Canon s) : Canon
    (barArrive s c j t h d) := by
  exact canon_of (barArrive_cells s c j t h d) hw

/-! JetMessage. -/

theorem countP0_canon (s : State) (n : Nat) (hw : Canon s) : Canon (countP0 s n) := by
  exact canon_of (countP0_cells s n) hw

theorem sendNow_canon (s : State) (j : Nat) (t : Nat) (idx : Nat) (data : List Byte) (tag : Nat) (hw : Canon s) : Canon
    (sendNow s j t idx data tag) := by
  exact canon_of (sendNow_cells s j t idx data tag) hw

theorem takeMsg_canon (s : State) (j : Nat) (ch : Nat) (k : Nat) (hw : Canon s) : Canon (takeMsg s j ch k) := by
  exact canon_of (takeMsg_cells s j ch k) hw

theorem wakeReceiver_canon (s : State) (j : Nat) (ch : Nat) (src : Nat) (hw : Canon s) : Canon
    (wakeReceiver s j ch src) := by
  exact canon_of (wakeReceiver_cells s j ch src) hw

theorem answer_canon (s : State) (r : ConnReq) (granted : Bool) (credits : Nat) (largest : Nat) (hw : Canon s) : Canon
    (answer s r granted credits largest) := by
  exact canon_of (answer_cells s r granted credits largest) hw

theorem decideReq_canon (s : State) (r : ConnReq) (hw : Canon s) : Canon (decideReq s r) := by
  exact canon_of (decideReq_cells s r) hw

theorem closeIfDone_canon (s : State) (j : Nat) (ch : Nat) (hw : Canon s) : Canon (closeIfDone s j ch) := by
  exact canon_of (closeIfDone_cells s j ch) hw

theorem finishDisc_canon (s : State) (j : Nat) (idx : Nat) (hw : Canon s) : Canon (finishDisc s j idx) := by
  exact canon_of (finishDisc_cells s j idx) hw

theorem execChopen_canon (i : Issue) (s : State) (hw : Canon s) : ∀ r, (execChopen i s) = .next r → Canon r := by
  intro r e; unfold execChopen at e; injection e with e; subst e; (repeat' (first
      | intro _ | with_reducible assumption | with_reducible apply canon_ite | with_reducible apply decideReq_canon
      | with_reducible apply issue_canon | with_reducible apply threadFault_canon | with_reducible apply retire_canon
      | with_reducible apply canon_foldl | dsimp only
      | (with_reducible apply canon_mem; with_reducible apply updChan_canon)))

theorem execChclose_canon (i : Issue) (s : State) (hw : Canon s) : ∀ r, (execChclose i s) = .next r → Canon r := by
  intro r e; unfold execChclose at e; injection e with e; subst e; (repeat' (first
      | intro _ | with_reducible assumption | with_reducible apply canon_ite | with_reducible apply updChan_canon
      | with_reducible apply issue_canon | with_reducible apply closeIfDone_canon | with_reducible apply startWait_canon
      | with_reducible apply threadFault_canon | with_reducible apply retire_canon))

theorem execConn_canon (i : Issue) (s : State) (hw : Canon s) : ∀ r, (execConn i s) = .next r → Canon r := by
  intro r e; unfold execConn at e; injection e with e; subst e; (repeat' (first
      | intro _ | with_reducible assumption | with_reducible apply canon_ite | with_reducible apply countP0_canon
      | with_reducible apply setBit_canon | with_reducible apply issue_canon | with_reducible apply startWait_canon
      | with_reducible apply threadFault_canon | with_reducible apply retire_canon | split | dsimp only
      | (with_reducible apply canon_mem; with_reducible apply updConn_canon)))

theorem execDisc_canon (i : Issue) (s : State) (hw : Canon s) : ∀ r, (execDisc i s) = .next r → Canon r := by
  intro r e; unfold execDisc at e; injection e with e; subst e; (repeat' (first
      | intro _ | with_reducible assumption | with_reducible apply canon_ite | with_reducible apply issue_canon
      | with_reducible apply finishDisc_canon | with_reducible apply startWait_canon
      | with_reducible apply threadFault_canon))

theorem sendOp_canon (fn : Nat) (nb : Bool) (toPort : Bool) (i : Issue) (s : State) (hw : Canon s) : Canon
    (sendOp fn nb toPort i s) := by
  unfold sendOp; (repeat' (first
      | intro _ | with_reducible assumption | with_reducible apply canon_ite | with_reducible apply sendNow_canon
      | with_reducible apply bump_canon | with_reducible apply issue_canon | with_reducible apply startWait_canon
      | with_reducible apply threadFault_canon | with_reducible apply retire_canon
      | with_reducible apply memFaults_canon))

theorem execSend_canon (i : Issue) (s : State) (hw : Canon s) : ∀ r, (execSend i s) = .next r → Canon r := by
  intro r e; unfold execSend at e; injection e with e; subst e; (repeat' (first
      | with_reducible assumption | with_reducible apply sendOp_canon))

theorem execSendNb_canon (i : Issue) (s : State) (hw : Canon s) : ∀ r, (execSendNb i s) = .next r → Canon r := by
  intro r e; unfold execSendNb at e; injection e with e; subst e; (repeat' (first
      | with_reducible assumption | with_reducible apply sendOp_canon))

theorem execFeed_canon (i : Issue) (s : State) (hw : Canon s) : ∀ r, (execFeed i s) = .next r → Canon r := by
  intro r e; unfold execFeed at e; injection e with e; subst e; (repeat' (first
      | with_reducible assumption | with_reducible apply sendOp_canon))

theorem execFeedNb_canon (i : Issue) (s : State) (hw : Canon s) : ∀ r, (execFeedNb i s) = .next r → Canon r := by
  intro r e; unfold execFeedNb at e; injection e with e; subst e; (repeat' (first
      | with_reducible assumption | with_reducible apply sendOp_canon))

theorem recvOp_canon (fn : Nat) (nb : Bool) (named : Bool) (i : Issue) (s : State) (hw : Canon s) : Canon
    (recvOp fn nb named i s) := by
  unfold recvOp; (repeat' (first
      | intro _ | with_reducible assumption | with_reducible apply canon_ite | with_reducible apply issue_canon
      | with_reducible apply startWait_canon | with_reducible apply threadFault_canon | with_reducible apply takeMsg_canon
      | with_reducible apply retire_canon | split | dsimp only))

theorem execRecv_canon (i : Issue) (s : State) (hw : Canon s) : ∀ r, (execRecv i s) = .next r → Canon r := by
  intro r e; unfold execRecv at e; injection e with e; subst e; (repeat' (first
      | with_reducible assumption | with_reducible apply recvOp_canon))

theorem execRecvNb_canon (i : Issue) (s : State) (hw : Canon s) : ∀ r, (execRecvNb i s) = .next r → Canon r := by
  intro r e; unfold execRecvNb at e; injection e with e; subst e; (repeat' (first
      | with_reducible assumption | with_reducible apply recvOp_canon))

theorem execRecvs_canon (i : Issue) (s : State) (hw : Canon s) : ∀ r, (execRecvs i s) = .next r → Canon r := by
  intro r e; unfold execRecvs at e; injection e with e; subst e; (repeat' (first
      | with_reducible assumption | with_reducible apply recvOp_canon))

theorem execRecvsNb_canon (i : Issue) (s : State) (hw : Canon s) : ∀ r, (execRecvsNb i s) = .next r → Canon r := by
  intro r e; unfold execRecvsNb at e; injection e with e; subst e; (repeat' (first
      | with_reducible assumption | with_reducible apply recvOp_canon))

theorem slotCredit_canon (s : State) (j : Nat) (ch : Nat) (m : Slot) (hw : Canon s) : Canon (slotCredit s j ch m) := by
  exact canon_of (slotCredit_cells s j ch m) hw

theorem execMsgfree_canon (i : Issue) (s : State) (hw : Canon s) : ∀ r, (execMsgfree i s) = .next r → Canon r := by
  intro r e; unfold execMsgfree at e; injection e with e; subst e; (repeat' (first
      | intro _ | with_reducible assumption | with_reducible apply canon_ite | with_reducible apply slotCredit_canon
      | with_reducible apply updChan_canon | with_reducible apply issue_canon | with_reducible apply threadFault_canon
      | with_reducible apply retire_canon | split))

/-! JetThread. -/

theorem execBarinit_canon (i : Issue) (s : State) (hw : Canon s) : ∀ r, (execBarinit i s) = .next r → Canon r := by
  intro r e; unfold execBarinit at e; injection e with e; subst e; (repeat' (first
      | intro _ | with_reducible assumption | with_reducible apply canon_ite | with_reducible apply issue_canon
      | with_reducible apply updBar_canon | with_reducible apply threadFault_canon | with_reducible apply retire_canon
      | split | dsimp only))

theorem execBararr_canon (i : Issue) (s : State) (hw : Canon s) : ∀ r, (execBararr i s) = .next r → Canon r := by
  intro r e; unfold execBararr at e; injection e with e; subst e; (repeat' (first
      | intro _ | with_reducible assumption | with_reducible apply canon_ite | with_reducible apply barArrive_canon
      | with_reducible apply issue_canon | with_reducible apply startWait_canon | with_reducible apply threadFault_canon
      | split | dsimp only))

theorem execBarwait_canon (i : Issue) (s : State) (hw : Canon s) : ∀ r, (execBarwait i s) = .next r → Canon r := by
  intro r e; unfold execBarwait at e; injection e with e; subst e; (repeat' (first
      | intro _ | with_reducible assumption | with_reducible apply canon_ite | with_reducible apply issue_canon
      | with_reducible apply startWait_canon | with_reducible apply threadFault_canon | with_reducible apply retire_canon
      | split | dsimp only))

theorem spawn_canon (fn : Nat) (feed : Bool) (i : Issue) (s : State) (hw : Canon s) : Canon (spawn fn feed i s) := by
  unfold spawn; (repeat' (first
      | intro _ | with_reducible assumption | with_reducible apply issue_canon | with_reducible apply updThread_canon
      | with_reducible apply retire_canon | split | dsimp only))

theorem execSpawnNormal_canon (i : Issue) (s : State) (hw : Canon s) : ∀ r, (execSpawnNormal i s) = .next r → Canon r := by
  intro r e; unfold execSpawnNormal at e; injection e with e; subst e; (repeat' (first
      | with_reducible assumption | with_reducible apply spawn_canon))

theorem execSpawnFeed_canon (i : Issue) (s : State) (hw : Canon s) : ∀ r, (execSpawnFeed i s) = .next r → Canon r := by
  intro r e; unfold execSpawnFeed at e; injection e with e; subst e; (repeat' (first
      | with_reducible assumption | with_reducible apply spawn_canon))

theorem launchedExit_canon (s : State) (c : Nat) (who : Nat) (hw : Canon s) : Canon (launchedExit s c who) := by
  exact canon_of (launchedExit_cells s c who) hw

theorem execExitThread_canon (i : Issue) (s : State) (hw : Canon s) : ∀ r, (execExitThread i s) = .next r → Canon r := by
  intro r e; unfold execExitThread at e; injection e with e; subst e; (repeat' (first
      | intro _ | with_reducible assumption | with_reducible apply issue_canon | with_reducible apply orphanWops_canon
      | with_reducible apply leaveBar_canon | with_reducible apply updThread_canon
      | with_reducible apply launchedExit_canon | with_reducible apply canon_foldl))

theorem execGetst_canon (i : Issue) (s : State) (hw : Canon s) : ∀ r, (execGetst i s) = .next r → Canon r := by
  intro r e; unfold execGetst at e; injection e with e; subst e; (repeat' (first
      | intro _ | with_reducible assumption | with_reducible apply issue_canon | with_reducible apply retire_canon))

theorem execClrflg_canon (i : Issue) (s : State) (hw : Canon s) : ∀ r, (execClrflg i s) = .next r → Canon r := by
  intro r e; unfold execClrflg at e; injection e with e; subst e; (repeat' (first
      | intro _ | with_reducible assumption | with_reducible apply issue_canon | with_reducible apply retire_canon))

theorem execRdtime_canon (i : Issue) (s : State) (hw : Canon s) : ∀ r, (execRdtime i s) = .next r → Canon r := by
  intro r e; unfold execRdtime at e; injection e with e; subst e; (repeat' (first
      | intro _ | with_reducible assumption | with_reducible apply issue_canon | with_reducible apply retire_canon))

theorem execPoison_canon (i : Issue) (s : State) (hw : Canon s) : ∀ r, (execPoison i s) = .next r → Canon r := by
  intro r e; unfold execPoison at e; injection e with e; subst e; (repeat' (first
      | intro _ | with_reducible assumption | with_reducible apply updCtx_canon | with_reducible apply issue_canon
      | with_reducible apply retire_canon))

/-! UnitConn. -/

theorem unitFree_canon (s : State) (ep : Nat) (i : Nat) (hw : Canon s) : Canon (unitFree s ep i) := by
  exact canon_of (unitFree_cells s ep i) hw

/-! JetEvents. -/

theorem execHopRetransmit_canon (hop : Nat) (failures : Nat) (s : State) (hw : Canon s) : ∀ r,
    (execHopRetransmit hop failures s) = .next r → Canon r := by
  intro r e; unfold execHopRetransmit at e; injection e with e; subst e; (repeat' (first
      | with_reducible assumption | with_reducible apply canon_ite | with_reducible apply bump_canon
      | with_reducible apply setBit_canon | with_reducible apply raise_canon))

theorem acked_canon (s : State) (hw : Canon s) : Canon (acked s) := by
  exact canon_of (acked_cells s) hw

theorem dropMsg_canon (s : State) (k : Nat) (hw : Canon s) : Canon (dropMsg s k) := by
  exact canon_of (dropMsg_cells s k) hw

theorem discardMsg_canon (s : State) (hw : Canon s) : Canon (discardMsg s) := by
  exact canon_of (discardMsg_cells s) hw

theorem storeMsg_canon (s : State) (m : Msg) (k : Nat) (hw : Canon s) : Canon (storeMsg s m k) := by
  unfold storeMsg; (repeat' (first
      | with_reducible assumption | with_reducible apply writePhys_canon | with_reducible apply updChan_canon
      | with_reducible apply wakeReceiver_canon))

theorem execMessageArrival_canon (k : Nat) (slot : Nat) (s : State) (hw : Canon s) : ∀ r,
    (execMessageArrival k slot s) = .next r → Canon r := by
  intro r e; unfold execMessageArrival at e; injection e with e; subst e; (repeat' (first
      | with_reducible assumption | with_reducible apply canon_ite | with_reducible apply dropMsg_canon
      | with_reducible apply inject_canon | with_reducible apply updConn_canon | with_reducible apply storeMsg_canon
      | with_reducible apply finishDisc_canon | with_reducible apply unitFree_canon
      | with_reducible apply discardMsg_canon | with_reducible apply acked_canon | split))

theorem rowPortReq_canon (s : State) (r : ConnReq) (hw : Canon s) : Canon (rowPortReq s r) := by
  exact canon_of (rowPortReq_cells s r) hw

theorem chanterReq_canon (s : State) (r : ConnReq) (hw : Canon s) : Canon (chanterReq s r) := by
  exact canon_of (chanterReq_cells s r) hw

theorem linkReq_canon (s : State) (r : ConnReq) (hw : Canon s) : Canon (linkReq s r) := by
  unfold linkReq; (repeat' (first
      | with_reducible assumption | with_reducible apply inject_canon | with_reducible apply answer_canon
      | with_reducible apply updConn_canon | split))

theorem jetReq_canon (s : State) (r : ConnReq) (hw : Canon s) : Canon (jetReq s r) := by
  exact canon_of (jetReq_cells s r) hw

theorem execConnectionRequest_canon (k : Nat) (fs : List MemFault) (s : State) (hw : Canon s) : ∀ r,
    (execConnectionRequest k s fs) = .next r → Canon r := by
  intro r e; unfold execConnectionRequest at e; injection e with e; subst e; (repeat' (first
      | intro _ | with_reducible assumption | with_reducible apply canon_ite | with_reducible apply chanterReq_canon
      | with_reducible apply answer_canon | with_reducible apply jetReq_canon | with_reducible apply rowPortReq_canon
      | with_reducible apply linkReq_canon | with_reducible apply memFaults_canon | split | dsimp only
      | (with_reducible apply canon_mem; with_reducible assumption)))

theorem moveToSpare_canon (s : State) (jet : Nat) (hw : Canon s) : Canon (moveToSpare s jet) := by
  exact canon_of (moveToSpare_cells s jet) hw

theorem stopTerrace_canon (s : State) (t : Nat) (hw : Canon s) : Canon (stopTerrace s t) := by
  exact canon_of (stopTerrace_cells s t) hw

theorem resumeTerrace_canon (s : State) (t : Nat) (hw : Canon s) : Canon (resumeTerrace s t) := by
  exact canon_of (resumeTerrace_cells s t) hw

theorem breakJet_canon (s : State) (jet : Nat) (hw : Canon s) : Canon (breakJet s jet) := by
  exact canon_of (breakJet_cells s jet) hw

theorem retireJet_canon (s : State) (jet : Nat) (hw : Canon s) : Canon (retireJet s jet) := by
  unfold retireJet; (repeat' (first
      | with_reducible assumption | with_reducible apply fresh_canon | with_reducible apply breakJet_canon
      | with_reducible apply writePhys_canon | with_reducible apply moveToSpare_canon))

theorem execJetSubstitution_canon (jet : Nat) (good : Bool) (s : State) (hw : Canon s) : ∀ r,
    (execJetSubstitution jet good s) = .next r → Canon r := by
  intro r e; unfold execJetSubstitution at e; injection e with e; subst e; (repeat' (first
      | with_reducible assumption | with_reducible apply canon_ite | with_reducible apply stopTerrace_canon
      | with_reducible apply breakJet_canon | with_reducible apply setBit_canon | with_reducible apply retireJet_canon
      | with_reducible apply moveToSpare_canon | with_reducible apply resumeTerrace_canon
      | with_reducible apply raise_canon))

/-! Weir. -/

theorem writeUn_canon (s : State) (c : Nat) (va : Nat) (bs : List Byte) (hw : Canon s) : Canon (writeUn s c va bs) := by
  unfold writeUn; (repeat' (first | with_reducible assumption | with_reducible apply writePhys_canon | split))

theorem writeAcross_canon (s : State) (c : Nat) (va : Nat) (bs : List Byte) (hw : Canon s) : Canon
    (writeAcross s c va bs) := by
  unfold writeAcross; (repeat' (first
      | intro _ | with_reducible assumption | with_reducible apply writeUn_canon | with_reducible apply canon_foldl))

theorem zeroUn_canon (s : State) (c : Nat) (va : Nat) (n : Nat) (hw : Canon s) : Canon (zeroUn s c va n) := by
  unfold zeroUn; (repeat' (first
      | intro _ | with_reducible assumption | with_reducible apply zeroPhys_canon | with_reducible apply canon_foldl
      | split))

theorem poisonCtx_canon (s : State) (c : Nat) (hw : Canon s) : Canon (poisonCtx s c) := by
  exact canon_of (poisonCtx_cells s c) hw

theorem updRegion_canon (s : State) (n : Nat) (f : Region → Region) (hw : Canon s) : Canon (updRegion s n f) := by
  exact canon_of (updRegion_cells s n f) hw

theorem lineDone_canon (s : State) (g : Region) (i : Nat) (cs : List (Option Cls)) (hw : Canon s) : Canon
    (lineDone s g i cs) := by
  unfold lineDone; (repeat' (first
      | with_reducible assumption | with_reducible apply canon_ite | with_reducible apply zeroUn_canon
      | with_reducible apply setBit_canon | with_reducible apply poisonCtx_canon | with_reducible apply updRegion_canon
      | split | dsimp only | (with_reducible apply canon_mem; with_reducible apply updRegion_canon)
      | (with_reducible apply canon_cells; with_reducible apply updRegion_canon)))

theorem weirReject_canon (s : State) (c : Nat) (cause : Nat) (stack : Nat) (region : Nat) (src : Nat) (hw : Canon s)
    : Canon (weirReject s c cause stack region src) := by
  exact canon_of (weirReject_cells s c cause stack region src) hw

theorem weirEnd_canon (s : State) (r : WReq) (hw : Canon s) : Canon (weirEnd s r) := by
  exact canon_of (weirEnd_cells s r) hw

theorem applyLine_canon (s : State) (pa : Nat) (op : Nat) (ty : Nat) (fromIdentity : Bool) (rnd : Nat → Rnd) (line
    : List Byte) (hw : Canon s) : Canon (applyLine s pa op ty fromIdentity rnd line) := by
  unfold applyLine; (repeat' (first
      | with_reducible assumption | with_reducible apply bump_canon | with_reducible apply writePhys_canon))

theorem weirPlain_canon (s : State) (r : WReq) (pa : Nat) (g : Option Region) (hw : Canon s) : Canon
    (weirPlain s r pa g) := by
  unfold weirPlain; (repeat' (first
      | with_reducible assumption | with_reducible apply canon_ite | with_reducible apply lineDone_canon
      | with_reducible apply writeUn_canon | with_reducible apply applyLine_canon | split))

theorem applyTag_canon (g : Region) (i : Nat) (pa : Nat) (t : Nat) (line : List Byte) (s : State) (hw : Canon s) : Canon
    (applyTag g i pa t line s) := by
  unfold applyTag; (repeat' (first | with_reducible assumption | with_reducible apply applyLine_canon))

theorem applyStaged_canon (g : Region) (i : Nat) (pa : Nat) (a3 : Nat) (a4 : Nat) (a5 : State) (hw : Canon a5) : Canon
    (applyStaged g i pa a3 a4 a5).1 := by
  induction a3 generalizing a4 a5 with
  | zero => exact hw
  | succ n ih =>
    unfold applyStaged; dsimp only
    split
    · exact ih _ _ (applyTag_canon _ _ _ _ _ _ hw)
    · exact hw

theorem applyStaged_keeps {g : Region} {i : Nat} {pa : Nat} {a3 : Nat} {a4 : Nat} {a5 : State} {q_ : Nat} {r_ : State}
    (he : (applyStaged g i pa a3 a4 a5) = (r_, q_)) (hw : Canon a5) : Canon r_ := by
  have := applyStaged_canon g i pa a3 a4 a5 hw
  rw [he] at this
  exact this

theorem weirOrdered_canon (s : State) (r : WReq) (pa : Nat) (g : Region) (hw : Canon s) : Canon (weirOrdered s r pa g) := by
  unfold weirOrdered; (repeat' (first
      | with_reducible assumption | with_reducible apply canon_ite | with_reducible apply lineDone_canon
      | with_reducible apply writeUn_canon | with_reducible apply applyTag_canon
      | with_reducible apply applyStaged_canon))

theorem climb_canon (g : Region) (i : Nat) (a2 : Nat) (a3 : Nat) (a4 : Nat) (a5 : List W40) (a6 : State) (hw
    : Canon a6) : Canon (climb g i a2 a3 a4 a5 a6).1 := by
  induction a2 generalizing a3 a4 a5 a6 with
  | zero => exact hw
  | succ n ih =>
    unfold climb; dsimp only
    split
    · exact ih _ _ _ _ hw
    · split
      · exact ih _ _ _ _ (writeUn_canon _ _ _ _ hw)
      · exact writeUn_canon _ _ _ _ hw

theorem climb_keeps {g : Region} {i : Nat} {a2 : Nat} {a3 : Nat} {a4 : Nat} {a5 : List W40} {a6 : State} {q_ : Option
    (Nat × List W40)} {r_ : State} (he : (climb g i a2 a3 a4 a5 a6) = (r_, q_)) (hw : Canon a6) : Canon r_ := by
  have := climb_canon g i a2 a3 a4 a5 a6 hw
  rw [he] at this
  exact this

theorem addBlocks_canon (g : Region) (i : Nat) (a2 : Nat) (a3 : Nat) (a4 : State) (hw : Canon a4) : Canon
    (addBlocks g i a2 a3 a4).1 := by
  induction a2 generalizing a3 a4 with
  | zero => exact hw
  | succ n ih =>
    unfold addBlocks; dsimp only
    split
    · split
      · exact ih _ _ hw
      · exact ih _ _ (writeUn_canon _ _ _ _ (writeUn_canon _ _ _ _ hw))
    · exact hw

theorem addBlocks_keeps {g : Region} {i : Nat} {a2 : Nat} {a3 : Nat} {a4 : State} {q_ : Nat} {r_ : State} (he :
    (addBlocks g i a2 a3 a4) = (r_, q_)) (hw : Canon a4) : Canon r_ := by
  have := addBlocks_canon g i a2 a3 a4 hw
  rw [he] at this
  exact this

theorem partialResult_canon (s : State) (g : Region) (i : Nat) (v : List W40) (hw : Canon s) : Canon
    (partialResult s g i v) := by
  unfold partialResult; (repeat' (first
      | intro _ | with_reducible assumption | with_reducible apply canon_ite | with_reducible apply lineDone_canon
      | with_reducible apply writeUn_canon | with_reducible apply writeAcross_canon | with_reducible apply canon_foldl))

theorem raiseLongsum_canon (s : State) (g : Region) (stack : Nat) (hw : Canon s) : Canon (raiseLongsum s g stack) := by
  exact canon_of (raiseLongsum_cells s g stack) hw

theorem weirExact_canon (s : State) (r : WReq) (pa : Nat) (g : Region) (hw : Canon s) : Canon (weirExact s r pa g) := by
  unfold weirExact; (repeat' (first
      | with_reducible assumption | with_reducible apply canon_ite | with_reducible apply bump_canon
      | with_reducible apply partialResult_canon | with_reducible apply writeUn_canon
      | with_reducible apply updRegion_canon | with_reducible apply raiseLongsum_canon
      | (with_reducible refine climb_keeps (by with_reducible assumption) ?_) | split
      | with_reducible apply addBlocks_canon | dsimp only))

theorem weirApply_canon (s : State) (r : WReq) (hw : Canon s) : Canon (weirApply s r) := by
  unfold weirApply; (repeat' (first
      | with_reducible assumption | with_reducible apply weirEnd_canon | with_reducible apply weirPlain_canon
      | with_reducible apply weirExact_canon | with_reducible apply weirOrdered_canon
      | with_reducible apply weirReject_canon | split | dsimp only))

theorem weirRow_canon (mode : Nat) (k : Nat) (failures : Nat) (fs : List MemFault) (s : State) (hw : Canon s) : Canon
    (weirRow mode k failures fs s) := by
  unfold weirRow; (repeat' (first
      | intro _ | with_reducible assumption | with_reducible apply canon_ite | with_reducible apply weirEnd_canon
      | with_reducible apply setBit_canon | with_reducible apply weirApply_canon | with_reducible apply raise_canon
      | with_reducible apply memFaults_canon | split | dsimp only
      | (with_reducible apply canon_cells; with_reducible assumption)))

theorem execWeirPlainRequest_canon (k : Nat) (failures : Nat) (fs : List MemFault) (s : State) (hw : Canon s) : ∀ r,
    (execWeirPlainRequest k failures s fs) = .next r → Canon r := by
  intro r e; unfold execWeirPlainRequest at e; injection e with e; subst e; (repeat' (first
      | with_reducible assumption | with_reducible apply weirRow_canon))

theorem execWeirOrderedRequest_canon (k : Nat) (failures : Nat) (fs : List MemFault) (s : State) (hw : Canon s) : ∀ r,
    (execWeirOrderedRequest k failures s fs) = .next r → Canon r := by
  intro r e; unfold execWeirOrderedRequest at e; injection e with e; subst e; (repeat' (first
      | with_reducible assumption | with_reducible apply weirRow_canon))

theorem execWeirExactPartial_canon (k : Nat) (failures : Nat) (fs : List MemFault) (s : State) (hw : Canon s) : ∀ r,
    (execWeirExactPartial k failures s fs) = .next r → Canon r := by
  intro r e; unfold execWeirExactPartial at e; injection e with e; subst e; (repeat' (first
      | with_reducible assumption | with_reducible apply weirRow_canon))

/-! BasinOps. -/

theorem setBank_canon (s : State) (b : Nat) (k : Nat) (f : Bank → Bank) (hw : Canon s) : Canon (setBank s b k f) := by
  exact canon_of (setBank_cells s b k f) hw

theorem updItem_canon (s : State) (b : Nat) (seq : BitVec 32) (f : Item → Item) (hw : Canon s) : Canon
    (updItem s b seq f) := by
  exact canon_of (updItem_cells s b seq f) hw

theorem updRun_canon (s : State) (b : Nat) (seq : BitVec 32) (f : PassRun → PassRun) (hw : Canon s) : Canon
    (updRun s b seq f) := by
  exact canon_of (updRun_cells s b seq f) hw

theorem rdCtx_canon (s : State) (c : Nat) (va : Nat) (n : Nat) (hw : Canon s) : Canon (rdCtx s c va n).2 := by
  unfold rdCtx
  split
  · exact ctxRead_canon _ _ _ _ hw _ (by assumption)
  · exact hw

theorem rdCtx_keeps {s : State} {c : Nat} {va : Nat} {n : Nat} {q_ : List Byte} {r_ : State} (he : (rdCtx s c va n) =
    (q_, r_)) (hw : Canon s) : Canon r_ := by
  have := rdCtx_canon s c va n hw
  rw [he] at this
  exact this

theorem wrCtx_canon (s : State) (c : Nat) (va : Nat) (bs : List Byte) (hw : Canon s) : Canon (wrCtx s c va bs) := by
  unfold wrCtx
  cases e : ctxWrite s c va bs with
  | none => exact hw
  | some r => exact ctxWrite_canon s c va bs hw r e

theorem closeConns_canon (s : State) (b : Nat) (cs : List (Nat × Nat × Nat)) (hw : Canon s) : Canon (closeConns s b cs) := by
  exact canon_of (closeConns_cells s b cs) hw

theorem haltQueue_canon (s : State) (b : Nat) (hw : Canon s) : Canon (haltQueue s b) := by
  exact canon_of (haltQueue_cells s b) hw

theorem itemOut_canon (s : State) (b : Nat) (seq : BitVec 32) (comp : Bool) (ctr : Nat) (hw : Canon s) : Canon
    (itemOut s b seq comp ctr) := by
  exact canon_of (itemOut_cells s b seq comp ctr) hw

theorem itemDone_canon (s : State) (b : Nat) (seq : BitVec 32) (comp : Bool) (ctr : Nat) (hw : Canon s) : Canon
    (itemDone s b seq comp ctr) := by
  exact canon_of (itemDone_cells s b seq comp ctr) hw

theorem itemFail_canon (s : State) (b : Nat) (seq : BitVec 32) (st : ItemStatus) (hw : Canon s) : Canon
    (itemFail s b seq st) := by
  exact canon_of (itemFail_cells s b seq st) hw

/-! Bellows. -/

theorem settle_canon (s : State) (hw : Canon s) : Canon (settle s) := by
  exact canon_of (settle_cells s) hw

/-! SpoutOps. -/

theorem updDrain_canon (s : State) (b : Nat) (seq : BitVec 32) (f : PassDrain → PassDrain) (hw : Canon s) : Canon
    (updDrain s b seq f) := by
  exact canon_of (updDrain_cells s b seq f) hw

theorem spoutPoison_canon (s : State) (b : Nat) (c : Nat) (hw : Canon s) : Canon (spoutPoison s b c) := by
  exact canon_of (spoutPoison_cells s b c) hw

theorem countClasses_canon (s : State) (b : Nat) (c : Nat) (exempt : Bool) (cs : List (Option Cls)) (hw : Canon s)
    : Canon (countClasses s b c exempt cs) := by
  exact canon_of (countClasses_cells s b c exempt cs) hw

theorem readMasked_canon (s : State) (c : Nat) (a : Nat) (maskE : Nat) (w : Nat) (hw : Canon s) : Canon
    (readMasked s c a maskE w).2 := by
  unfold readMasked; (repeat' (first
      | intro _ | with_reducible assumption | (with_reducible refine rdCtx_keeps (by with_reducible assumption) ?_)
      | with_reducible apply canon_foldl_snd | split | with_reducible apply rdCtx_canon))

theorem readMasked_keeps {s : State} {c : Nat} {a : Nat} {maskE : Nat} {w : Nat} {q_ : List Byte} {r_ : State} (he :
    (readMasked s c a maskE w) = (q_, r_)) (hw : Canon s) : Canon r_ := by
  have := readMasked_canon s c a maskE w hw
  rw [he] at this
  exact this

theorem readSlot_canon (s : State) (d : PassDrain) (r : Nat) (l : Nat) (w : Nat) (maskE : Nat) (hw : Canon s) : Canon
    (readSlot s d r l w maskE).2 := by
  unfold readSlot; (repeat' (first
      | with_reducible assumption | (with_reducible refine readMasked_keeps (by with_reducible assumption) ?_) | split))

theorem readSlot_keeps {s : State} {d : PassDrain} {r : Nat} {l : Nat} {w : Nat} {maskE : Nat} {q_ : List W40} {r_
    : State} (he : (readSlot s d r l w maskE) = (q_, r_)) (hw : Canon s) : Canon r_ := by
  have := readSlot_canon s d r l w maskE hw
  rw [he] at this
  exact this

theorem writeSlot_canon (s : State) (d : PassDrain) (r : Nat) (l : Nat) (maskE : Nat) (vs : List W40) (hw : Canon s)
    : Canon (writeSlot s d r l maskE vs) := by
  unfold writeSlot; dsimp only
  split
  · exact wrCtx_canon _ _ _ _ hw
  · exact canon_foldl (fun s x hs => canon_ite (wrCtx_canon _ _ _ _ hs) hs) hw

theorem readSlots_canon (s : State) (d : PassDrain) (r : Nat) (w : Nat) (maskE : Nat) (hw : Canon s) : Canon
    (readSlots s d r w maskE).2 := by
  unfold readSlots; (repeat' (first
      | intro _ | with_reducible assumption | (with_reducible refine readSlot_keeps (by with_reducible assumption) ?_)
      | with_reducible apply canon_foldl_snd | split))

theorem readSlots_keeps {s : State} {d : PassDrain} {r : Nat} {w : Nat} {maskE : Nat} {q_ : List (Nat × List W40)} {r_
    : State} (he : (readSlots s d r w maskE) = (q_, r_)) (hw : Canon s) : Canon r_ := by
  have := readSlots_canon s d r w maskE hw
  rw [he] at this
  exact this

theorem ktRow_canon (s : State) (d : PassDrain) (r : Nat) (maskE : Nat) (out : List W40) (hw : Canon s) : Canon
    (ktRow s d r maskE out).1 := by
  unfold ktRow; (repeat' (first
      | with_reducible assumption | with_reducible apply writeSlot_canon
      | (with_reducible refine readSlots_keeps (by with_reducible assumption) ?_) | split))

theorem ktRow_keeps {s : State} {d : PassDrain} {r : Nat} {maskE : Nat} {out : List W40} {q_ : Option (List W40)} {r_
    : State} (he : (ktRow s d r maskE out) = (r_, q_)) (hw : Canon s) : Canon r_ := by
  have := ktRow_canon s d r maskE out hw
  rw [he] at this
  exact this

theorem deliverRow_canon (s : State) (b : Nat) (d : PassDrain) (drain : Bool) (r : Nat) (segs : Nat) (cv : Converted)
    (set : List Ranked) (rt : Routing) (hw : Canon s) : Canon (deliverRow s b d drain r segs cv set rt).1 := by
  unfold deliverRow; (repeat' (first
      | intro _ | with_reducible assumption | with_reducible apply canon_ite | with_reducible apply updSpout_canon
      | with_reducible apply countClasses_canon | with_reducible apply updDrain_canon | with_reducible apply wrCtx_canon
      | with_reducible apply canon_foldl))

theorem deliverRow_keeps {s : State} {b : Nat} {d : PassDrain} {drain : Bool} {r : Nat} {segs : Nat} {cv
    : Converted} {set : List Ranked} {rt : Routing} {q_ : Routing} {r_ : State} (he :
    (deliverRow s b d drain r segs cv set rt) = (r_, q_)) (hw : Canon s) : Canon r_ := by
  have := deliverRow_canon s b d drain r segs cv set rt hw
  rw [he] at this
  exact this

theorem sideOutput_canon (s : State) (b : Nat) (d : PassDrain) (r : Nat) (row : List SVal) (hw : Canon s) : Canon
    (sideOutput s b d r row) := by
  unfold sideOutput; (repeat' (first
      | with_reducible assumption | with_reducible apply canon_ite | with_reducible apply countClasses_canon
      | with_reducible apply wrCtx_canon))

theorem updGroup_canon (s : State) (b : Nat) (i : Nat) (f : ColGroup → ColGroup) (hw : Canon s) : Canon
    (updGroup s b i f) := by
  exact canon_of (updGroup_cells s b i f) hw

theorem phase1_canon (s : State) (b : Nat) (i : Nat) (d : PassDrain) (r : Nat) (row : List SVal) (hw : Canon s) : Canon
    (phase1 s b i d r row) := by
  exact canon_of (phase1_cells s b i d r row) hw

theorem writePairs_canon (s : State) (b : Nat) (d : PassDrain) (r : Nat) (ps : List (F32 × F32)) (hw : Canon s) : Canon
    (writePairs s b d r ps) := by
  unfold writePairs; (repeat' (first
      | with_reducible assumption | with_reducible apply canon_ite | with_reducible apply countClasses_canon
      | with_reducible apply wrCtx_canon))

theorem phase2_canon (s : State) (b : Nat) (i : Nat) (g : ColGroup) (d : PassDrain) (r : Nat) (hw : Canon s) : Canon
    (phase2 s b i g d r) := by
  unfold phase2; (repeat' (first
      | with_reducible assumption | with_reducible apply writePairs_canon | with_reducible apply updGroup_canon
      | with_reducible apply wrCtx_canon | split | with_reducible apply deliverRow_canon
      | with_reducible apply rdCtx_canon))

theorem finishRow_canon (s : State) (b : Nat) (d : PassDrain) (drain : Bool) (r : Nat) (maskE : Nat) (out : List W40)
    (hw : Canon s) : Canon (finishRow s b d drain r maskE out) := by
  unfold finishRow; (repeat' (first
      | with_reducible assumption | with_reducible apply updDrain_canon | with_reducible apply sideOutput_canon
      | with_reducible apply phase1_canon | split | with_reducible apply deliverRow_canon | dsimp only))

theorem maskAt_canon (s : State) (c : Nat) (raw : List Byte) (r : Nat) (hw : Canon s) : Canon (maskAt s c raw r).2 := by
  unfold maskAt; (repeat' (first
      | with_reducible assumption | (with_reducible refine rdCtx_keeps (by with_reducible assumption) ?_) | split))

theorem maskAt_keeps {s : State} {c : Nat} {raw : List Byte} {r : Nat} {q_ : Nat} {r_ : State} (he :
    (maskAt s c raw r) = (q_, r_)) (hw : Canon s) : Canon r_ := by
  have := maskAt_canon s c raw r hw
  rw [he] at this
  exact this

theorem pumpRows_canon (b : Nat) (seq : BitVec 32) (a2 : Nat) (a3 : State) (hw : Canon a3) : Canon
    (pumpRows b seq a2 a3) := by
  induction a2 generalizing a3 with
  | zero => exact hw
  | succ n ih =>
    unfold pumpRows
    split
    · exact hw
    · split
      · exact hw
      · split
        · rename_i d _ _ drain r out rest_ _ _
          have h1 := updDrain_canon a3 b seq (fun d => { d with waiting := rest_ }) hw
          dsimp only
          apply ih
          apply finishRow_canon
          split
          · exact h1
          · exact maskAt_canon _ _ _ _ h1
        · exact hw

theorem spoutRow_canon (s : State) (b : Nat) (seq : BitVec 32) (drain : Bool) (r : Nat) (out : List W40) (hw : Canon s)
    : Canon (spoutRow s b seq drain r out) := by
  unfold spoutRow; (repeat' (first
      | with_reducible assumption | with_reducible apply updDrain_canon | with_reducible apply pumpRows_canon
      | (with_reducible refine maskAt_keeps (by with_reducible assumption) ?_)
      | (with_reducible refine canon_ite_fst (by with_reducible assumption) ?_ ?_) | split
      | with_reducible apply ktRow_canon))

theorem readConf_canon (s : State) (d : PassDrain) (r : Nat) (w : Nat) (l : Nat) (hw : Canon s) : Canon
    (readConf s d r w l).2 := by
  unfold readConf; (repeat' (first
      | with_reducible assumption | (with_reducible refine rdCtx_keeps (by with_reducible assumption) ?_) | split))

theorem readConf_keeps {s : State} {d : PassDrain} {r : Nat} {w : Nat} {l : Nat} {q_ : List Nat} {r_ : State} (he :
    (readConf s d r w l) = (q_, r_)) (hw : Canon s) : Canon r_ := by
  have := readConf_canon s d r w l hw
  rw [he] at this
  exact this

theorem writeConf_canon (s : State) (d : PassDrain) (r : Nat) (w : Nat) (l : Nat) (vs : List Nat) (hw : Canon s) : Canon
    (writeConf s d r w l vs) := by
  unfold writeConf; (repeat' (first
      | with_reducible assumption | with_reducible apply canon_ite | with_reducible apply wrCtx_canon))

theorem confRow_canon (s : State) (b : Nat) (seq : BitVec 32) (k : Bank) (r : Nat) (data : List Byte) (hw : Canon s)
    : Canon (confRow s b seq k r data) := by
  unfold confRow; (repeat' (first
      | with_reducible assumption | with_reducible apply canon_ite | with_reducible apply writeConf_canon | split
      | with_reducible apply deliverRow_canon | with_reducible apply readConf_canon))

theorem confDrainRow_canon (s : State) (b : Nat) (seq : BitVec 32) (r : Nat) (out : List W40) (hw : Canon s) : Canon
    (confDrainRow s b seq r out) := by
  unfold confDrainRow; (repeat' (first | with_reducible assumption | split | with_reducible apply deliverRow_canon))

/-! BasinRun. -/

theorem readRows_canon (c : Nat) (a : Nat) (stride : Nat) (len : Nat) (a4 : Nat) (a5 : State) (hw : Canon a5) : ∀ r,
    (readRows c a stride len a4 a5) = some r → Canon r.2 := by
  induction a4 generalizing a5 with
  | zero => intro r e; cases e; exact hw
  | succ n ih =>
    intro r e; unfold readRows at e
    cases h1 : readRows c a stride len n a5 with
    | none => rw [h1] at e; cases e
    | some q =>
      rw [h1] at e
      cases h2 : ctxRead q.2 c (a + n * stride) len with
      | none => simp only [h2] at e; cases e
      | some q2 =>
        simp only [h2] at e; cases e
        have := ctxRead_canon _ _ _ _ (ih a5 hw q h1) q2 h2
        exact this

theorem readRows_keeps {c : Nat} {a : Nat} {stride : Nat} {len : Nat} {a4 : Nat} {a5 : State} {q_ : List Byte} {r_
    : State} (he : (readRows c a stride len a4 a5) = some (q_, r_)) (hw : Canon a5) : Canon r_
    := readRows_canon c a stride len a4 a5 hw _ he

theorem readTile_canon (s : State) (c : Nat) (k : Bank) (hw : Canon s) : ∀ r, (readTile s c k) = some r → Canon r.2 := by
  intro r e; unfold readTile at e
  split at e
  · cases e
  · rename_i h1
    have c1 := readRows_canon _ _ _ _ _ _ hw _ h1
    split at e
    · cases e
    · rename_i h2
      have c2 := readRows_canon _ _ _ _ _ _ c1 _ h2
      split at e
      · cases e
      · rename_i h3
        cases e
        exact readRows_canon _ _ _ _ _ _ c2 _ h3

theorem readTile_keeps {s : State} {c : Nat} {k : Bank} {q_ : Bank} {r_ : State} (he : (readTile s c k) = some (q_, r_))
    (hw : Canon s) : Canon r_ := readTile_canon s c k hw _ he

theorem loadFail_canon (s : State) (b : Nat) (seq : BitVec 32) (st : ItemStatus) (hw : Canon s) : Canon
    (loadFail s b seq st) := by
  exact canon_of (loadFail_cells s b seq st) hw

theorem execLoadComplete_canon (b : Nat) (parity : Bool) (fs : List MemFault) (s : State) (hw : Canon s) : ∀ r,
    (execLoadComplete b parity s fs) = .next r → Canon r := by
  intro r e; unfold execLoadComplete at e; injection e with e; subst e; (repeat' (first
      | intro _ | with_reducible assumption | with_reducible apply canon_ite | with_reducible apply itemDone_canon
      | with_reducible apply setBank_canon | with_reducible apply loadFail_canon | with_reducible apply updBasin_canon
      | with_reducible apply memFaults_canon | (with_reducible refine readTile_keeps (by with_reducible assumption) ?_)
      | split | dsimp only))

theorem readSigma_canon (s : State) (c : Nat) (i : Nat) (hw : Canon s) : Canon (readSigma s c i).2 := by
  unfold readSigma; (repeat' (first
      | with_reducible assumption | (with_reducible refine rdCtx_keeps (by with_reducible assumption) ?_) | split))

theorem readSigma_keeps {s : State} {c : Nat} {i : Nat} {q_ : Int} {r_ : State} (he : (readSigma s c i) = (q_, r_)) (hw
    : Canon s) : Canon r_ := by
  have := readSigma_canon s c i hw
  rw [he] at this
  exact this

theorem initRecord_canon (s : State) (b : Nat) (c : Nat) (i : Nat) (prof : List Byte) (hw : Canon s) : Canon
    (initRecord s b c i prof) := by
  unfold initRecord; (repeat' (first
      | with_reducible assumption | with_reducible apply canon_ite | with_reducible apply setBit_canon
      | with_reducible apply ledgerRecord_canon | with_reducible apply wrCtx_canon))

theorem openRecord_canon (s : State) (b : Nat) (c : Nat) (prof : List Byte) (hw : Canon s) : Canon
    (openRecord s b c prof).2 := by
  unfold openRecord; (repeat' (first
      | with_reducible assumption | with_reducible apply initRecord_canon | split | with_reducible apply rdCtx_canon
      | dsimp only))

theorem openRecord_keeps {s : State} {b : Nat} {c : Nat} {prof : List Byte} {q_ : List Byte} {r_ : State} (he :
    (openRecord s b c prof) = (q_, r_)) (hw : Canon s) : Canon r_ := by
  have := openRecord_canon s b c prof hw
  rw [he] at this
  exact this

theorem noteScope_canon (s : State) (c : Nat) (prof : List Byte) (hw : Canon s) : Canon (noteScope s c prof) := by
  exact canon_of (noteScope_cells s c prof) hw

theorem startPass_canon (s : State) (b : Nat) (c : Nat) (i : Item) (prof : List Byte) (route : List Byte) (r
    : List Byte) (sa : Int) (sb : Int) (hw : Canon s) : Canon (startPass s b c i prof route r sa sb) := by
  exact canon_of (startPass_cells s b c i prof route r sa sb) hw

theorem execPassItem_canon (b : Nat) (fs : List MemFault) (s : State) (hw : Canon s) : ∀ r,
    (execPassItem b s fs) = .next r → Canon r := by
  intro r e; unfold execPassItem at e; injection e with e; subst e; (repeat' (first
      | intro _ | with_reducible assumption | with_reducible apply canon_ite | with_reducible apply setBit_canon
      | with_reducible apply itemFail_canon | with_reducible apply startPass_canon | with_reducible apply memFaults_canon
      | split | with_reducible apply openRecord_canon | with_reducible apply readSigma_canon | dsimp only))

theorem sendNote_canon (s : State) (b : Nat) (i : Nat) (flit : List Byte) (hw : Canon s) : Canon (sendNote s b i flit) := by
  exact canon_of (sendNote_cells s b i flit) hw

theorem takeSegment_canon (s : State) (k : Nat) (j : Nat) (hw : Canon s) : Canon (takeSegment s k j) := by
  exact canon_of (takeSegment_cells s k j) hw

theorem journalWrite_canon (s : State) (b : Nat) (data : List Byte) (hw : Canon s) : Canon (journalWrite s b data) := by
  unfold journalWrite; (repeat' (first
      | with_reducible assumption | with_reducible apply writePhys_canon | with_reducible apply updBasin_canon))

theorem segmentFor_canon (s : State) (b : Nat) (p : PassRun) (slots : Nat) (hw : Canon s) : ∀ r,
    (segmentFor s b p slots) = some r → Canon r := by
  intro r e; exact canon_of (segmentFor_cells s b p slots r e) hw

theorem segmentFor_keeps {s : State} {b : Nat} {p : PassRun} {slots : Nat} {r_ : State} (he :
    (segmentFor s b p slots) = some r_) (hw : Canon s) : Canon r_ := segmentFor_canon s b p slots hw _ he

theorem enterRows_canon (s : State) (b : Nat) (p : PassRun) (units : Nat) (rows : Nat) (rs : List ArrRow) (hw
    : Canon s) : Canon (enterRows s b p units rows rs) := by
  exact canon_of (enterRows_cells s b p units rows rs) hw

theorem passBubbles_canon (s : State) (b : Nat) (hw : Canon s) : Canon (passBubbles s b) := by
  exact canon_of (passBubbles_cells s b) hw

theorem acceptPart_canon (s : State) (b : Nat) (p : PassRun) (hw : Canon s) : ∀ r,
    (acceptPart s b p) = some r → Canon r := by
  intro r e; unfold acceptPart at e; dsimp -failIfUnchanged only at e; (repeat' split at e) <;> cases e <;> (repeat' (first
      | intro _ | with_reducible assumption | with_reducible apply bump_canon | with_reducible apply journalWrite_canon
      | with_reducible apply takeSegment_canon | with_reducible apply updRun_canon | with_reducible apply enterRows_canon
      | with_reducible apply passBubbles_canon
      | (with_reducible refine segmentFor_keeps (by with_reducible assumption) ?_) | with_reducible apply canon_foldl))

theorem acceptPart_keeps {s : State} {b : Nat} {p : PassRun} {r_ : State} (he : (acceptPart s b p) = some r_) (hw
    : Canon s) : Canon r_ := acceptPart_canon s b p hw _ he

theorem execRowAccept_canon (b : Nat) (fs : List MemFault) (s : State) (hw : Canon s) : ∀ r,
    (execRowAccept b s fs) = .next r → Canon r := by
  intro r e; unfold execRowAccept at e; injection e with e; subst e; (repeat' (first
      | intro _ | with_reducible assumption | with_reducible apply canon_ite | with_reducible apply itemFail_canon
      | with_reducible apply enterRows_canon | with_reducible apply memFaults_canon
      | (with_reducible refine acceptPart_keeps (by with_reducible assumption) ?_) | with_reducible apply canon_getD
      | split | with_reducible apply maskAt_canon))

theorem execZeroRowMarker_canon (b : Nat) (fs : List MemFault) (s : State) (hw : Canon s) : ∀ r,
    (execZeroRowMarker b s fs) = .next r → Canon r := by
  intro r e; unfold execZeroRowMarker at e; injection e with e; subst e; (repeat' (first
      | intro _ | with_reducible assumption | with_reducible apply canon_ite | with_reducible apply bump_canon
      | with_reducible apply itemFail_canon | with_reducible apply journalWrite_canon
      | with_reducible apply takeSegment_canon | with_reducible apply updRun_canon | with_reducible apply enterRows_canon
      | with_reducible apply memFaults_canon | (with_reducible refine segmentFor_keeps (by with_reducible assumption) ?_)
      | split | dsimp only))

/-! BasinRows. -/

theorem fedOutput_canon (s : State) (p : PassRun) (d : PassDrain) (front : Bank) (back : Bank) (row : ArrRow) (hw
    : Canon s) : Canon (fedOutput s p d front back row).2 := by
  unfold fedOutput; (repeat' (first | with_reducible assumption | split | with_reducible apply rdCtx_canon | dsimp only))

theorem fedOutput_keeps {s : State} {p : PassRun} {d : PassDrain} {front : Bank} {back : Bank} {row : ArrRow} {q_
    : List W40} {r_ : State} (he : (fedOutput s p d front back row) = (q_, r_)) (hw : Canon s) : Canon r_ := by
  have := fedOutput_canon s p d front back row hw
  rw [he] at this
  exact this

theorem rowAtSpout_canon (s : State) (b : Nat) (p : PassRun) (d : PassDrain) (row : ArrRow) (hw : Canon s) : Canon
    (rowAtSpout s b p d row) := by
  unfold rowAtSpout; (repeat' (first
      | with_reducible assumption | with_reducible apply updBasin_canon | split | with_reducible apply fedOutput_canon))

theorem execOutputRowAtSpout_canon (b : Nat) (fs : List MemFault) (s : State) (hw : Canon s) : ∀ r,
    (execOutputRowAtSpout b s fs) = .next r → Canon r := by
  intro r e; unfold execOutputRowAtSpout at e; injection e with e; subst e; (repeat' (first
      | intro _ | with_reducible assumption | with_reducible apply rowAtSpout_canon | with_reducible apply memFaults_canon
      | split | dsimp only))

theorem spoutRows_canon (s : State) (b : Nat) (seq : BitVec 32) (r : Nat) (n : Nat) (out : List W40) (hw : Canon s)
    : Canon (spoutRows s b seq r n out) := by
  unfold spoutRows; (repeat' (first
      | intro _ | with_reducible assumption | with_reducible apply spoutRow_canon | with_reducible apply canon_foldl))

theorem noteLongsum_canon (s : State) (b : Nat) (seq : BitVec 32) (hw : Canon s) : Canon (noteLongsum s b seq) := by
  exact canon_of (noteLongsum_cells s b seq) hw

theorem countLongsum_canon (s : State) (b : Nat) (n : Nat) (hw : Canon s) : Canon (countLongsum s b n) := by
  exact canon_of (countLongsum_cells s b n) hw

theorem replayStepDone_canon (s : State) (b : Nat) (seq : BitVec 32) (hw : Canon s) : Canon (replayStepDone s b seq) := by
  exact canon_of (replayStepDone_cells s b seq) hw

theorem rowGood_canon (s : State) (b : Nat) (p : PassRun) (d : PassDrain) (row : ArrRow) (hw : Canon s) : Canon
    (rowGood s b p d row) := by
  unfold rowGood; (repeat' (first
      | with_reducible assumption | with_reducible apply canon_ite | with_reducible apply spoutRow_canon
      | with_reducible apply confRow_canon | with_reducible apply noteLongsum_canon | with_reducible apply spoutRows_canon
      | with_reducible apply updBasin_canon | with_reducible apply replayStepDone_canon
      | with_reducible apply updRun_canon))

theorem discardRows_canon (s : State) (b : Nat) (hw : Canon s) : Canon (discardRows s b) := by
  exact canon_of (discardRows_cells s b) hw

theorem rowFailed_canon (s : State) (b : Nat) (p : PassRun) (row : ArrRow) (res : RowCheck) (hw : Canon s) : Canon
    (rowFailed s b p row res) := by
  unfold rowFailed; (repeat' (first
      | with_reducible assumption | with_reducible apply canon_ite | with_reducible apply discardRows_canon
      | with_reducible apply updBasin_canon | with_reducible apply raise_canon | with_reducible apply updRun_canon))

theorem recomputed_canon (s : State) (b : Nat) (n : Nat) (k : State → State) (hw : Canon s) (hk : ∀ x0, Canon x0 → Canon
    (k x0)) : Canon (recomputed s b n k) := by
  unfold recomputed; (repeat' (first
      | with_reducible assumption | with_reducible apply canon_ite | with_reducible apply hk
      | with_reducible apply raise_canon))

theorem drainChecked_canon (s : State) (b : Nat) (seq : BitVec 32) (r : Nat) (out : List W40) (res : RowCheck) (hw
    : Canon s) : Canon (drainChecked s b seq r out res) := by
  unfold drainChecked; (repeat' (first
      | intro _ | with_reducible assumption | with_reducible apply canon_ite | with_reducible apply spoutRow_canon
      | with_reducible apply recomputed_canon | with_reducible apply updDrain_canon | with_reducible apply updBasin_canon
      | with_reducible apply raise_canon | with_reducible apply updRun_canon | with_reducible apply confDrainRow_canon
      | split))

theorem execRowChecked_canon (b : Nat) (res : RowCheck) (fs : List MemFault) (s : State) (hw : Canon s) : ∀ r,
    (execRowChecked b res s fs) = .next r → Canon r := by
  intro r e; unfold execRowChecked at e; injection e with e; subst e; (repeat' (first
      | intro _ | with_reducible assumption | with_reducible apply canon_ite | with_reducible apply recomputed_canon
      | with_reducible apply itemFail_canon | with_reducible apply rowGood_canon | with_reducible apply drainChecked_canon
      | with_reducible apply rowFailed_canon | with_reducible apply memFaults_canon | split))

theorem sendAgain_canon (accum : Bool) (b : Nat) (fs : List MemFault) (shadow : Bool) (s : State) (hw : Canon s) : Canon
    (sendAgain accum b fs shadow s) := by
  unfold sendAgain; (repeat' (first
      | with_reducible assumption | with_reducible apply canon_ite | with_reducible apply updBasin_canon
      | with_reducible apply raise_canon | (with_reducible refine memChecks_keeps (by with_reducible assumption) ?_)
      | split))

theorem execRowReplay_canon (b : Nat) (fs : List MemFault) (s : State) (hw : Canon s) : ∀ r,
    (execRowReplay b s fs) = .next r → Canon r := by
  intro r e; unfold execRowReplay at e; injection e with e; subst e; (repeat' (first
      | with_reducible assumption | with_reducible apply sendAgain_canon))

theorem execSegmentReplay_canon (b : Nat) (fs : List MemFault) (shadow : Bool) (s : State) (hw : Canon s) : ∀ r,
    (execSegmentReplay b s fs shadow) = .next r → Canon r := by
  intro r e; unfold execSegmentReplay at e; injection e with e; subst e; (repeat' (first
      | with_reducible assumption | with_reducible apply sendAgain_canon))

theorem sourceChanged_canon (s : State) (b : Nat) (k : Nat) (hw : Canon s) : Canon (sourceChanged s b k) := by
  exact canon_of (sourceChanged_cells s b k) hw

theorem execBankReload_canon (b : Nat) (fs : List MemFault) (s : State) (hw : Canon s) : ∀ r,
    (execBankReload b s fs) = .next r → Canon r := by
  intro r e; unfold execBankReload at e; injection e with e; subst e; (repeat' (first
      | intro _ | with_reducible assumption | with_reducible apply canon_ite | with_reducible apply setBank_canon
      | with_reducible apply sourceChanged_canon | with_reducible apply updBasin_canon
      | with_reducible apply memFaults_canon | (with_reducible refine readTile_keeps (by with_reducible assumption) ?_)
      | split | dsimp only))

theorem execBasinSubstitution_canon (b : Nat) (shadow : Bool) (s : State) (hw : Canon s) : ∀ r,
    (execBasinSubstitution b s shadow) = .next r → Canon r := by
  intro r e; unfold execBasinSubstitution at e; injection e with e; subst e; (repeat' (first
      | with_reducible assumption | with_reducible apply canon_ite | with_reducible apply setBit_canon
      | with_reducible apply wrCtx_canon | with_reducible apply updBasin_canon | with_reducible apply raise_canon | split
      | dsimp only))

/-! Spout. -/

theorem execSideRowRead_canon (b : Nat) (row : Nat) (fs : List MemFault) (s : State) (hw : Canon s) : ∀ r,
    (execSideRowRead b row s fs) = .next r → Canon r := by
  intro r e; unfold execSideRowRead at e; injection e with e; subst e; (repeat' (first
      | intro _ | with_reducible assumption | with_reducible apply canon_ite | with_reducible apply updDrain_canon
      | with_reducible apply pumpRows_canon | with_reducible apply memFaults_canon | split
      | with_reducible apply rdCtx_canon))

theorem execRowKernelPhase2_canon (b : Nat) (g : Nat) (fs : List MemFault) (s : State) (hw : Canon s) : ∀ r,
    (execRowKernelPhase2 b g s fs) = .next r → Canon r := by
  intro r e; unfold execRowKernelPhase2 at e; injection e with e; subst e; (repeat' (first
      | intro _ | with_reducible assumption | with_reducible apply canon_ite | with_reducible apply phase2_canon
      | with_reducible apply memFaults_canon | split))

theorem unitGone_canon (s : State) (b : Nat) (k : Nat) (u : DUnit) (hw : Canon s) : Canon (unitGone s b k u) := by
  exact canon_of (unitGone_cells s b k u) hw

theorem sendPiece_canon (s : State) (b : Nat) (k : Nat) (u : DUnit) (n : Nat) (hw : Canon s) : Canon
    (sendPiece s b k u n) := by
  exact canon_of (sendPiece_cells s b k u n) hw

theorem sendNotice_canon (s : State) (b : Nat) (k : Nat) (hw : Canon s) : Canon (sendNotice s b k) := by
  exact canon_of (sendNotice_cells s b k) hw

theorem execSpoutDelivery_canon (b : Nat) (k : Nat) (s : State) (hw : Canon s) : ∀ r,
    (execSpoutDelivery b k s) = .next r → Canon r := by
  intro r e; unfold execSpoutDelivery at e; injection e with e; subst e; (repeat' (first
      | with_reducible assumption | with_reducible apply canon_ite | with_reducible apply sendNotice_canon
      | with_reducible apply unitGone_canon | with_reducible apply sendPiece_canon | with_reducible apply wrCtx_canon
      | split | dsimp only | (with_reducible apply canon_cells; with_reducible assumption)))

theorem mergeRecord_canon (s : State) (d : PassDrain) (hw : Canon s) : Canon (mergeRecord s d) := by
  unfold mergeRecord; (repeat' (first
      | with_reducible assumption | with_reducible apply canon_ite | with_reducible apply wrCtx_canon
      | with_reducible apply rdCtx_canon))

theorem routeStats_canon (s : State) (b : Nat) (d : PassDrain) (hw : Canon s) : Canon (routeStats s b d) := by
  unfold routeStats; (repeat' (first
      | with_reducible assumption | with_reducible apply canon_ite | with_reducible apply ledgerRecord_canon
      | with_reducible apply wrCtx_canon))

theorem completePass_canon (s : State) (b : Nat) (p : PassRun) (d : PassDrain) (hw : Canon s) : Canon
    (completePass s b p d) := by
  unfold completePass; (repeat' (first
      | with_reducible assumption | with_reducible apply canon_ite | with_reducible apply noteScope_canon
      | with_reducible apply updSpout_canon | with_reducible apply countLongsum_canon
      | with_reducible apply ledgerRecord_canon | with_reducible apply mergeRecord_canon
      | with_reducible apply closeConns_canon | with_reducible apply spoutPoison_canon
      | with_reducible apply sendNote_canon | with_reducible apply updBasin_canon | with_reducible apply haltQueue_canon
      | with_reducible apply routeStats_canon | with_reducible apply itemOut_canon | split))

theorem execPassComplete_canon (b : Nat) (fs : List MemFault) (s : State) (hw : Canon s) : ∀ r,
    (execPassComplete b s fs) = .next r → Canon r := by
  intro r e; unfold execPassComplete at e; injection e with e; subst e; (repeat' (first
      | intro _ | with_reducible assumption | with_reducible apply canon_ite | with_reducible apply itemFail_canon
      | with_reducible apply completePass_canon | with_reducible apply memFaults_canon | split))

/-! Contexts. -/

theorem clearUnits_canon (s : State) (ts : List Nat) (bs : List Nat) (hw : Canon s) : Canon (clearUnits s ts bs) := by
  unfold clearUnits
  apply canon_foldl
  · intro s x hs; exact updBasin_canon _ _ _ hs
  · apply canon_foldl
    · intro s x hs; exact updTerrace_canon _ _ _ hs
    · exact SMap.wf_clear (d := 0) hw (inJlm ts)

theorem grantUnits_canon (s : State) (c : Nat) (stopped : Bool) (hw : Canon s) : Canon (grantUnits s c stopped) := by
  unfold grantUnits; (repeat' (first
      | intro _ | with_reducible assumption | with_reducible apply updTerrace_canon
      | with_reducible apply clearUnits_canon | with_reducible apply updBasin_canon | with_reducible apply canon_foldl))

theorem putBasin_canon (c : Nat) (s : State) (e : Nat × Basin) (hw : Canon s) : Canon (putBasin c s e) := by
  exact canon_of (putBasin_cells c s e) hw

theorem putAll_wf : ∀ (v m : SMap Byte), SMap.wf 0 m = true → SMap.wf 0 (putAll 0 m v) = true
  | [], _, h => h
  | e :: v, m, h => putAll_wf v _ (SMap.wf_put h e.1 e.2)

theorem attach_canon (s : State) (c : Nat) (v : Save) (hw : Canon s) : Canon (attach s c v) := by
  unfold attach
  apply canon_foldl
  · intro s x hs; exact updBasin_canon _ _ _ hs
  · exact updPort_canon _ _ _ (putAll_wf v.jlm s.mem.cells hw)

theorem saveRouting_canon (s : State) (b : Nat) (hw : Canon s) : Canon (saveRouting s b) := by
  unfold saveRouting; (repeat' (first
      | intro _ | with_reducible assumption | with_reducible apply canon_ite | with_reducible apply wrCtx_canon
      | with_reducible apply canon_foldl))

theorem scramble_canon (s : State) (c : Nat) (va : Nat) (n : Nat) (hw : Canon s) : Canon (scramble s c va n) := by
  unfold scramble; (repeat' (first
      | with_reducible assumption | with_reducible apply fresh_canon | with_reducible apply wrCtx_canon))

theorem saveBasin_canon (s : State) (c : Nat) (b : Nat) (hw : Canon s) : Canon (saveBasin s c b) := by
  unfold saveBasin; (repeat' (first
      | with_reducible assumption | with_reducible apply canon_ite | with_reducible apply wrCtx_canon
      | with_reducible apply saveRouting_canon))

theorem writeSaves_canon (s : State) (c : Nat) (hw : Canon s) : Canon (writeSaves s c) := by
  unfold writeSaves; (repeat' (first
      | intro _ | with_reducible assumption | with_reducible apply saveBasin_canon | with_reducible apply scramble_canon
      | with_reducible apply canon_foldl))

theorem yielded_canon (s : State) (c : Nat) (hw : Canon s) : Canon (yielded s c) := by
  exact canon_of (yielded_cells s c) hw

theorem execTerracePreempt_canon (ctx : Nat) (s : State) (hw : Canon s) : ∀ r,
    (execTerracePreempt ctx s) = .next r → Canon r := by
  intro r e; unfold execTerracePreempt at e; injection e with e; subst e; (repeat' (first
      | with_reducible assumption | with_reducible apply canon_ite | with_reducible apply yielded_canon
      | with_reducible apply updCtx_canon | with_reducible apply writeSaves_canon
      | with_reducible apply clearUnits_canon))

theorem openAbove_canon (s : State) (ts : List Nat) (e : Nat) (hw : Canon s) : Canon (openAbove s ts e) := by
  unfold openAbove; (repeat' (first
      | intro _ | with_reducible assumption | with_reducible apply fresh_canon | with_reducible apply writePhys_canon
      | with_reducible apply canon_foldl))

theorem execContextResume_canon (ctx : Nat) (s : State) (hw : Canon s) : ∀ r,
    (execContextResume ctx s) = .next r → Canon r := by
  intro r e; unfold execContextResume at e; injection e with e; subst e; (repeat' (first
      | intro _ | with_reducible assumption | with_reducible apply canon_ite | with_reducible apply updTerrace_canon
      | with_reducible apply updCtx_canon | with_reducible apply attach_canon | with_reducible apply openAbove_canon
      | with_reducible apply wakeBar_canon | with_reducible apply canon_foldl | split | dsimp only))

theorem displace_canon (s : State) (d : Nat) (hw : Canon s) : Canon (displace s d) := by
  unfold displace; (repeat' (first
      | with_reducible assumption | with_reducible apply updCtx_canon | with_reducible apply clearUnits_canon))

theorem takeUnits_canon (s : State) (c : Nat) (hw : Canon s) : Canon (takeUnits s c) := by
  unfold takeUnits; (repeat' (first
      | intro _ | with_reducible assumption | with_reducible apply canon_ite | with_reducible apply updTerrace_canon
      | with_reducible apply grantUnits_canon | with_reducible apply updCtx_canon | with_reducible apply attach_canon
      | with_reducible apply updBasin_canon | with_reducible apply wakeBar_canon | with_reducible apply displace_canon
      | with_reducible apply canon_foldl | split))

theorem execContextSchedule_canon (ctx : Nat) (s : State) (hw : Canon s) : ∀ r,
    (execContextSchedule ctx s) = .next r → Canon r := by
  intro r e; unfold execContextSchedule at e; injection e with e; subst e; (repeat' (first
      | with_reducible assumption | with_reducible apply canon_ite | with_reducible apply updCtx_canon
      | with_reducible apply takeUnits_canon))

theorem freeSlice_canon (s : State) (n : Nat) (hw : Canon s) : Canon (freeSlice s n) := by
  unfold freeSlice; (repeat' (first
      | with_reducible assumption | with_reducible apply zeroPhys_canon | with_reducible apply updSlice_canon
      | with_reducible apply flushSlice_canon))

theorem endLease_canon (s : State) (c : Nat) (hw : Canon s) : Canon (endLease s c) := by
  unfold endLease; (repeat' (first
      | intro _ | with_reducible assumption | with_reducible apply freeSlice_canon | with_reducible apply updCtx_canon
      | with_reducible apply clearUnits_canon | dsimp only
      | (with_reducible apply canon_cells; with_reducible apply canon_foldl)))

/-! PowerRows. -/

theorem bellows_canon (s : State) (f : State → State) (hw : Canon s) (hk : ∀ x0, Canon x0 → Canon (f x0)) : Canon
    (bellows s f) := by
  unfold bellows; (repeat' (first
      | with_reducible assumption | with_reducible apply canon_ite | with_reducible apply hk
      | with_reducible apply settle_canon))

/-! RingOps. -/

theorem startCmd_canon (s : State) (c : Nat) (slot : Nat) (hw : Canon s) : Canon (startCmd s c slot) := by
  exact canon_of (startCmd_cells s c slot) hw

theorem withCmd_canon (s : State) (c : Nat) (op : Nat) (k : State → Cmd → State) (hw : Canon s) (hk
    : ∀ x0 x1, Canon x0 → Canon (k x0 x1)) : Canon (withCmd s c op k) := by
  unfold withCmd; (repeat' (first
      | with_reducible assumption | with_reducible apply canon_ite | with_reducible apply hk
      | with_reducible apply startCmd_canon | split))

theorem commandBad_canon (s : State) (c : Nat) (slot : Nat) (hw : Canon s) : Canon (commandBad s c slot) := by
  exact canon_of (commandBad_cells s c slot) hw

theorem hostFault_canon (s : State) (c : Nat) (hw : Canon s) : Canon (hostFault s c) := by
  exact canon_of (hostFault_cells s c) hw

theorem withSluiceCmd_canon (s : State) (c : Nat) (op : Nat) (k : State → Cmd → State) (hw : Canon s) (hk
    : ∀ x0 x1, Canon x0 → Canon (k x0 x1)) : Canon (withSluiceCmd s c op k) := by
  unfold withSluiceCmd; (repeat' (first
      | intro _ | with_reducible assumption | with_reducible apply canon_ite | with_reducible apply hk
      | with_reducible apply withCmd_canon | split))

theorem hostWrite_canon (s : State) (c : Nat) (addr : Nat) (data : List Byte) (hw : Canon s) : Canon
    (hostWrite s c addr data) := by
  exact canon_of (hostWrite_cells s c addr data) hw

/-! SluiceOps. -/

theorem setBlock_canon (s : State) (c : Nat) (n : Nat) (b : Option Block) (hw : Canon s) : Canon (setBlock s c n b) := by
  exact canon_of (setBlock_cells s c n b) hw

theorem setRoot_canon (s : State) (c : Nat) (n : Nat) (right : Bool) (r : Option Root) (hw : Canon s) : Canon
    (setRoot s c n right r) := by
  exact canon_of (setRoot_cells s c n right r) hw

theorem writeArr_canon (s : State) (c : Nat) (va : Nat) (bs : List Byte) (hw : Canon s) : Canon (writeArr s c va bs) := by
  unfold writeArr; (repeat' (first
      | intro _ | with_reducible assumption | with_reducible apply writeUn_canon | with_reducible apply canon_foldl))

theorem writeF_canon (s : State) (c : Nat) (va : Nat) (e : Nat) (x : F32) (hw : Canon s) : Canon (writeF s c va e x) := by
  unfold writeF; (repeat' (first | with_reducible assumption | with_reducible apply writeArr_canon))

theorem countOvf_canon (s : State) (n : Nat) (hw : Canon s) : Canon (countOvf s n) := by
  exact canon_of (countOvf_cells s n) hw

theorem putSlots_canon (s : State) (c : Nat) (d : List Byte) (e : Nat) (mu : F32) (nu : F32) (hw : Canon s) : Canon
    (putSlots s c d e mu nu) := by
  unfold putSlots; (repeat' (first
      | with_reducible assumption | with_reducible apply canon_ite | with_reducible apply writeF_canon))

theorem putCopy_canon (s : State) (c : Nat) (d : List Byte) (seed : Nat) (step : Nat) (e : Nat) (w : F32T) (t : Tally)
    (hw : Canon s) : Canon (putCopy s c d seed step e w t).1 := by
  unfold putCopy; (repeat' (first | with_reducible assumption | with_reducible apply writeArr_canon | split | dsimp only))

theorem putCopy_keeps {s : State} {c : Nat} {d : List Byte} {seed : Nat} {step : Nat} {e : Nat} {w : F32T} {t
    : Tally} {q_ : Tally} {r_ : State} (he : (putCopy s c d seed step e w t) = (r_, q_)) (hw : Canon s) : Canon r_ := by
  have := putCopy_canon s c d seed step e w t hw
  rw [he] at this
  exact this

theorem sluiceNote_canon (s : State) (c : Nat) (n : Nat) (d : List Byte) (kind : Nat) (step : Nat) (hw : Canon s)
    : Canon (sluiceNote s c n d kind step) := by
  exact canon_of (sluiceNote_cells s c n d kind step) hw

theorem writeRoot_canon (s : State) (c : Nat) (d : List Byte) (right : Bool) (x : SMap F32) (hw : Canon s) : Canon
    (writeRoot s c d right x) := by
  unfold writeRoot; (repeat' (first | with_reducible assumption | with_reducible apply writeArr_canon))

theorem installRoot_canon (s : State) (c : Nat) (n : Nat) (d : List Byte) (step : Nat) (right : Bool) (hw : Canon s)
    : Canon (installRoot s c n d step right) := by
  unfold installRoot; (repeat' (first
      | with_reducible assumption | with_reducible apply canon_ite | with_reducible apply setRoot_canon
      | with_reducible apply sluiceNote_canon | with_reducible apply writeRoot_canon | with_reducible apply bump_canon
      | split))

theorem startRoot_canon (s : State) (c : Nat) (n : Nat) (d : List Byte) (right : Bool) (hw : Canon s) : Canon
    (startRoot s c n d right) := by
  exact canon_of (startRoot_cells s c n d right) hw

theorem skip_canon (u : Upd) (m : Bool) (hw : Canon u.s) : Canon (u.skip m).s := hw

theorem normElem_canon (c : Nat) (d : List Byte) (step : Nat) (h : Hyper) (u : Upd) (e : Nat) (hw : Canon u.s) :
    Canon (normElem c d step h u e).s := by
  unfold normElem; dsimp only
  split
  · exact hw
  · dsimp only
    split
    · exact hw
    · exact writeF_canon _ _ _ _ _ hw

theorem upd_ite {p : Prop} [Decidable p] {x y : Upd} (hx : Canon x.s) (hy : Canon y.s) : Canon (if p then x else y).s := by
  split
  · exact hx
  · exact hy

theorem updElem_canon (c : Nat) (d : List Byte) (step : Nat) (h : Hyper) (sc : F32) (u : Upd) (e : Nat) (hw : Canon u.s) :
    Canon (updElem c d step h sc u e).s := by
  unfold updElem
  dsimp only
  refine upd_ite ?_ (upd_ite ?_ (upd_ite ?_ ?_))
  · exact hw
  · exact hw
  · exact hw
  · exact putCopy_canon _ _ _ _ _ _ _ _ (writeArr_canon _ _ _ _ (putSlots_canon _ _ _ _ _ _ hw))

theorem statElem_canon (c : Nat) (r : List Byte) (a : Nat) (h : Hyper) (u : Upd) (e : Nat) (hw : Canon u.s) :
    Canon (statElem c r a h u e).s := by
  unfold statElem; dsimp only
  split
  · exact hw
  · exact writeF_canon _ _ _ _ _ hw

theorem foldl_upd {α : Type} {f : Upd → α → Upd} (h : ∀ u x, Canon u.s → Canon (f u x).s) :
    ∀ (l : List α) {u : Upd}, Canon u.s → Canon (l.foldl f u).s
  | [], _, hs => hs
  | x :: l, _, hs => foldl_upd h l (h _ x hs)

theorem statUpdate_canon (c : Nat) (d : List Byte) (h : Hyper) (u : Upd) (hw : Canon u.s) :
    Canon (statUpdate c d h u).s := by
  unfold statUpdate
  exact foldl_upd (fun u x hu => statElem_canon _ _ _ _ u x hu) _
    (foldl_upd (fun u x hu => statElem_canon _ _ _ _ u x hu) _ hw)

theorem blockUpd_canon (c step : Nat) (r : List Byte) (s : State) (d : List Byte) (hw : Canon s) :
    Canon (blockUpd c step r s d).s := by
  unfold blockUpd
  dsimp only
  apply foldl_upd (fun u x hu => updElem_canon _ _ _ _ _ u x hu)
  apply upd_ite
  · apply statUpdate_canon
    exact upd_ite (foldl_upd (fun u x hu => normElem_canon _ _ _ _ u x hu) _ hw) hw
  · exact upd_ite (foldl_upd (fun u x hu => normElem_canon _ _ _ _ u x hu) _ hw) hw

theorem blockDone_canon (c step n : Nat) (b : Block) (u : Upd) (hw : Canon u.s) : Canon (blockDone c step n b u) := by
  unfold blockDone
  apply sluiceNote_canon
  have h1 := bump_canon _ (oSlc + 0x40) u.t.frozen (bump_canon _ (oSlc + 0x38) u.t.elems
    (countOvf_canon _ u.t.ovf (writeArr_canon u.s c (bkStatus b.raw) (statusLine step u.t) hw)))
  have h2 := setBlock_canon _ c n (some { raw := b.raw, bad := b.bad || u.t.masterBad })
    (canon_ite (p := u.t.masterBad = true) (setBit_canon _ (oSlc + 4) 7 h1) h1)
  exact canon_ite (poisonCtx_canon _ c h2) h2

theorem commitBlock_canon (c : Nat) (step : Nat) (r : List Byte) (s : State) (n : Nat) (hw : Canon s) :
    Canon (commitBlock c step r s n) := by
  unfold commitBlock
  split
  · exact hw
  · dsimp only
    have h1 := fun b => blockDone_canon c step n b _ (blockUpd_canon c step r s b.raw hw)
    split
    · have h2 := fun b : Block => installRoot_canon _ c n b.raw step true (installRoot_canon _ c n b.raw step false (h1 b))
      split
      · exact startRoot_canon _ _ _ _ _ (startRoot_canon _ _ _ _ _ (h2 _))
      · exact h2 _
    · exact h1 _

theorem rescan_canon (s : State) (c : Nat) (n : Nat) (hw : Canon s) : Canon (rescan s c n) := by
  exact canon_of (rescan_cells s c n) hw

theorem initCopy_canon (s : State) (c : Nat) (d : List Byte) (hw : Canon s) : Canon (initCopy s c d).1 := by
  unfold initCopy; dsimp only
  split
  · exact hw
  · apply canon_foldl_fst
    · intro a e ha; exact writeArr_canon _ _ _ _ ha
    · exact hw

theorem initCopy_keeps {s : State} {c : Nat} {d : List Byte} {q_ : Nat} {r_ : State} (he : (initCopy s c d) = (r_, q_))
    (hw : Canon s) : Canon r_ := by
  have := initCopy_canon s c d hw
  rw [he] at this
  exact this

theorem initBlock_canon (s : State) (c : Nat) (n : Nat) (d : List Byte) (hw : Canon s) : Canon (initBlock s c n d) := by
  unfold initBlock; (repeat' (first
      | intro _ | with_reducible assumption | with_reducible apply canon_ite | with_reducible apply writeRoot_canon
      | with_reducible apply countOvf_canon | with_reducible apply writeArr_canon | with_reducible apply setBlock_canon
      | with_reducible apply canon_foldl | split | with_reducible apply initCopy_canon))

theorem slcErr_canon (s : State) (bit : Nat) (hw : Canon s) : Canon (slcErr s bit) := by
  exact canon_of (slcErr_cells s bit) hw

theorem installBlock_canon (s : State) (c : Nat) (n : Nat) (d : List Byte) (hw : Canon s) : Canon
    (installBlock s c n d) := by
  unfold installBlock; (repeat' (first
      | with_reducible assumption | with_reducible apply canon_ite | with_reducible apply cisRefused_canon
      | with_reducible apply slcErr_canon | with_reducible apply initBlock_canon))

/-! Image. -/

theorem ctlWrite_canon (s : State) (x : Nat) (v : Nat) (hw : Canon s) : Canon (ctlWrite s x v) := by
  exact canon_of (ctlWrite_cells s x v) hw

theorem applyPairs_canon (s : State) (ps : List (Nat × Nat)) (hw : Canon s) : Canon (applyPairs s ps) := by
  exact canon_of (applyPairs_cells s ps) hw

/-! Spdm. -/

theorem updBoot_canon (s : State) (f : Boot → Boot) (hw : Canon s) : Canon (updBoot s f) := by
  exact canon_of (updBoot_cells s f) hw

theorem inVersion_canon (s : State) (req : List Byte) (k : State → State) (hw : Canon s) (hk : ∀ x0, Canon x0 → Canon
    (k x0)) : Canon (inVersion s req k) := by
  unfold inVersion; (repeat' (first
      | with_reducible assumption | with_reducible apply canon_ite | with_reducible apply hk
      | with_reducible apply emit_canon))

theorem spdmRelease_canon (s : State) (hw : Canon s) : Canon (spdmRelease s) := by
  exact canon_of (spdmRelease_cells s) hw

/-! Boot. -/

theorem resetModule_canon (s : State) (l : Ledger) (hw : Canon s) : Canon (resetModule s l) := by
  rfl

theorem lockout_canon (s : State) (high : Bool) (hw : Canon s) : Canon (lockout s high) := by
  unfold lockout; (repeat' (first
      | with_reducible assumption | dsimp only
      | (with_reducible apply canon_mem; with_reducible apply resetModule_canon)))

theorem execInputUndervoltage_canon (s : State) (hw : Canon s) : ∀ r, (execInputUndervoltage s) = .next r → Canon r := by
  intro r e; unfold execInputUndervoltage at e; injection e with e; subst e; (repeat' (first
      | with_reducible assumption | with_reducible apply canon_ite | with_reducible apply lockout_canon))

theorem execInputOvervoltage_canon (s : State) (hw : Canon s) : ∀ r, (execInputOvervoltage s) = .next r → Canon r := by
  intro r e; unfold execInputOvervoltage at e; injection e with e; subst e; (repeat' (first
      | with_reducible assumption | with_reducible apply canon_ite | with_reducible apply lockout_canon))

theorem execModRst_canon (s : State) (hw : Canon s) : ∀ r, (execModRst s) = .next r → Canon r := by
  intro r e; unfold execModRst at e; injection e with e; subst e; (repeat' (first
      | with_reducible assumption | dsimp only
      | (with_reducible apply canon_mem; with_reducible apply resetModule_canon)))

theorem bootDone_canon (s : State) (failed : Bool) (hw : Canon s) : Canon (bootDone s failed) := by
  exact canon_of (bootDone_cells s failed) hw

theorem createPorts_canon (s : State) (d : List Byte) (hw : Canon s) : Canon (createPorts s d) := by
  exact canon_of (createPorts_cells s d) hw

theorem applyChassis_canon (s : State) (d : List Byte) (hw : Canon s) : Canon (applyChassis s d) := by
  exact canon_of (applyChassis_cells s d) hw

theorem applyPlan_canon (s : State) (a : Applied) (hw : Canon s) : Canon (applyPlan s a) := by
  exact canon_of (applyPlan_cells s a) hw

theorem enablePorts_canon (s : State) (hw : Canon s) : Canon (enablePorts s) := by
  exact canon_of (enablePorts_cells s) hw

theorem lockBrake_canon (s : State) (hw : Canon s) : Canon (lockBrake s) := by
  exact canon_of (lockBrake_cells s) hw

theorem lockTimebase_canon (s : State) (hw : Canon s) : Canon (lockTimebase s) := by
  unfold lockTimebase; (repeat' (first
      | with_reducible assumption | with_reducible apply canon_ite | with_reducible apply setBit_canon
      | with_reducible apply raise_canon))

theorem lockStraps_canon (s : State) (hw : Canon s) : Canon (lockStraps s) := by
  exact canon_of (lockStraps_cells s) hw

theorem execConfigurationLock_canon (s : State) (hw : Canon s) : ∀ r, (execConfigurationLock s) = .next r → Canon r := by
  intro r e; unfold execConfigurationLock at e; injection e with e; subst e; (repeat' (first
      | with_reducible assumption | with_reducible apply canon_ite | with_reducible apply bootDone_canon
      | with_reducible apply spdmRelease_canon | with_reducible apply updBoot_canon | with_reducible apply settle_canon
      | with_reducible apply applyPairs_canon | with_reducible apply applyChassis_canon
      | with_reducible apply lockBrake_canon | with_reducible apply enablePorts_canon
      | with_reducible apply createPorts_canon | with_reducible apply lockStraps_canon
      | with_reducible apply applyPlan_canon | with_reducible apply lockTimebase_canon))

theorem updRefuse_canon (s : State) (hw : Canon s) : Canon (updRefuse s) := by
  exact canon_of (updRefuse_cells s) hw

theorem ofUpdate_canon (s : State) (path : Bool) (k : State → State) (hw : Canon s) (hk : ∀ x0, Canon x0 → Canon
    (k x0)) : Canon (ofUpdate s path k) := by
  unfold ofUpdate; (repeat' (first
      | with_reducible assumption | with_reducible apply canon_ite | with_reducible apply hk
      | with_reducible apply updRefuse_canon))

/-! Admin. -/

theorem finishDestroy_canon (s : State) (c : Nat) (hw : Canon s) : Canon (finishDestroy s c) := by
  unfold finishDestroy; (repeat' (first
      | intro _ | with_reducible assumption | with_reducible apply settle_canon | with_reducible apply updCtx_canon
      | with_reducible apply endLease_canon | with_reducible apply zeroPhys_canon | dsimp only
      | (with_reducible apply canon_cells; with_reducible apply canon_foldl)))

theorem destroyWhenFree_canon (s : State) (c : Nat) (hw : Canon s) : Canon (destroyWhenFree s c) := by
  unfold destroyWhenFree; (repeat' (first
      | with_reducible assumption | with_reducible apply canon_ite | with_reducible apply finishDestroy_canon))

theorem opCreate_canon (s : State) (p : Nat) (c : Nat) (m : List Byte) (hw : Canon s) : Canon (opCreate s p c m).2 := by
  exact canon_of (opCreate_cells s p c m) hw

theorem opCreate_keeps {s : State} {p : Nat} {c : Nat} {m : List Byte} {q_ : Nat} {r_ : State} (he :
    (opCreate s p c m) = (q_, r_)) (hw : Canon s) : Canon r_ := by
  have := opCreate_canon s p c m hw
  rw [he] at this
  exact this

theorem grantSlices_canon (s : State) (c : Nat) (l : Lease) (hw : Canon s) : Canon (grantSlices s c l) := by
  unfold grantSlices; (repeat' (first
      | intro _ | with_reducible assumption | with_reducible apply zeroPhys_canon | with_reducible apply updSlice_canon
      | with_reducible apply canon_foldl))

theorem opLease_canon (s : State) (p : Nat) (c : Nat) (m : List Byte) (hw : Canon s) : Canon (opLease s p c m).2 := by
  unfold opLease; (repeat' (first
      | with_reducible assumption | with_reducible apply grantSlices_canon | with_reducible apply settle_canon
      | with_reducible apply updCtx_canon | with_reducible apply endLease_canon | split | dsimp only))

theorem opLease_keeps {s : State} {p : Nat} {c : Nat} {m : List Byte} {q_ : Nat} {r_ : State} (he : (opLease s p c m) =
    (q_, r_)) (hw : Canon s) : Canon r_ := by
  have := opLease_canon s p c m hw
  rw [he] at this
  exact this

theorem opFrames_canon (s : State) (p : Nat) (c : Nat) (m : List Byte) (hw : Canon s) : Canon (opFrames s p c m).2 := by
  unfold opFrames; (repeat' (first
      | with_reducible assumption | split | dsimp only
      | (with_reducible apply canon_mem; with_reducible apply zeroPhys_canon)))

theorem opFrames_keeps {s : State} {p : Nat} {c : Nat} {m : List Byte} {q_ : Nat} {r_ : State} (he :
    (opFrames s p c m) = (q_, r_)) (hw : Canon s) : Canon r_ := by
  have := opFrames_canon s p c m hw
  rw [he] at this
  exact this

theorem opWindow_canon (s : State) (c : Nat) (m : List Byte) (hw : Canon s) : Canon (opWindow s c m).2 := by
  exact canon_of (opWindow_cells s c m) hw

theorem opWindow_keeps {s : State} {c : Nat} {m : List Byte} {q_ : Nat} {r_ : State} (he : (opWindow s c m) = (q_, r_))
    (hw : Canon s) : Canon r_ := by
  have := opWindow_canon s c m hw
  rw [he] at this
  exact this

theorem opInvalidate_canon (s : State) (c : Nat) (m : List Byte) (hw : Canon s) : Canon (opInvalidate s c m).2 := by
  exact canon_of (opInvalidate_cells s c m) hw

theorem opInvalidate_keeps {s : State} {c : Nat} {m : List Byte} {q_ : Nat} {r_ : State} (he : (opInvalidate s c m) =
    (q_, r_)) (hw : Canon s) : Canon r_ := by
  have := opInvalidate_canon s c m hw
  rw [he] at this
  exact this

theorem opSuspend_canon (s : State) (c : Nat) (m : List Byte) (hw : Canon s) : Canon (opSuspend s c m).2 := by
  exact canon_of (opSuspend_cells s c m) hw

theorem opSuspend_keeps {s : State} {c : Nat} {m : List Byte} {q_ : Nat} {r_ : State} (he : (opSuspend s c m) =
    (q_, r_)) (hw : Canon s) : Canon r_ := by
  have := opSuspend_canon s c m hw
  rw [he] at this
  exact this

theorem opRestart_canon (s : State) (c : Nat) (m : List Byte) (hw : Canon s) : Canon (opRestart s c m).2 := by
  exact canon_of (opRestart_cells s c m) hw

theorem opRestart_keeps {s : State} {c : Nat} {m : List Byte} {q_ : Nat} {r_ : State} (he : (opRestart s c m) =
    (q_, r_)) (hw : Canon s) : Canon r_ := by
  have := opRestart_canon s c m hw
  rw [he] at this
  exact this

theorem opAbort_canon (s : State) (c : Nat) (m : List Byte) (hw : Canon s) : Canon (opAbort s c m).2 := by
  exact canon_of (opAbort_cells s c m) hw

theorem opAbort_keeps {s : State} {c : Nat} {m : List Byte} {q_ : Nat} {r_ : State} (he : (opAbort s c m) = (q_, r_))
    (hw : Canon s) : Canon r_ := by
  have := opAbort_canon s c m hw
  rw [he] at this
  exact this

theorem opDestroy_canon (s : State) (c : Nat) (m : List Byte) (hw : Canon s) : Canon (opDestroy s c m).2 := by
  unfold opDestroy; (repeat' (first
      | with_reducible assumption | with_reducible apply updCtx_canon | with_reducible apply abortKernel_canon
      | with_reducible apply finishDestroy_canon | split | dsimp only))

theorem opDestroy_keeps {s : State} {c : Nat} {m : List Byte} {q_ : Nat} {r_ : State} (he : (opDestroy s c m) =
    (q_, r_)) (hw : Canon s) : Canon r_ := by
  have := opDestroy_canon s c m hw
  rw [he] at this
  exact this

theorem opDraft_canon (s : State) (p : Nat) (m : List Byte) (hw : Canon s) : Canon (opDraft s p m).2 := by
  exact canon_of (opDraft_cells s p m) hw

theorem opDraft_keeps {s : State} {p : Nat} {m : List Byte} {q_ : Nat} {r_ : State} (he : (opDraft s p m) = (q_, r_))
    (hw : Canon s) : Canon r_ := by
  have := opDraft_canon s p m hw
  rw [he] at this
  exact this

theorem adminRun_canon (s : State) (p : Nat) (m : List Byte) (hw : Canon s) : Canon (adminRun s p m).2 := by
  unfold adminRun; (repeat' (first
      | with_reducible assumption | split | with_reducible apply opDestroy_canon | with_reducible apply opWindow_canon
      | with_reducible apply opDraft_canon | with_reducible apply opRestart_canon
      | with_reducible apply opInvalidate_canon | with_reducible apply opLease_canon
      | with_reducible apply opSuspend_canon | with_reducible apply opFrames_canon | with_reducible apply opAbort_canon
      | with_reducible apply opCreate_canon | dsimp only))

theorem adminRun_keeps {s : State} {p : Nat} {m : List Byte} {q_ : Nat} {r_ : State} (he : (adminRun s p m) = (q_, r_))
    (hw : Canon s) : Canon r_ := by
  have := adminRun_canon s p m hw
  rw [he] at this
  exact this

theorem adminGo_canon (s : State) (p : Nat) (hw : Canon s) : Canon (adminGo s p) := by
  unfold adminGo; (repeat' (first
      | with_reducible assumption | with_reducible apply canon_ite | with_reducible apply adminDone_canon
      | with_reducible apply updPort_canon | with_reducible apply hifFlag_canon | with_reducible apply adminRun_canon))

theorem adminRow_canon (op : Nat) (port : Nat) (s : State) (hw : Canon s) : Canon (adminRow op port s) := by
  unfold adminRow; (repeat' (first
      | with_reducible assumption | with_reducible apply canon_ite | with_reducible apply adminGo_canon))

theorem execCtxCreate_canon (port : Nat) (s : State) (hw : Canon s) : ∀ r, (execCtxCreate port s) = .next r → Canon r := by
  intro r e; unfold execCtxCreate at e; injection e with e; subst e; (repeat' (first
      | with_reducible assumption | with_reducible apply adminRow_canon))

theorem execCtxDestroy_canon (port : Nat) (s : State) (hw : Canon s) : ∀ r, (execCtxDestroy port s) = .next r → Canon r := by
  intro r e; unfold execCtxDestroy at e; injection e with e; subst e; (repeat' (first
      | with_reducible assumption | with_reducible apply canon_ite | with_reducible apply adminDone_canon
      | with_reducible apply adminRow_canon | with_reducible apply finishDestroy_canon | split))

theorem execLease_canon (port : Nat) (s : State) (hw : Canon s) : ∀ r, (execLease port s) = .next r → Canon r := by
  intro r e; unfold execLease at e; injection e with e; subst e; (repeat' (first
      | with_reducible assumption | with_reducible apply adminRow_canon))

theorem execFrames_canon (port : Nat) (s : State) (hw : Canon s) : ∀ r, (execFrames port s) = .next r → Canon r := by
  intro r e; unfold execFrames at e; injection e with e; subst e; (repeat' (first
      | with_reducible assumption | with_reducible apply adminRow_canon))

theorem execHostWindow_canon (port : Nat) (s : State) (hw : Canon s) : ∀ r, (execHostWindow port s) = .next r → Canon r := by
  intro r e; unfold execHostWindow at e; injection e with e; subst e; (repeat' (first
      | with_reducible assumption | with_reducible apply adminRow_canon))

theorem execInvalidate_canon (port : Nat) (s : State) (hw : Canon s) : ∀ r, (execInvalidate port s) = .next r → Canon r := by
  intro r e; unfold execInvalidate at e; injection e with e; subst e; (repeat' (first
      | with_reducible assumption | with_reducible apply adminDone_canon | with_reducible apply updCtx_canon
      | with_reducible apply adminRow_canon | split))

theorem execSuspend_canon (port : Nat) (s : State) (hw : Canon s) : ∀ r, (execSuspend port s) = .next r → Canon r := by
  intro r e; unfold execSuspend at e; injection e with e; subst e; (repeat' (first
      | with_reducible assumption | with_reducible apply adminRow_canon))

theorem execRestart_canon (port : Nat) (s : State) (hw : Canon s) : ∀ r, (execRestart port s) = .next r → Canon r := by
  intro r e; unfold execRestart at e; injection e with e; subst e; (repeat' (first
      | with_reducible assumption | with_reducible apply adminRow_canon))

theorem execCtxAbort_canon (port : Nat) (s : State) (hw : Canon s) : ∀ r, (execCtxAbort port s) = .next r → Canon r := by
  intro r e; unfold execCtxAbort at e; injection e with e; subst e; (repeat' (first
      | with_reducible assumption | with_reducible apply adminRow_canon))

theorem execDraft_canon (port : Nat) (s : State) (hw : Canon s) : ∀ r, (execDraft port s) = .next r → Canon r := by
  intro r e; unfold execDraft at e; injection e with e; subst e; (repeat' (first
      | with_reducible assumption | with_reducible apply adminRow_canon))

theorem perstCtx_canon (s : State) (c : Nat) (hw : Canon s) : Canon (perstCtx s c) := by
  unfold perstCtx; (repeat' (first
      | with_reducible assumption | with_reducible apply destroyWhenFree_canon | with_reducible apply haltCore_canon
      | dsimp only | (with_reducible apply canon_mem; with_reducible apply updCtx_canon)))

theorem execPerst_canon (port : Nat) (s : State) (hw : Canon s) : ∀ r, (execPerst port s) = .next r → Canon r := by
  intro r e; unfold execPerst at e; injection e with e; subst e; (repeat' (first
      | intro _ | with_reducible assumption | with_reducible apply canon_ite | with_reducible apply perstCtx_canon
      | with_reducible apply updBoot_canon | with_reducible apply updPort_canon | dsimp only
      | (with_reducible apply canon_mem; with_reducible apply canon_foldl)))

/-! Buddy. -/

theorem startBuddy_canon (s : State) (step : Nat) (hw : Canon s) : Canon (startBuddy s step) := by
  unfold startBuddy; (repeat' (first
      | with_reducible assumption | with_reducible apply canon_ite | split | dsimp only
      | (with_reducible apply canon_mem; with_reducible assumption)))

theorem buddyDone_canon (s : State) (b : Buddy) (hw : Canon s) : Canon (buddyDone s b) := by
  exact canon_of (buddyDone_cells s b) hw

theorem execBuddyCopy_canon (fs : List MemFault) (s : State) (hw : Canon s) : ∀ r,
    (execBuddyCopy s fs) = .next r → Canon r := by
  intro r e; unfold execBuddyCopy at e; injection e with e; subst e; (repeat' (first
      | intro _ | with_reducible assumption | with_reducible apply canon_ite | with_reducible apply bump_canon
      | with_reducible apply inject_canon | with_reducible apply buddyDone_canon | with_reducible apply memFaults_canon
      | split | dsimp only | (with_reducible apply canon_mem; with_reducible apply bump_canon)))

/-! Links. -/

theorem cutPort_canon (s : State) (p : Nat) (hw : Canon s) : Canon (cutPort s p) := by
  exact canon_of (cutPort_cells s p) hw

theorem portDown_canon (s : State) (p : Nat) (reason : Nat) (hw : Canon s) : Canon (portDown s p reason) := by
  unfold portDown; (repeat' (first
      | with_reducible assumption | with_reducible apply canon_ite | with_reducible apply updLink_canon
      | with_reducible apply fabricEvent_canon | with_reducible apply cutPort_canon))

theorem execSignalLoss_canon (port : Nat) (s : State) (hw : Canon s) : ∀ r, (execSignalLoss port s) = .next r → Canon r := by
  intro r e; unfold execSignalLoss at e; injection e with e; subst e; (repeat' (first
      | with_reducible assumption | with_reducible apply canon_ite | with_reducible apply portDown_canon))

theorem resend_canon (s : State) (p : Nat) (hw : Canon s) : Canon (resend s p) := by
  unfold resend; (repeat' (first
      | intro _ | with_reducible assumption | with_reducible apply updLink_canon | with_reducible apply bump_canon
      | with_reducible apply setBit_canon | with_reducible apply emit_canon | with_reducible apply raise_canon
      | with_reducible apply canon_foldl))

theorem execReplayTimeout_canon (port : Nat) (s : State) (hw : Canon s) : ∀ r,
    (execReplayTimeout port s) = .next r → Canon r := by
  intro r e; unfold execReplayTimeout at e; injection e with e; subst e; (repeat' (first
      | with_reducible assumption | with_reducible apply canon_ite | with_reducible apply resend_canon))

theorem retrained_canon (s : State) (p : Nat) (hw : Canon s) : Canon (retrained s p) := by
  exact canon_of (retrained_cells s p) hw

theorem execLinkRetrain_canon (port : Nat) (lanes : Nat) (s : State) (hw : Canon s) : ∀ r,
    (execLinkRetrain port lanes s) = .next r → Canon r := by
  intro r e; unfold execLinkRetrain at e; injection e with e; subst e; (repeat' (first
      | with_reducible assumption | with_reducible apply canon_ite | with_reducible apply updLink_canon
      | with_reducible apply retrained_canon | with_reducible apply setBit_canon | with_reducible apply resend_canon
      | with_reducible apply portDown_canon | with_reducible apply raise_canon | with_reducible apply setBits_canon))

theorem dropPacket_canon (s : State) (hw : Canon s) : Canon (dropPacket s) := by
  exact canon_of (dropPacket_cells s) hw

theorem discardPkt_canon (s : State) (src : Option Nat) (k : Pkt) (hw : Canon s) : Canon (discardPkt s src k) := by
  exact canon_of (discardPkt_cells s src k) hw

theorem flitIn_canon (p : Nat) (v : Nat) (s : State) (f : List Byte) (hw : Canon s) : Canon (flitIn p v s f) := by
  exact canon_of (flitIn_cells p v s f) hw

theorem takeBlock_canon (s : State) (p : Nat) (b : LBlock) (hw : Canon s) : Canon (takeBlock s p b) := by
  unfold takeBlock; (repeat' (first
      | intro _ | with_reducible assumption | with_reducible apply canon_ite | with_reducible apply updLink_canon
      | with_reducible apply bump_canon | with_reducible apply flitIn_canon | with_reducible apply resend_canon
      | with_reducible apply pump_canon | with_reducible apply canon_foldl))

theorem refuseBlock_canon (s : State) (p : Nat) (hw : Canon s) : Canon (refuseBlock s p) := by
  exact canon_of (refuseBlock_cells s p) hw

theorem offerBlock_canon (s : State) (p : Nat) (d : List Byte) (hw : Canon s) : Canon (offerBlock s p d) := by
  unfold offerBlock; (repeat' (first
      | with_reducible assumption | with_reducible apply canon_ite | with_reducible apply refuseBlock_canon
      | with_reducible apply setBit_canon | with_reducible apply takeBlock_canon | split))

theorem execLinkBlockReceive_canon (port : Nat) (block : BlockIn) (s : State) (hw : Canon s) : ∀ r,
    (execLinkBlockReceive port block s) = .next r → Canon r := by
  intro r e; unfold execLinkBlockReceive at e; injection e with e; subst e; (repeat' (first
      | with_reducible assumption | with_reducible apply canon_ite | with_reducible apply updLink_canon
      | with_reducible apply bump_canon | with_reducible apply refuseBlock_canon | with_reducible apply offerBlock_canon
      | split))

/-! Collective. -/

theorem advanceAll_canon (s : State) (c : Nat) (hw : Canon s) : Canon (advanceAll s c) := by
  exact canon_of (advanceAll_cells s c) hw

theorem collFault_canon (s : State) (c : Nat) (hw : Canon s) : Canon (collFault s c) := by
  exact canon_of (collFault_cells s c) hw

theorem takeEarly_canon (s : State) (x : Coll) (hw : Canon s) : Canon (takeEarly s x).1 := by
  exact canon_of (takeEarly_cells s x) hw

theorem takeEarly_keeps {s : State} {x : Coll} {q_ : Coll} {r_ : State} (he : (takeEarly s x) = (r_, q_)) (hw
    : Canon s) : Canon r_ := by
  have := takeEarly_canon s x hw
  rw [he] at this
  exact this

theorem execCollective_canon (ctx : Nat) (fs : List MemFault) (s : State) (hw : Canon s) : ∀ r,
    (execCollective ctx s fs) = .next r → Canon r := by
  intro r e; unfold execCollective at e; injection e with e; subst e
  apply memFaults_canon fs s _ hw
  intro s hs
  apply withCmd_canon s ctx 13 _ hs
  intro s m hs
  exact canon_of (by dsimp only; (repeat' split) <;> simp) hs

theorem nodeIn_canon (s : State) (c : Nat) (id : Nat) (dev : Nat) (k : Nat) (r : Nat) (addr : Nat) (d : List Byte) (hw
    : Canon s) : Canon (nodeIn s c id dev k r addr d).1 := by
  exact canon_of (nodeIn_cells s c id dev k r addr d) hw

theorem nodeIn_keeps {s : State} {c : Nat} {id : Nat} {dev : Nat} {k : Nat} {r : Nat} {addr : Nat} {d : List Byte} {q_
    : Bool} {r_ : State} (he : (nodeIn s c id dev k r addr d) = (r_, q_)) (hw : Canon s) : Canon r_ := by
  have := nodeIn_canon s c id dev k r addr d hw
  rw [he] at this
  exact this

/-! Sluice. -/

theorem execBlockInit_canon (ctx : Nat) (s : State) (hw : Canon s) : ∀ r, (execBlockInit ctx s) = .next r → Canon r := by
  intro r e; unfold execBlockInit at e; injection e with e; subst e; (repeat' (first
      | intro _ | with_reducible assumption | with_reducible apply canon_ite | with_reducible apply installBlock_canon
      | with_reducible apply completeCmd_canon | with_reducible apply withSluiceCmd_canon))

theorem updCommit_canon (s : State) (c : Nat) (slot : Nat) (f : Commit → Commit) (hw : Canon s) : Canon
    (updCommit s c slot f) := by
  exact canon_of (updCommit_cells s c slot f) hw

theorem commitArrive_canon (s : State) (m : Commit) (list : Option (List Nat)) (hw : Canon s) : Canon
    (commitArrive s m list) := by
  unfold commitArrive; (repeat' (first
      | intro _ | with_reducible assumption | with_reducible apply canon_ite | with_reducible apply updCtx_canon
      | with_reducible apply fbarArrive_canon | with_reducible apply slcErr_canon | with_reducible apply updCommit_canon
      | with_reducible apply rescan_canon | with_reducible apply canon_foldl))

theorem commitTry_canon (s : State) (c : Nat) (hw : Canon s) : Canon (commitTry s c) := by
  unfold commitTry; (repeat' (first
      | with_reducible assumption | with_reducible apply canon_ite | with_reducible apply commitArrive_canon | split))

theorem execCommit_canon (ctx : Nat) (fs : List MemFault) (s : State) (hw : Canon s) : ∀ r,
    (execCommit ctx s fs) = .next r → Canon r := by
  intro r e; unfold execCommit at e; injection e with e; subst e; (repeat' (first
      | intro _ | with_reducible assumption | with_reducible apply canon_ite | with_reducible apply commandBad_canon
      | with_reducible apply withCmd_canon | with_reducible apply commitTry_canon | with_reducible apply memFaults_canon
      | dsimp only | (with_reducible apply canon_mem; with_reducible assumption)))

theorem commitRecord_canon (c : Nat) (step : Nat) (o : Nat) (pairs : List (Nat × Int)) (s : State) (i : Nat) (hw
    : Canon s) : Canon (commitRecord c step o pairs s i) := by
  unfold commitRecord; (repeat' (first
      | with_reducible assumption | with_reducible apply canon_ite | with_reducible apply setBit_canon
      | with_reducible apply ledgerRecord_canon | with_reducible apply wrCtx_canon | with_reducible apply rdCtx_canon))

theorem silentLayer_canon (c : Nat) (step : Nat) (ls : List (Nat × List Nat)) (s : State) (layer : Nat) (hw : Canon s)
    : Canon (silentLayer c step ls s layer) := by
  unfold silentLayer; (repeat' (first
      | with_reducible assumption | with_reducible apply canon_ite | with_reducible apply bump_canon
      | with_reducible apply setBit_canon | with_reducible apply ledgerRecord_canon | with_reducible apply postEvent_canon
      | with_reducible apply wrCtx_canon | with_reducible apply rdCtx_canon))

theorem silentUpdate_canon (s : State) (c : Nat) (step : Nat) (recs : List Nat) (hw : Canon s) : Canon
    (silentUpdate s c step recs) := by
  unfold silentUpdate; (repeat' (first
      | intro _ | with_reducible assumption | with_reducible apply canon_ite | with_reducible apply silentLayer_canon
      | with_reducible apply canon_foldl))

theorem spoutCommit_canon (s : State) (c : Nat) (step : Nat) (o : Nat) (pairs : List (Nat × Int)) (hw : Canon s) : Canon
    (spoutCommit s c step o pairs) := by
  unfold spoutCommit; (repeat' (first
      | intro _ | with_reducible assumption | with_reducible apply canon_ite | with_reducible apply updSpout_canon
      | with_reducible apply commitRecord_canon | with_reducible apply silentUpdate_canon
      | with_reducible apply canon_foldl))

theorem takeSnap_canon (s : State) (m : Commit) (o : Nat) (hw : Canon s) : Canon (takeSnap s m o) := by
  exact canon_of (takeSnap_cells s m o) hw

theorem execSnapshot_canon (k : Nat) (fs : List MemFault) (s : State) (hw : Canon s) : ∀ r,
    (execSnapshot k s fs) = .next r → Canon r := by
  intro r e; unfold execSnapshot at e; injection e with e; subst e; (repeat' (first
      | intro _ | with_reducible assumption | with_reducible apply canon_ite | with_reducible apply inject_canon
      | with_reducible apply hostFault_canon | with_reducible apply hostWrite_canon | with_reducible apply memFaults_canon
      | split | dsimp only | (with_reducible apply canon_mem; with_reducible assumption)))

theorem outcomeNoted_canon (s : State) (o : Nat) (hw : Canon s) : Canon (outcomeNoted s o) := by
  exact canon_of (outcomeNoted_cells s o) hw

theorem applyCommit_canon (s : State) (m : Commit) (r : Released) (hw : Canon s) : Canon (applyCommit s m r) := by
  unfold applyCommit; (repeat' (first
      | intro _ | with_reducible assumption | with_reducible apply canon_ite | with_reducible apply updCtx_canon
      | with_reducible apply updFBar_canon | with_reducible apply spoutCommit_canon | with_reducible apply postEvent_canon
      | with_reducible apply outcomeNoted_canon | with_reducible apply startBuddy_canon
      | with_reducible apply completeCmd_canon | with_reducible apply takeSnap_canon
      | with_reducible apply commitBlock_canon | with_reducible apply canon_foldl | split | dsimp only
      | (with_reducible apply canon_mem; with_reducible assumption)
      | (with_reducible apply canon_mem; with_reducible apply updCtx_canon)))

theorem execCommitBarrierRelease_canon (ctx : Nat) (recomputes : Nat) (fs : List MemFault) (s : State) (hw : Canon s)
    : ∀ r, (execCommitBarrierRelease ctx recomputes s fs) = .next r → Canon r := by
  intro r e; unfold execCommitBarrierRelease at e; injection e with e; subst e; (repeat' (first
      | intro _ | with_reducible assumption | with_reducible apply canon_ite | with_reducible apply applyCommit_canon
      | with_reducible apply raise_canon | with_reducible apply memFaults_canon | split))

theorem execOperandReady_canon (k : Nat) (fs : List MemFault) (s : State) (hw : Canon s) : ∀ r,
    (execOperandReady k s fs) = .next r → Canon r := by
  intro r e; unfold execOperandReady at e; injection e with e; subst e; (repeat' (first
      | intro _ | with_reducible assumption | with_reducible apply canon_ite | with_reducible apply sluiceNote_canon
      | with_reducible apply writeArr_canon | with_reducible apply memFaults_canon | with_reducible apply canon_foldl
      | split | dsimp only | (with_reducible apply canon_mem; with_reducible assumption)))

theorem windowPass_canon (s : State) (b : Nat) (i : Item) (hw : Canon s) : Canon (windowPass s b i) := by
  exact canon_of (windowPass_cells s b i) hw

theorem windowRowIn_canon (s : State) (b : Nat) (i : Item) (p : PassRun) (hw : Canon s) : Canon (windowRowIn s b i p) := by
  unfold windowRowIn; (repeat' (first
      | with_reducible assumption | with_reducible apply bump_canon | with_reducible apply journalWrite_canon
      | with_reducible apply updItem_canon | with_reducible apply updRun_canon | with_reducible apply enterRows_canon
      | with_reducible apply passBubbles_canon
      | (with_reducible refine segmentFor_keeps (by with_reducible assumption) ?_) | split))

theorem windowPassEnd_canon (s : State) (b : Nat) (i : Item) (hw : Canon s) : Canon (windowPassEnd s b i) := by
  exact canon_of (windowPassEnd_cells s b i) hw

theorem execRootWindow_canon (b : Nat) (fs : List MemFault) (s : State) (hw : Canon s) : ∀ r,
    (execRootWindow b s fs) = .next r → Canon r := by
  intro r e; unfold execRootWindow at e; injection e with e; subst e; (repeat' (first
      | intro _ | with_reducible assumption | with_reducible apply canon_ite | with_reducible apply windowRowIn_canon
      | with_reducible apply windowPass_canon | with_reducible apply itemFail_canon
      | with_reducible apply windowPassEnd_canon | with_reducible apply updItem_canon
      | with_reducible apply memFaults_canon | split | dsimp only))

/-! Ring. -/

theorem ringDoorbell_canon (s : State) (c : Nat) (v : Nat) (hw : Canon s) : Canon (ringDoorbell s c v) := by
  exact canon_of (ringDoorbell_cells s c v) hw

theorem decodeCmd_canon (s : State) (c : Nat) (n : Nat) (raw : List Byte) (hw : Canon s) : Canon (decodeCmd s c n raw) := by
  exact canon_of (decodeCmd_cells s c n raw) hw

theorem execCommandFetched_canon (ctx : Nat) (data : List Byte) (ok : Bool) (fs : List MemFault) (s : State) (hw
    : Canon s) : ∀ r, (execCommandFetched ctx data ok s fs) = .next r → Canon r := by
  intro r e; unfold execCommandFetched at e; injection e with e; subst e; (repeat' (first
      | intro _ | with_reducible assumption | with_reducible apply canon_ite | with_reducible apply decodeCmd_canon
      | with_reducible apply commandBad_canon | with_reducible apply hostFault_canon
      | with_reducible apply memFaults_canon | (with_reducible refine ctxRead_keeps (by with_reducible assumption) ?_)
      | split | dsimp only))

theorem cmdWrite_canon (s : State) (c : Nat) (slot : Nat) (host : Bool) (a : Nat) (d : List Byte) (hw : Canon s) : Canon
    (cmdWrite s c slot host a d) := by
  unfold cmdWrite; (repeat' (first
      | with_reducible assumption | with_reducible apply canon_ite | with_reducible apply commandBad_canon
      | with_reducible apply hostWrite_canon | (with_reducible refine ctxWrite_keeps (by with_reducible assumption) ?_)
      | split))

theorem execCopyCmd_canon (ctx : Nat) (data : List Byte) (ok : Bool) (fs : List MemFault) (s : State) (hw : Canon s)
    : ∀ r, (execCopyCmd ctx data ok s fs) = .next r → Canon r := by
  intro r e; unfold execCopyCmd at e; injection e with e; subst e; (repeat' (first
      | intro _ | with_reducible assumption | with_reducible apply canon_ite | with_reducible apply completeCmd_canon
      | with_reducible apply commandBad_canon | with_reducible apply withCmd_canon | with_reducible apply cmdWrite_canon
      | with_reducible apply hostFault_canon | with_reducible apply memFaults_canon
      | (with_reducible refine ctxRead_keeps (by with_reducible assumption) ?_) | split))

theorem execSignalCommand_canon (ctx : Nat) (s : State) (hw : Canon s) : ∀ r,
    (execSignalCommand ctx s) = .next r → Canon r := by
  intro r e; unfold execSignalCommand at e; injection e with e; subst e; (repeat' (first
      | intro _ | with_reducible assumption | with_reducible apply completeCmd_canon | with_reducible apply withCmd_canon
      | with_reducible apply cmdWrite_canon))

/-! HostRows. -/

theorem secCommand_canon (s : State) (v : Nat) (hw : Canon s) : Canon (secCommand s v) := by
  exact canon_of (secCommand_cells s v) hw

theorem evqAdvance_canon (s : State) (c : Nat) (v : Nat) (hw : Canon s) : Canon (evqAdvance s c v) := by
  exact canon_of (evqAdvance_cells s c v) hw

theorem writeCtl_canon (s : State) (x : Nat) (v : Nat) (hw : Canon s) : Canon (writeCtl s x v) := by
  unfold writeCtl; (repeat' (first
      | with_reducible assumption | with_reducible apply canon_ite | with_reducible apply updBoot_canon
      | with_reducible apply settle_canon | with_reducible apply ctlWrite_canon | with_reducible apply secCommand_canon
      | with_reducible apply adminGo_canon))

theorem writeWord_canon (s : State) (port : Nat) (a : Nat) (v : Nat) (hw : Canon s) : Canon (writeWord s port a v) := by
  unfold writeWord; (repeat' (first
      | with_reducible assumption | with_reducible apply canon_ite | with_reducible apply evqAdvance_canon
      | with_reducible apply ringDoorbell_canon | with_reducible apply writeCtl_canon))

theorem execRegisterWrite_canon (port : Nat) (addr : Nat) (size : Nat) (value : Nat) (s : State) (hw : Canon s) : ∀ r,
    (execRegisterWrite port addr size value s) = .next r → Canon r := by
  intro r e; unfold execRegisterWrite at e; injection e with e; subst e; (repeat' (first
      | with_reducible assumption | with_reducible apply canon_ite | with_reducible apply writeWord_canon))

theorem aperFault_canon (s : State) (port : Nat) (off : Nat) (write : Bool) (hw : Canon s) : Canon
    (aperFault s port off write) := by
  exact canon_of (aperFault_cells s port off write) hw

theorem execBar4Access_canon (port : Nat) (offset : Nat) (write : Bool) (data : List Byte) (fs : List MemFault) (s
    : State) (hw : Canon s) : ∀ r, (execBar4Access port offset write data s fs) = .next r → Canon r := by
  intro r e; unfold execBar4Access at e; injection e with e; subst e; (repeat' (first
      | intro _ | with_reducible assumption | with_reducible apply canon_ite | with_reducible apply writePhys_canon
      | with_reducible apply aperFault_canon | with_reducible apply cisRefused_canon | with_reducible apply emit_canon
      | with_reducible apply memFaults_canon | (with_reducible refine ctxWrite_keeps (by with_reducible assumption) ?_)
      | (with_reducible refine ctxRead_keeps (by with_reducible assumption) ?_) | split))

/-! JetVector. -/

theorem VPlan.part_canon (p : VPlan) (j : Nat) (t : Nat) (f : Fields) (k : Nat) (s : State) (hw : Canon s) : Canon
    (VPlan.part p j t f k s) := by
  unfold VPlan.part; (repeat' (first
      | with_reducible assumption | with_reducible apply writePhys_canon | with_reducible apply updThread_canon | split
      | dsimp only))

theorem VPlan.run_canon (p : VPlan) (j : Nat) (t : Nat) (f : Fields) (total : Nat) (a5 : Nat) (a6 : State) (hw
    : Canon a6) : Canon (VPlan.run p j t f total a5 a6) := by
  induction a5 generalizing a6 with
  | zero => exact hw
  | succ n ih =>
    unfold VPlan.run; dsimp only
    split
    · exact hw
    · exact ih _ (VPlan.part_canon _ _ _ _ _ _ hw)

theorem vissue_canon (row : Nat → Nat → Bool) (plan : Fields → VPlan) (fin : Fields → Thread → Thread) (i : Issue) (s
    : State) (hw : Canon s) : Canon (vissue row plan fin i s) := by
  unfold vissue; (repeat' (first
      | intro _ | with_reducible assumption | with_reducible apply canon_ite | with_reducible apply VPlan.run_canon
      | with_reducible apply issue_canon | with_reducible apply threadFault_canon | with_reducible apply retire_canon
      | with_reducible apply memFaults_canon))

theorem varith_canon (fn : Nat) (accs : List VAcc) (g : VArgs → Nat × Nat) (i : Issue) (s : State) (hw : Canon s)
    : Canon (varith fn accs g i s) := by
  unfold varith; (repeat' (first | with_reducible assumption | with_reducible apply vissue_canon))

theorem execVadd_canon (i : Issue) (s : State) (hw : Canon s) : ∀ r, (execVadd i s) = .next r → Canon r := by
  intro r e; unfold execVadd at e; injection e with e; subst e; (repeat' (first
      | with_reducible assumption | with_reducible apply varith_canon))

theorem execVsub_canon (i : Issue) (s : State) (hw : Canon s) : ∀ r, (execVsub i s) = .next r → Canon r := by
  intro r e; unfold execVsub at e; injection e with e; subst e; (repeat' (first
      | with_reducible assumption | with_reducible apply varith_canon))

theorem execVmul_canon (i : Issue) (s : State) (hw : Canon s) : ∀ r, (execVmul i s) = .next r → Canon r := by
  intro r e; unfold execVmul at e; injection e with e; subst e; (repeat' (first
      | with_reducible assumption | with_reducible apply varith_canon))

theorem execVfma_canon (i : Issue) (s : State) (hw : Canon s) : ∀ r, (execVfma i s) = .next r → Canon r := by
  intro r e; unfold execVfma at e; injection e with e; subst e; (repeat' (first
      | with_reducible assumption | with_reducible apply varith_canon))

theorem execVaxpy_canon (i : Issue) (s : State) (hw : Canon s) : ∀ r, (execVaxpy i s) = .next r → Canon r := by
  intro r e; unfold execVaxpy at e; injection e with e; subst e; (repeat' (first
      | with_reducible assumption | with_reducible apply varith_canon))

theorem execVmax_canon (i : Issue) (s : State) (hw : Canon s) : ∀ r, (execVmax i s) = .next r → Canon r := by
  intro r e; unfold execVmax at e; injection e with e; subst e; (repeat' (first
      | with_reducible assumption | with_reducible apply varith_canon))

theorem execVmin_canon (i : Issue) (s : State) (hw : Canon s) : ∀ r, (execVmin i s) = .next r → Canon r := by
  intro r e; unfold execVmin at e; injection e with e; subst e; (repeat' (first
      | with_reducible assumption | with_reducible apply varith_canon))

theorem execVcopy_canon (i : Issue) (s : State) (hw : Canon s) : ∀ r, (execVcopy i s) = .next r → Canon r := by
  intro r e; unfold execVcopy at e; injection e with e; subst e; (repeat' (first
      | with_reducible assumption | with_reducible apply varith_canon))

theorem execVfill_canon (i : Issue) (s : State) (hw : Canon s) : ∀ r, (execVfill i s) = .next r → Canon r := by
  intro r e; unfold execVfill at e; injection e with e; subst e; (repeat' (first
      | with_reducible assumption | with_reducible apply varith_canon))

theorem execVcvt_canon (i : Issue) (s : State) (hw : Canon s) : ∀ r, (execVcvt i s) = .next r → Canon r := by
  intro r e; unfold execVcvt at e; injection e with e; subst e; (repeat' (first
      | with_reducible assumption | with_reducible apply vissue_canon))

theorem vreduce_canon (fn : Nat) (g : Nat → List Nat → Nat × Nat) (i : Issue) (s : State) (hw : Canon s) : Canon
    (vreduce fn g i s) := by
  unfold vreduce; (repeat' (first | with_reducible assumption | with_reducible apply vissue_canon))

theorem execVsum_canon (i : Issue) (s : State) (hw : Canon s) : ∀ r, (execVsum i s) = .next r → Canon r := by
  intro r e; unfold execVsum at e; injection e with e; subst e; (repeat' (first
      | with_reducible assumption | with_reducible apply vreduce_canon))

theorem execVamax_canon (i : Issue) (s : State) (hw : Canon s) : ∀ r, (execVamax i s) = .next r → Canon r := by
  intro r e; unfold execVamax at e; injection e with e; subst e; (repeat' (first
      | with_reducible assumption | with_reducible apply vreduce_canon))

theorem execVchk_canon (i : Issue) (s : State) (hw : Canon s) : ∀ r, (execVchk i s) = .next r → Canon r := by
  intro r e; unfold execVchk at e; injection e with e; subst e; (repeat' (first
      | with_reducible assumption | with_reducible apply vreduce_canon))

theorem execVztest_canon (i : Issue) (s : State) (hw : Canon s) : ∀ r, (execVztest i s) = .next r → Canon r := by
  intro r e; unfold execVztest at e; injection e with e; subst e; (repeat' (first
      | with_reducible assumption | with_reducible apply vreduce_canon))

/-! LedgerRows. -/

theorem ldgErr_canon (s : State) (i : Nat) (hw : Canon s) : Canon (ldgErr s i) := by
  exact canon_of (ldgErr_cells s i) hw

theorem flushDone_canon (s : State) (hw : Canon s) : Canon (flushDone s) := by
  exact canon_of (flushDone_cells s) hw

theorem execLedgerFlush_canon (res : FlushResult) (s : State) (hw : Canon s) : ∀ r,
    (execLedgerFlush res s) = .next r → Canon r := by
  intro r e; unfold execLedgerFlush at e; injection e with e; subst e; (repeat' (first
      | with_reducible assumption | with_reducible apply canon_ite | with_reducible apply flushDone_canon
      | with_reducible apply ldgErr_canon | with_reducible apply lockout_canon | split
      | (with_reducible apply canon_mem; with_reducible assumption)))

/-! MemEvents. -/

theorem execJlmScrub_canon (addr : Nat) (wrong : List Nat) (s : State) (hw : Canon s) : ∀ r,
    (execJlmScrub addr wrong s) = .next r → Canon r := by
  intro r e; unfold execJlmScrub at e; injection e with e; subst e; (repeat' (first
      | with_reducible assumption | with_reducible apply canon_ite | with_reducible apply jlmFault_canon))

theorem execCisternScrub_canon (addr : Nat) (wrong : List Nat) (s : State) (hw : Canon s) : ∀ r,
    (execCisternScrub addr wrong s) = .next r → Canon r := by
  intro r e; unfold execCisternScrub at e; injection e with e; subst e; (repeat' (first
      | with_reducible assumption | with_reducible apply canon_ite | with_reducible apply sliceFault_canon))

theorem execHbmScrub_canon (addr : Nat) (data check : List Nat) (s : State) (hw : Canon s) : ∀ r,
    (execHbmScrub addr data check s) = .next r → Canon r := by
  intro r e; unfold execHbmScrub at e; injection e with e; subst e; (repeat' (first
      | with_reducible assumption | with_reducible apply canon_ite | with_reducible apply bump_canon
      | with_reducible apply updStack_canon | with_reducible apply hbmFault_canon))

theorem copyLine_canon (s : State) (stack : Nat) (wrong : List Nat) (done : State → State) (hw : Canon s) (hk
    : ∀ x0, Canon x0 → Canon (done x0)) : Canon (copyLine s stack wrong done) := by
  unfold copyLine; (repeat' (first
      | with_reducible assumption | with_reducible apply hk
      | (with_reducible refine hbmFault_keeps (by with_reducible assumption) ?_) | split | dsimp only))

theorem execPcLineCopy_canon (stack : Nat) (wrong : List Nat) (s : State) (hw : Canon s) : ∀ r,
    (execPcLineCopy stack s wrong) = .next r → Canon r := by
  intro r e; unfold execPcLineCopy at e; injection e with e; subst e; (repeat' (first
      | intro _ | with_reducible assumption | with_reducible apply canon_ite | with_reducible apply copyLine_canon
      | dsimp only | (with_reducible apply canon_cells; with_reducible apply updStack_canon)))

theorem execPcRetirementComplete_canon (stack : Nat) (wrong : List Nat) (s : State) (hw : Canon s) : ∀ r,
    (execPcRetirementComplete stack s wrong) = .next r → Canon r := by
  intro r e; unfold execPcRetirementComplete at e; injection e with e; subst e; (repeat' (first
      | intro _ | with_reducible assumption | with_reducible apply canon_ite | with_reducible apply setBit_canon
      | with_reducible apply copyLine_canon | dsimp only
      | (with_reducible apply canon_cells; with_reducible apply updStack_canon)))

theorem execHbmParityRetry_canon (stack : Nat) (pc : Nat) (write : Bool) (again : Bool) (s : State) (hw : Canon s)
    : ∀ r, (execHbmParityRetry stack pc write again s) = .next r → Canon r := by
  intro r e; unfold execHbmParityRetry at e; injection e with e; subst e; (repeat' (first
      | with_reducible assumption | with_reducible apply canon_ite | with_reducible apply bump_canon
      | with_reducible apply updStack_canon | with_reducible apply setBit_canon | with_reducible apply retirePc_canon
      | with_reducible apply hbmLost_canon | with_reducible apply raise_canon))

theorem odeccReport_canon (s : State) (stack : Nat) (hw : Canon s) : Canon (odeccReport s stack) := by
  unfold odeccReport; (repeat' (first
      | with_reducible assumption | with_reducible apply bump_canon | with_reducible apply setBit_canon
      | with_reducible apply raise_canon))

theorem execEcsRead_canon (counts : List Nat) (s : State) (hw : Canon s) : ∀ r,
    (execEcsRead counts s) = .next r → Canon r := by
  intro r e; unfold execEcsRead at e; injection e with e; subst e; (repeat' (first
      | intro _ | with_reducible assumption | with_reducible apply odeccReport_canon | with_reducible apply updStack_canon
      | with_reducible apply canon_foldl))

/-! Packets. -/

theorem noRoute_canon (s : State) (h : Hdr) (valid : Bool) (hw : Canon s) : Canon (noRoute s h valid) := by
  unfold noRoute; (repeat' (first
      | with_reducible assumption | with_reducible apply canon_ite | with_reducible apply dropPacket_canon
      | with_reducible apply fabricEvent_canon | with_reducible apply setBit_canon))

theorem leave_canon (s : State) (inPort : Option Nat) (k : Pkt) (p : Nat) (hw : Canon s) : Canon (leave s inPort k p) := by
  exact canon_of (leave_cells s inPort k p) hw

theorem execPacketRoute_canon (k : Nat) (s : State) (hw : Canon s) : ∀ r, (execPacketRoute k s) = .next r → Canon r := by
  intro r e; unfold execPacketRoute at e; injection e with e; subst e; (repeat' (first
      | with_reducible assumption | with_reducible apply canon_ite | with_reducible apply dropPacket_canon
      | with_reducible apply leave_canon | with_reducible apply setBit_canon | with_reducible apply discardPkt_canon
      | with_reducible apply creditsBack_canon | with_reducible apply noRoute_canon | split | dsimp only
      | (with_reducible apply canon_mem; with_reducible assumption)
      | (with_reducible apply canon_mem; with_reducible apply pump_canon)))

theorem rejectPacket_canon (s : State) (job : Nat) (hw : Canon s) : Canon (rejectPacket s job) := by
  exact canon_of (rejectPacket_cells s job) hw

theorem dropInbox_canon (s : State) (k : Nat) (hw : Canon s) : Canon (dropInbox s k) := by
  exact canon_of (dropInbox_cells s k) hw

theorem withJob_canon (s : State) (k : Nat) (kind : Nat) (f : State → Nat → Hdr → Pkt → State) (hw : Canon s) (hk
    : ∀ x0 x1 x2 x3, Canon x0 → Canon (f x0 x1 x2 x3)) : Canon (withJob s k kind f) := by
  unfold withJob; (repeat' (first
      | with_reducible assumption | with_reducible apply hk | with_reducible apply dropInbox_canon
      | with_reducible apply rejectPacket_canon | split))

theorem execMessagePkt_canon (k : Nat) (s : State) (hw : Canon s) : ∀ r, (execMessagePkt k s) = .next r → Canon r := by
  intro r e; unfold execMessagePkt at e; injection e with e; subst e; (repeat' (first
      | intro _ | with_reducible assumption | with_reducible apply canon_ite | with_reducible apply withJob_canon
      | with_reducible apply dropInbox_canon | with_reducible apply rejectPacket_canon | with_reducible apply inject_canon
      | with_reducible apply storeMsg_canon | with_reducible apply discardMsg_canon | split))

theorem execWritePkt_canon (k : Nat) (recomputes : Nat) (s : State) (hw : Canon s) : ∀ r,
    (execWritePkt k recomputes s) = .next r → Canon r := by
  intro r e; unfold execWritePkt at e; injection e with e; subst e; (repeat' (first
      | with_reducible assumption | with_reducible apply canon_ite | with_reducible apply dropInbox_canon
      | with_reducible apply writePhys_canon | with_reducible apply rejectPacket_canon
      | with_reducible apply cisRefused_canon | with_reducible apply wrCtx_canon | with_reducible apply raise_canon
      | (with_reducible refine nodeIn_keeps (by with_reducible assumption) ?_) | split))

theorem barrierGenBad_canon (s : State) (dev : Nat) (hw : Canon s) : Canon (barrierGenBad s dev) := by
  unfold barrierGenBad; (repeat' (first
      | with_reducible assumption | with_reducible apply fabricEvent_canon | with_reducible apply setBit_canon))

theorem execBarrierPkt_canon (k : Nat) (s : State) (hw : Canon s) : ∀ r, (execBarrierPkt k s) = .next r → Canon r := by
  intro r e; unfold execBarrierPkt at e; injection e with e; subst e; (repeat' (first
      | with_reducible assumption | with_reducible apply canon_ite | with_reducible apply dropPacket_canon
      | with_reducible apply dropInbox_canon | with_reducible apply updFBar_canon | with_reducible apply fbarAgain_canon
      | with_reducible apply fbarAdvance_canon | with_reducible apply fbarRelease_canon
      | with_reducible apply barrierGenBad_canon | split))

/-! Recovery. -/

theorem takeNotice_canon (s : State) (port : Option Nat) (d : List Byte) (hw : Canon s) : Canon (takeNotice s port d) := by
  unfold takeNotice; (repeat' (first
      | with_reducible assumption | with_reducible apply canon_ite | with_reducible apply startRecovery_canon
      | with_reducible apply noteErr_canon | with_reducible apply sendNotices_canon | dsimp only
      | (with_reducible apply canon_mem; with_reducible assumption)))

theorem execRecoveryNotice_canon (k : Nat) (s : State) (hw : Canon s) : ∀ r,
    (execRecoveryNotice k s) = .next r → Canon r := by
  intro r e; unfold execRecoveryNotice at e; injection e with e; subst e; (repeat' (first
      | with_reducible assumption | with_reducible apply canon_ite | with_reducible apply dropInbox_canon
      | with_reducible apply takeNotice_canon | with_reducible apply rejectPacket_canon | split))

theorem sendRestore_canon (s : State) (t : Nat) (hw : Canon s) : Canon (sendRestore s t) := by
  exact canon_of (sendRestore_cells s t) hw

theorem takeRelease_canon (s : State) (b : Nat) (hw : Canon s) : Canon (takeRelease s b) := by
  exact canon_of (takeRelease_cells s b) hw

theorem execRecoveryBarrierRelease_canon (fs : List MemFault) (s : State) (hw : Canon s) : ∀ r,
    (execRecoveryBarrierRelease s fs) = .next r → Canon r := by
  intro r e; unfold execRecoveryBarrierRelease at e; injection e with e; subst e; (repeat' (first
      | intro _ | with_reducible assumption | with_reducible apply canon_ite | with_reducible apply sendRestore_canon
      | with_reducible apply jobLost_canon | with_reducible apply takeRelease_canon | with_reducible apply memFaults_canon
      | dsimp only | (with_reducible apply canon_mem; with_reducible apply takeRelease_canon)))

theorem regenCopy_canon (s : State) (c : Nat) (d : List Byte) (hw : Canon s) : Canon (regenCopy s c d) := by
  unfold regenCopy; (repeat' (first
      | intro _ | with_reducible assumption | with_reducible apply canon_ite | with_reducible apply writeArr_canon
      | with_reducible apply canon_foldl))

theorem restoreOperand_canon (s : State) (c : Nat) (d : List Byte) (right : Bool) (hw : Canon s) : Canon
    (restoreOperand s c d right) := by
  unfold restoreOperand; (repeat' (first | with_reducible assumption | with_reducible apply writeArr_canon))

theorem restoreBlock_canon (c : Nat) (s : State) (n : Nat) (hw : Canon s) : Canon (restoreBlock c s n) := by
  unfold restoreBlock; (repeat' (first
      | with_reducible assumption | with_reducible apply canon_ite | with_reducible apply setRoot_canon
      | with_reducible apply regenCopy_canon | with_reducible apply restoreOperand_canon
      | with_reducible apply setBlock_canon))

theorem restoreCtx_canon (t : Nat) (s : State) (c : Nat) (hw : Canon s) : Canon (restoreCtx t s c) := by
  unfold restoreCtx; (repeat' (first
      | intro _ | with_reducible assumption | with_reducible apply canon_ite | with_reducible apply updCtx_canon
      | with_reducible apply restoreBlock_canon | with_reducible apply updBasin_canon | with_reducible apply canon_foldl
      | dsimp only | (with_reducible apply canon_mem; with_reducible assumption)))

theorem resume_canon (s : State) (hw : Canon s) : Canon (resume s) := by
  exact canon_of (resume_cells s) hw

theorem execRestoreComplete_canon (fs : List MemFault) (s : State) (hw : Canon s) : ∀ r,
    (execRestoreComplete s fs) = .next r → Canon r := by
  intro r e; unfold execRestoreComplete at e; injection e with e; subst e; (repeat' (first
      | intro _ | with_reducible assumption | with_reducible apply canon_ite | with_reducible apply fbarArrive_canon
      | with_reducible apply takeRelease_canon | with_reducible apply restoreCtx_canon | with_reducible apply resume_canon
      | with_reducible apply memFaults_canon | dsimp only
      | (with_reducible apply canon_mem; with_reducible apply canon_foldl)))

theorem execMgmtWatchdog_canon (core : Nat) (s : State) (hw : Canon s) : ∀ r,
    (execMgmtWatchdog core s) = .next r → Canon r := by
  intro r e; unfold execMgmtWatchdog at e; injection e with e; subst e; (repeat' (first
      | with_reducible assumption | with_reducible apply canon_ite | with_reducible apply raiseS4_canon | split
      | dsimp only | (with_reducible apply canon_mem; with_reducible apply raise_canon)))

theorem execTimebaseLost_canon (s : State) (hw : Canon s) : ∀ r, (execTimebaseLost s) = .next r → Canon r := by
  intro r e; unfold execTimebaseLost at e; injection e with e; subst e; (repeat' (first
      | with_reducible apply canon_ite | with_reducible apply setBit_canon | with_reducible apply raise_canon | dsimp only
      | (with_reducible apply canon_mem; with_reducible assumption)))

end Sys2Proof.Machine
end

