-- ==== Sys2Proof/Laws/Issue.lean ====
section
/-!
SUPPORT. What issuing an instruction can do, said once: the effect of the row with its last slot, a part, a guard that does
not hold, and each way of turning an instruction away.
-/

namespace Sys2Proof.Laws
open Sys2Proof.Machine Sys2Proof.Safety

/-- Checks that find every word readable, and disturb nothing else, let the step go on. -/
theorem memFaults_passed {fs : List MemFault} {s r : State} {k : State → State} (h : memChecks fs s = (true, r))
    (u : undisturbed s r = true) : memFaults fs s k = k r := by
  unfold memFaults
  rw [h]
  exact if_pos u

/-- With the row, its guard and its operands in order, an issue is the row's effect with the last slot, and a part before it. -/
theorem issue_slots {row : Nat → Nat → Bool} {cost : Nat} {i : Issue} {c : Nat} {s s' : State}
    {body : State → Nat → Fields → State} (h : Issuing i c s s')
    (hr : row (fieldsOf i.word).op (fieldsOf i.word).fn = true) :
    issue row cost i s body =
      if (threadAt s i).parts + issueSlots s i < cost then
        updThread s' i.jet i.thread fun y => { y with parts := y.parts + issueSlots s i }
      else body s' c (fieldsOf i.word) := by
  obtain ⟨can, al, re, ⟨sf, sm, hf, hm, hu, rfl⟩, ke, le, gu, pa⟩ := h
  unfold threadAt at *
  unfold issue
  rw [can]
  dsimp only
  rw [if_neg (by simpa using al), if_neg (by simp [re]), hf]
  dsimp only
  rw [if_neg (by simp [hr]), memFaults_passed hm hu, if_neg (by simp [le]), if_neg (by simp [gu]), if_neg (by omega)]
  rfl

/-- An instruction that issues with its last slot has its row's effect on the state after the fetch. -/
theorem issue_runs {row : Nat → Nat → Bool} {cost : Nat} {i : Issue} {c : Nat} {s s' : State}
    {body : State → Nat → Fields → State} (h : Issuing i c s s')
    (hr : row (fieldsOf i.word).op (fieldsOf i.word).fn = true) (hc : LastSlot i s cost) :
    issue row cost i s body = body s' c (fieldsOf i.word) := by
  unfold LastSlot at hc
  rw [issue_slots h hr, if_neg (by omega)]

/-- With fewer slots than the instruction needs, it has completed only parts (R85). -/
theorem issue_parts {row : Nat → Nat → Bool} {cost : Nat} {i : Issue} {c : Nat} {s s' : State}
    {body : State → Nat → Fields → State} (h : Issuing i c s s')
    (hr : row (fieldsOf i.word).op (fieldsOf i.word).fn = true) (hc : ¬ LastSlot i s cost) :
    issue row cost i s body =
      updThread s' i.jet i.thread fun x => { x with parts := x.parts + issueSlots s i } := by
  unfold LastSlot at hc
  rw [issue_slots h hr, if_pos (by omega)]

/-- A thread that cannot issue leaves everything unchanged. -/
theorem issue_none {row : Nat → Nat → Bool} {cost : Nat} {i : Issue} {s : State}
    {body : State → Nat → Fields → State} (h : canIssue s i = none) : issue row cost i s body = s := by
  unfold issue
  rw [h]

/-- A guard that does not hold: the instruction uses its slot and does nothing else (R78). -/
theorem issue_guarded {row : Nat → Nat → Bool} {cost : Nat} {i : Issue} {c : Nat} {s sf : State}
    {body : State → Nat → Fields → State} (h : Fetching i c s sf)
    (le : legal (fieldsOf i.word) = true) (hr : row (fieldsOf i.word).op (fieldsOf i.word).fn = true)
    (gu : guardOn (threadAt s i) (fieldsOf i.word) = false) :
    issue row cost i s body = retire sf i.jet i.thread id := by
  obtain ⟨can, al, re, hf, hs⟩ := h
  unfold threadAt at *
  unfold issue
  rw [can]
  dsimp only
  rw [if_neg (by simpa using al), if_neg (by simp [re]), hf]
  dsimp only
  rw [if_neg (by simp [hr]), hs, memFaults_nil, if_neg (by simp [le]), if_pos (by simp [gu])]

/-- A reserved word faults, whatever the row (R79). -/
theorem issue_illegal {row : Nat → Nat → Bool} {cost : Nat} {i : Issue} {c : Nat} {s sf : State}
    {body : State → Nat → Fields → State} (h : Fetching i c s sf)
    (le : legal (fieldsOf i.word) = false) : issue row cost i s body = threadFault sf c i.jet i.thread fIllegal := by
  obtain ⟨can, al, re, hf, hs⟩ := h
  unfold threadAt at *
  unfold issue
  rw [can]
  dsimp only
  rw [if_neg (by simpa using al), if_neg (by simp [re]), hf]
  dsimp only
  rw [if_neg (by simp [le]), hs, memFaults_nil, if_pos (by simp [le])]

/-- A program counter that is not a multiple of 8 faults (R80). -/
theorem issue_misaligned {row : Nat → Nat → Bool} {cost : Nat} {i : Issue} {c : Nat} {s : State}
    {body : State → Nat → Fields → State} (can : canIssue s i = some c) (al : (threadAt s i).pc.toNat % 8 ≠ 0) :
    issue row cost i s body = threadFault (takeSlot s i.jet i.thread) c i.jet i.thread fAlign := by
  unfold threadAt at *
  unfold issue
  rw [can]
  dsimp only
  rw [if_pos al]

/-- A fetch from an unmapped address or from jet-local memory faults (R80). -/
theorem issue_unfetchable {row : Nat → Nat → Bool} {cost : Nat} {i : Issue} {c : Nat} {s : State}
    {body : State → Nat → Fields → State} (can : canIssue s i = some c) (al : (threadAt s i).pc.toNat % 8 = 0)
    (re : fetchable s c (threadAt s i).pc.toNat = false) :
    issue row cost i s body =
      accessFault (takeSlot s i.jet i.thread) c i.jet i.thread (threadAt s i).pc.toNat 8 false := by
  unfold threadAt at *
  unfold issue
  rw [can]
  dsimp only
  rw [if_neg (by simpa using al), if_pos (by simp [re])]

/-! What a fetch changes: memory (the cache of CACHE slices, a line written back), counters and the instruction cache. -/

/-- Everything but memory and counters is unchanged. -/
def OnlyMemory (s r : State) : Prop := r = { s with mem := r.mem, ctr := r.ctr }

theorem OnlyMemory.refl (s : State) : OnlyMemory s s := rfl

theorem OnlyMemory.trans {s r q : State} (h : OnlyMemory s r) (k : OnlyMemory r q) : OnlyMemory s q := by
  unfold OnlyMemory at *
  rw [k, h]

theorem OnlyMemory.jets {s r : State} (h : OnlyMemory s r) : r.jets = s.jets := by rw [h]

theorem dropLine_onlyMemory (s : State) (k : Nat) : OnlyMemory s (dropLine s k) := by
  unfold dropLine
  split
  · rfl
  · dsimp only
    split <;> rfl

theorem fillLine_onlyMemory (s : State) (n k : Nat) : OnlyMemory s (fillLine s n k) := by
  unfold fillLine
  split
  · rfl
  · dsimp only
    split
    · exact OnlyMemory.trans (dropLine_onlyMemory s _) rfl
    · rfl

theorem readLoc_onlyMemory (s : State) (ns : List Nat) (l : Loc) (n : Nat) : OnlyMemory s (readLoc s ns l n).2 := by
  unfold readLoc
  split
  · split
    · rfl
    · exact fillLine_onlyMemory s _ _
  all_goals rfl

theorem foldl_onlyMemory {α β : Type} (g : β → State) (step : β → α → β)
    (h : ∀ b a, OnlyMemory (g b) (g (step b a))) (l : List α) (b : β) : OnlyMemory (g b) (g (l.foldl step b)) := by
  induction l generalizing b with
  | nil => exact .refl _
  | cons a l ih => exact (h b a).trans (ih _)

theorem ctxRead_onlyMemory {s r : State} {c va n : Nat} {bs : List Byte} (h : ctxRead s c va n = some (bs, r)) :
    OnlyMemory s r := by
  unfold ctxRead at h
  split at h
  · injection h with h
    have e := congrArg Prod.snd h
    dsimp only at e
    rw [← e]
    refine foldl_onlyMemory (fun q : List Byte × State => q.2) _ ?_ _ ([], s)
    intro b a
    split
    · exact readLoc_onlyMemory _ _ _ _
    · exact .refl _
  · cases h

/-- A fetch changes the instruction cache, memory and counters, and no thread. -/
theorem fetched_frame {s r : State} {c j pc : Nat} {w : Word} (h : fetched s c j pc w = some r) :
    r = { s with jets := { s.jets with icache := r.jets.icache }, mem := r.mem, ctr := r.ctr } := by
  unfold fetched at h
  split at h
  · cases h; rfl
  · split at h
    · cases h
    · rename_i bs q hq
      split at h
      · cases h
        have k := ctxRead_onlyMemory hq
        unfold OnlyMemory at k
        rw [k]
        rfl
      · cases h

theorem noteErr_low_jets (s : State) (r : ErrRec) (w : Touch) (h : r.sev ≤ 1) : (noteErr s r w).jets = s.jets := by
  unfold noteErr
  have h4 : ¬ r.sev = 4 := by omega
  dsimp only
  rw [if_neg h4]
  split
  · rfl
  · have h1 : r.sev = 1 := by omega
    rw [if_pos h1]
    rfl

theorem setBit_jets (s : State) (off k : Nat) : (setBit s off k).jets = s.jets := rfl

theorem raise_low_jets (s : State) (code unit inst : Nat) (w : Touch) (h : codeSev code ≤ 1) :
    (raise s code unit inst w).jets = s.jets := by
  unfold raise
  rw [if_pos h]
  exact noteErr_low_jets s _ w h

theorem fetchReported_jets (i : Issue) (s : State) : (fetchReported i s).jets = s.jets := by
  unfold fetchReported
  split
  · rfl
  · rw [setBit_jets, raise_low_jets _ _ _ _ _ (by decide)]

/-- The issuing thread is what it was before the fetch. -/
theorem Issuing_thread {i : Issue} {c : Nat} {s s' : State} (h : Issuing i c s s') : threadAt s' i = threadAt s i := h.kept

end Sys2Proof.Laws
end

