-- ==== Sys2Proof/Tests/Slice0.lean ====
section
/-!
SUPPORT. Tests of one step each, and for every statement with hypotheses a state and operands that meet them.
-/

namespace Sys2Proof.Tests
open Sys2Proof.Machine Sys2Proof.Safety

set_option Elab.async false

/-! Small states. -/

/-- First address of SCRATCH slice 0: where the thread of the tests fetches. -/
def pc0 : Nat := 0x100000000000

/-- Context 0 runs; its page table is in frame 1, its ring and event queue are in a host window of 1 MiB. -/
def ctx0 : Ctx :=
  { st := .running, ringHost := true, ringBase := 0x10000, ringLog2 := 4, evqBase := 0x20000, evqLog2 := 4, quantum := 5, job := 7
    ptRoot := 0x200000
    windows := [(0, (0x10000, 0x100000))]
    lease := { terraces := 1, basins := 1, slices := 3, regionCount := 16 } }

/-- Host port 0, with the platform view and contexts 0 to 7. -/
def port0 : Port :=
  { created := true, platform := true, ctxCount := 8, terraces := 255, basins := 63, slices := 0xFF, frameCount := 64, lanes := 2 }

/-- A channel of jet 0 with room for two messages of two flits, and the source that it has. -/
def chan (held : List (Nat × Option Slot)) : Channel :=
  { st := .opened, any := true, base := 0x200000001000, slots := 2, largest := 2, sources := 1, conns := [(0, 4)], msgs := held, next := 1 }

/-- Jet 0: channel 5 holds a message, channel 6 is ORDERED, channel 7 holds none, channel 8 has no source; connections 0 and 1 to a jet and 2
and 3 to a row port, the first of each with a credit; connection 4 to channel 7 of jet 0 with a message in flight; barriers: 0 with
one of two arrivals, 1 BROKEN, 2 not initialised, and 3 complete. -/
def jets0 : Jets :=
  { terraces := [(0, { lease := some 0 })]
    chans := [(5, chan [(0, some ⟨0, 4, 1, 9, 0, false⟩)]), (6, { chan [] with any := false }), (7, chan []), (8, { chan [] with conns := [] })]
    conns := [(0, { used := true, dst := 1, ch := 3, credits := 1, largest := 2 }), (1, { used := true, dst := 1, ch := 3, largest := 2 }),
              (2, { used := true, dst := 0x1000, credits := 1, largest := 1 }), (3, { used := true, dst := 0x1000, largest := 1 }),
              (4, { used := true, dst := 0, ch := 7, credits := 1, largest := 2 })]
    bars := [(0, { init := true, members := 2, arrivals := 1 }), (1, { init := true, broken := true, members := 2 }),
             (3, { init := true, members := 1, gen := 1 })]
    msgs := [{ src := 0, srcIdx := 4, dst := 0, ch := 7, tag := 3, thread := 9, data := List.replicate 64 1 }] }

/-- After the lock: context 0 holds terrace 0, basin 0, slices 0 and 1, and frames 1 to 3; its first page is frame 2, writable. -/
def base : State :=
  { csr := resetRegs
    boot := { inReset := false, locked := true, st := .locked, udsLatched := true, aliasValid := true }
    host := { ctxs := [(0, ctx0)], ports := [(0, port0)], frames := [(1, 1), (2, 1), (3, 1)] }
    jets := jets0
    basins := [(0, { lease := some 0 })]
    mem := { slices := [(0, { lease := some 0 }), (1, { lease := some 0 })]
             cells := [(0x200000, 0x01), (0x200001, 0x10), (0x200002, 0x20), (0x201000, 0x03), (0x201002, 0x40)] } }

/-- In every state, a step whose reads find nothing wrong. -/
theorem reads_nil (s : State) : Claim.Reads [] s s := ⟨rfl, by simp [undisturbed]⟩

/-- In every state, a step one of whose reads is uncorrectable: two wrong bits of a word of cistern slice 0. -/
theorem readFails_slice (s : State) : Claim.ReadFails [⟨pc0, [0, 1]⟩] s (memChecks [⟨pc0, [0, 1]⟩] s).2 := rfl

/-- Jet 0 with one thread, and the word at its program counter in the instruction cache. -/
def jetAt (x : Thread) (w : Word) : State :=
  { base with jets := { base.jets with threads := [(0, x)], icache := [(pc0, some w)] } }

/-- A READY thread of jet 0 with values in its registers. -/
def thr (regs : SMap Word) : Thread := { st := .ready, pc := BitVec.ofNat 64 pc0, regs }

/-- Thread 0 of jet 0 issues a word. -/
def iss (w : Word) (parity : Nat := 0) (parts : Nat := 8192) : Issue := { jet := 0, thread := 0, word := w, parity, parts }

/-- A word with its guard off (R77): OP, FN, D, A, B, IMM. -/
def word (op fn d a b imm : Nat) : Word :=
  BitVec.ofNat 64 (op * 2 ^ 58 + d * 2 ^ 49 + a * 2 ^ 45 + b * 2 ^ 41 + fn * 2 ^ 32 + imm)

/-- The state after the thread's issue slot. -/
def jetQ (regs : SMap Word) (w : Word) : State := takeSlot (jetAt (thr regs) w) 0 0

theorem ready_jetAt (regs : SMap Word) (w : Word) (feed : Bool) :
    readyThreads (jetAt (thr regs) w) 0 feed = if feed then [] else [0] := by
  cases feed <;> simp [readyThreads, jetAt, thr]

theorem nextThread_jetAt (regs : SMap Word) (w : Word) : nextThread (jetAt (thr regs) w) 0 = some 0 := by
  simp [nextThread, contested, ready_jetAt, nextAbove]

theorem canIssue_jetAt (regs : SMap Word) (w : Word) (p n : Nat) (hn : 0 < n) :
    canIssue (jetAt (thr regs) w) (iss w p n) = some 0 := by
  simp only [canIssue, iss, nextThread_jetAt]
  simp [jetAt, thr, base, jets0, getThread, SMap.get, inRange, unitsRun, ctxOfJet, getTerrace, getCtx, ctx0, hn]

theorem thread_jetAt (regs : SMap Word) (w : Word) (p n : Nat) : threadAt (jetAt (thr regs) w) (iss w p n) = thr regs := by
  simp [threadAt, iss, jetAt, getThread, SMap.get]

theorem pc_jetAt (regs : SMap Word) (w : Word) (p n : Nat) : (threadAt (jetAt (thr regs) w) (iss w p n)).pc.toNat = pc0 := by
  simp [threadAt, iss, jetAt, thr, getThread, SMap.get, pc0]

theorem fetchable_jetAt (regs : SMap Word) (w : Word) : fetchable (jetAt (thr regs) w) 0 pc0 = true := by
  simp [fetchable, locate, jetAt, base, getSlice, SMap.get, pc0]

theorem fetched_jetAt (regs : SMap Word) (w : Word) (p n : Nat) :
    fetched (jetQ regs w) 0 (iss w p n).jet (threadAt (jetAt (thr regs) w) (iss w p n)).pc.toNat (iss w p n).word =
      some (jetQ regs w) := by
  rw [pc_jetAt]
  have : SMap.get none (jetQ regs w).jets.icache (icKey (iss w p n).jet pc0) = some w := by
    simp only [icKey, iss, jetQ, takeSlot, jetAt, Nat.zero_mul, Nat.zero_add, SMap.get, if_true]
  unfold fetched
  rw [this]
  simp [iss]

theorem fetching (regs : SMap Word) (w : Word) (p n : Nat) (hn : 0 < n) :
    Fetching (iss w p n) 0 (jetAt (thr regs) w) (jetQ regs w) where
  can := canIssue_jetAt regs w p n hn
  aligned := by rw [pc_jetAt]; decide +kernel
  reach := by rw [pc_jetAt]; exact fetchable_jetAt regs w
  fetch := fetched_jetAt regs w p n
  sound := rfl

theorem issuing (regs : SMap Word) (w : Word) (n : Nat) (hn : 0 < n) (hl : legal (fieldsOf w) = true)
    (hg : guardOn (thr regs) (fieldsOf w) = true) : Issuing (iss w 0 n) 0 (jetAt (thr regs) w) (jetQ regs w) where
  can := canIssue_jetAt regs w 0 n hn
  aligned := (fetching regs w 0 n hn).aligned
  reach := (fetching regs w 0 n hn).reach
  fetch := ⟨_, _, fetched_jetAt regs w 0 n, rfl, by simp [undisturbed], by simp only [fetchReported, iss, if_true]⟩
  kept := rfl
  legal := hl
  guarded := by rw [thread_jetAt]; exact hg
  parity := Nat.zero_lt_two

/-- Register `r` of thread 0 of jet 0 after an outcome. -/
def regAfter (o : Res) (r : Nat) : Nat :=
  match o with
  | .next s => ((getThread s 0 0).reg r).toNat
  | _ => 2 ^ 64

/-- Thread 0 of jet 0 after an outcome. -/
def thrAfter (o : Res) : Thread :=
  match o with
  | .next s => getThread s 0 0
  | _ => {}

/-- What a predicate says of the state after an outcome. -/
def after (o : Res) (p : State → Bool) : Bool :=
  match o with
  | .next s => p s
  | _ => false

/-! Encodings: words written out from R77 and the tables of chapter 03. -/

theorem test_fields_add : fieldsOf 0x0406_4400_0000_0000 =
    { op := 1, ge := false, gn := false, gp := 0, d := 3, a := 2, b := 2, fn := 0, imm := 0 } := by decide +kernel
theorem test_fields_guard : fieldsOf 0x0B64_2603_FFFF_FFFF =
    { op := 2, ge := true, gn := true, gp := 3, d := 2, a := 1, b := 3, fn := 3, imm := 0xFFFFFFFF } := by decide +kernel

/-! Scalar results (R88 to R92). -/

theorem test_add_wraps : regAfter (exec (.add (iss (word 1 0 3 1 2 0)))
    (jetAt (thr [(1, 0xFFFFFFFFFFFFFFFF), (2, 2)]) (word 1 0 3 1 2 0))) 3 = 1 := by decide +kernel
theorem test_sub_immediate_is_signed : regAfter (exec (.sub (iss (word 2 1 3 1 0 0xFFFFFFFF)))
    (jetAt (thr [(1, 5)]) (word 2 1 3 1 0 0xFFFFFFFF))) 3 = 6 := by decide +kernel
theorem test_or_immediate_is_unsigned : regAfter (exec (.orI (iss (word 2 3 3 1 0 0x80000000)))
    (jetAt (thr [(1, 1)]) (word 2 3 3 1 0 0x80000000))) 3 = 0x80000001 := by decide +kernel
theorem test_sra_keeps_the_sign : regAfter (exec (.sra (iss (word 1 7 3 1 2 0)))
    (jetAt (thr [(1, 0x8000000000000000), (2, 67)]) (word 1 7 3 1 2 0))) 3 = 0xF000000000000000 := by decide +kernel
theorem test_div_by_zero : regAfter (exec (.div (iss (word 1 10 3 1 2 0)))
    (jetAt (thr [(1, 5)]) (word 1 10 3 1 2 0))) 3 = 0xFFFFFFFFFFFFFFFF := by decide +kernel
theorem test_rem_of_the_most_negative : regAfter (exec (.rem (iss (word 1 12 3 1 2 0)))
    (jetAt (thr [(1, 0x8000000000000000), (2, 0xFFFFFFFFFFFFFFFF)]) (word 1 12 3 1 2 0))) 3 = 0 := by decide +kernel
theorem test_mulhu : regAfter (exec (.mulhu (iss (word 1 9 1 1 1 0)))
    (jetAt (thr [(1, 0x100000000)]) (word 1 9 1 1 1 0))) 1 = 1 := by decide +kernel
theorem test_lih_keeps_the_low_half : regAfter (exec (.lih (iss (word 3 1 3 0 0 7)))
    (jetAt (thr [(3, 0x500000001)]) (word 3 1 3 0 0 7))) 3 = 0x700000001 := by decide +kernel
theorem test_s0_ignores_writes : regAfter (exec (.liz (iss (word 3 0 0 0 0 7))) (jetAt (thr []) (word 3 0 0 0 0 7))) 0 = 0 := by decide +kernel
theorem test_flt_of_the_zeros : (thrAfter (exec (.flt (iss (word 4 17 1 1 2 0)))
    (jetAt (thr [(1, 0x80000000)]) (word 4 17 1 1 2 0)))).preds = 0 := by decide +kernel
theorem test_fadd_rounds_to_even : regAfter (exec (.fadd (iss (word 7 0 3 1 2 0)))
    (jetAt (thr [(1, 0x3F800000), (2, 0x33800000)]) (word 7 0 3 1 2 0))) 3 = 0x3F800000 := by decide +kernel
theorem test_fdiv_by_zero : regAfter (exec (.fdiv (iss (word 7 4 3 1 2 0)))
    (jetAt (thr [(1, 0xBF800000)]) (word 7 4 3 1 2 0))) 3 = 0xFF800000 := by decide +kernel
theorem test_fsqrt_of_two : regAfter (exec (.fsqrt (iss (word 7 5 3 1 0 0)))
    (jetAt (thr [(1, 0x40000000)]) (word 7 5 3 1 0 0))) 3 = 0x3FB504F3 := by decide +kernel
theorem test_fmin_of_the_zeros : regAfter (exec (.fmin (iss (word 7 6 3 1 2 0)))
    (jetAt (thr [(2, 0x80000000)]) (word 7 6 3 1 2 0))) 3 = 0x80000000 := by decide +kernel
theorem test_fcvti_saturates : regAfter (exec (.fcvti (iss (word 7 8 3 1 0 0)))
    (jetAt (thr [(1, 0x5F000000)]) (word 7 8 3 1 0 0))) 3 = 0x7FFFFFFFFFFFFFFF := by decide +kernel
theorem test_branch_goes_back : (thrAfter (exec (.br (iss (word 8 1 3 0 0 0xFFFFFFFF)))
    (jetAt (thr []) (word 8 1 3 0 0 0xFFFFFFFF)))).pc = BitVec.ofNat 64 (pc0 - 8) := by decide +kernel

/-! Rows whose issue the statements assume. -/

theorem lastSlot_jetAt (regs : SMap Word) (w : Word) (n : Nat) :
    n ≤ (threadAt (jetAt (thr regs) w) (iss w 0 n)).parts + issueSlots (jetAt (thr regs) w) (iss w 0 n) := by
  have h : issueSlots (jetAt (thr regs) w) (iss w 0 n) = n := by simp [issueSlots, iss, ready_jetAt]
  omega

/-- Some issue of a word with this OP and FN meets every hypothesis of a row statement. -/
def CanIssueRow (op fn cost : Nat) : Prop :=
  ∃ i c s s', Issuing i c s s' ∧ LastSlot i s cost ∧ (fieldsOf i.word).op = op ∧ (fieldsOf i.word).fn = fn

theorem canIssueRow (w : Word) (op fn cost : Nat) (h : legal (fieldsOf w) && guardOn (thr []) (fieldsOf w) &&
    (fieldsOf w).op == op && (fieldsOf w).fn == fn && decide (cost ≤ 8192) = true) : CanIssueRow op fn cost := by
  simp only [Bool.and_eq_true, beq_iff_eq, decide_eq_true_eq] at h
  obtain ⟨⟨⟨⟨h1, h2⟩, h3⟩, h4⟩, h5⟩ := h
  exact ⟨iss w, 0, _, _, issuing [] w _ (by decide +kernel) h1 h2, Nat.le_trans h5 (lastSlot_jetAt [] w _), h3, h4⟩

theorem witness_IntegerInstructions :
    (∀ fn < 18, CanIssueRow 1 fn 16 ∧ CanIssueRow 2 fn 16) ∧ CanIssueRow 1 18 1 ∧ CanIssueRow 1 19 1 := by
  refine ⟨fun fn h => ⟨canIssueRow (word 1 fn 3 1 2 0) _ _ _ ?_, canIssueRow (word 2 fn 3 1 0 9) _ _ _ ?_⟩,
    canIssueRow (word 1 18 3 1 0 0) _ _ _ (by decide +kernel), canIssueRow (word 1 19 3 1 0 0) _ _ _ (by decide +kernel)⟩ <;> revert fn <;> decide +kernel

theorem witness_PredicatesAndComparisons :
    CanIssueRow 3 0 1 ∧ CanIssueRow 3 1 1 ∧ (∀ fn < 6, CanIssueRow 4 fn 1 ∧ CanIssueRow 5 fn 1) ∧
    (∀ fn ∈ [16, 17, 18, 19], CanIssueRow 4 fn 1) ∧ (∀ fn < 3, CanIssueRow 6 fn 1) ∧ CanIssueRow 6 3 1 ∧ CanIssueRow 6 4 1 ∧
    CanIssueRow 6 5 1 := by
  refine ⟨canIssueRow (word 3 0 3 0 0 7) _ _ _ (by decide +kernel), canIssueRow (word 3 1 3 0 0 7) _ _ _ (by decide +kernel),
    fun fn h => ⟨canIssueRow (word 4 fn 3 1 2 0) _ _ _ ?_, canIssueRow (word 5 fn 3 1 0 9) _ _ _ ?_⟩,
    fun fn h => canIssueRow (word 4 fn 3 1 2 0) _ _ _ ?_, fun fn h => canIssueRow (word 6 fn 3 1 2 0) _ _ _ ?_,
    canIssueRow (word 6 3 3 1 0 0) _ _ _ (by decide +kernel), canIssueRow (word 6 4 3 1 0 0) _ _ _ (by decide +kernel),
    canIssueRow (word 6 5 3 0 0 0) _ _ _ (by decide +kernel)⟩ <;> revert fn <;> decide +kernel

theorem witness_Binary32Operations :
    (∀ fn < 5, CanIssueRow 7 fn 12) ∧ (∀ fn ∈ [6, 7], CanIssueRow 7 fn 1) ∧ (∀ fn ∈ [5, 8, 9, 10, 11], CanIssueRow 7 fn 12) := by
  refine ⟨fun fn h => canIssueRow (word 7 fn 3 1 2 0) _ _ _ ?_, fun fn h => canIssueRow (word 7 fn 3 1 2 0) _ _ _ ?_,
    fun fn h => canIssueRow (word 7 fn 3 1 0 0) _ _ _ ?_⟩ <;> revert fn <;> decide +kernel

/-- R93 at the value 1 + 2^(−24), halfway between two encodings, at an overflow and at a value that is exact. -/
theorem witness_RoundingIsNearestEven :
    (f32.decode (f32.ieeeRound (.fin false (2 ^ 24 + 1) (-24)))).isFin = true ∧
    (f32.decode (f32.ieeeRound (.fin false 1 128))).isFin = false ∧ f32.bias + f32.fb ≤ 200 + 1 := by decide +kernel

theorem witness_ControlFlow : CanIssueRow 8 0 1 ∧ CanIssueRow 8 1 1 ∧ CanIssueRow 9 0 1 :=
  ⟨canIssueRow (word 8 0 0 0 0 2) _ _ _ (by decide +kernel), canIssueRow (word 8 1 3 0 0 2) _ _ _ (by decide +kernel),
    canIssueRow (word 9 0 3 1 0 2) _ _ _ (by decide +kernel)⟩

/-- A word with its guard on a predicate that does not hold, and a reserved word. -/
theorem witness_GuardedOffAndReserved :
    (∃ i s sf, Fetching i 0 s sf ∧ legal (fieldsOf i.word) = true ∧ row2 1 2 0 (fieldsOf i.word).op (fieldsOf i.word).fn = true ∧
      guardOn (threadAt s i) (fieldsOf i.word) = false) ∧
    ∃ i s sf, Fetching i 0 s sf ∧ legal (fieldsOf i.word) = false :=
  ⟨⟨_, _, _, fetching [] (word 1 0 3 1 2 0 ||| 0x0200_0000_0000_0000) 0 1 (by decide +kernel), by decide +kernel, by decide +kernel,
      by rw [thread_jetAt]; decide +kernel⟩, _, _, _, fetching [] 0 0 1 (by decide +kernel), by decide +kernel⟩

/-- A second parity error, and fewer issue slots than a division needs. -/
theorem witness_ParityAndParts :
    (∃ i s sf, Fetching i 0 s sf ∧ legal (fieldsOf i.word) = true ∧ row2 1 2 0 (fieldsOf i.word).op (fieldsOf i.word).fn = true ∧
      guardOn (threadAt s i) (fieldsOf i.word) = true ∧ 2 ≤ i.parity) ∧
    ∃ i s s', Issuing i 0 s s' ∧ row2 1 2 10 (fieldsOf i.word).op (fieldsOf i.word).fn = true ∧ ¬ LastSlot i s 16 :=
  ⟨⟨_, _, _, fetching [] (word 1 0 3 1 2 0) 2 1 (by decide +kernel), by decide +kernel, by decide +kernel, by rw [thread_jetAt]; decide +kernel, by decide +kernel⟩,
    _, _, _, issuing [] (word 1 10 3 1 2 0) 15 (by decide +kernel) (by decide +kernel) (by decide +kernel), by decide +kernel,
      fun h => absurd h (by rw [LastSlot, thread_jetAt]; decide)⟩

/-- A program counter that is not aligned, one that cannot be fetched from, and a fault of a running context. -/
theorem witness_FetchesAndFaults :
    (∃ s : State, canIssue s (iss 0) = some 0 ∧ (threadAt s (iss 0)).pc.toNat % 8 ≠ 0) ∧
    (∃ s : State, canIssue s (iss 0) = some 0 ∧ (threadAt s (iss 0)).pc.toNat % 8 = 0 ∧
      fetchable s 0 (threadAt s (iss 0)).pc.toNat = false) ∧
    (fetched (jetAt (thr []) 5) 0 0 pc0 5).isSome = true ∧
    ((getCtx base 0).st = .running ∧ (getCtx base 0).window = none ∧ (getCtx base 0).suspending = false ∧
      ((getCtx base 0).evqTail - (getCtx base 0).evqHead).toNat < 2 ^ (getCtx base 0).evqLog2 ∧
      inWindow base 0 0x20000 64 = true ∧ ctxOfJet base 0 = some 0) :=
  ⟨⟨jetAt { thr [] with pc := 4 } 0, by decide +kernel, by decide +kernel⟩, ⟨jetAt { thr [] with pc := 0x200000 } 0, by decide +kernel, by decide +kernel, by decide +kernel⟩,
    by decide +kernel, by decide +kernel⟩

/-! Memory and vector instructions. -/

/-- An issue of `w`, by a thread with these registers, meets the hypotheses that every row has, and `p` of the state and the thread. -/
def Meets (regs : SMap Word) (w : Word) (p : State → Thread → Prop) : Prop :=
  ∃ i s s', Issuing i 0 s s' ∧ LastSlot i s 16 ∧ i.word = w ∧ threadAt s i = thr regs ∧ p s' (threadAt s i)

theorem meets {regs : SMap Word} {w : Word} {p : State → Thread → Prop}
    (h : (legal (fieldsOf w) && guardOn (thr regs) (fieldsOf w)) = true) (hp : p (jetQ regs w) (thr regs)) : Meets regs w p := by
  simp only [Bool.and_eq_true] at h
  refine ⟨iss w, _, _, issuing regs w _ (by decide +kernel) h.1 h.2, ?_, rfl, thread_jetAt regs w 0 _, ?_⟩
  · exact Nat.le_trans (by decide) (lastSlot_jetAt regs w 8192)
  · rw [thread_jetAt]; exact hp

/-- First address of the memory of jet 0, and its last word. -/
def jlm0 : Nat := 0x200000000000
def jlmTop : Nat := 0x20000007FFF8

theorem test_ld_signed_word : regAfter (exec (.ld (iss (word 0x0A 6 3 1 0 4))) (writePhys
    (jetAt (thr [(1, BitVec.ofNat 64 jlm0)]) (word 0x0A 6 3 1 0 4)) (jlm0 + 4) [0xFE, 0xFF, 0xFF, 0xFF])) 3 = 0xFFFFFFFFFFFFFFFE := by
  decide +kernel
theorem test_st_half : after (exec (.st (iss (word 0x0B 1 0 1 2 2)))
    (jetAt (thr [(1, BitVec.ofNat 64 jlm0), (2, 0x12345678)]) (word 0x0B 1 0 1 2 2)))
    (fun s => readPhys s (jlm0 + 1) 4 == [0, 0x78, 0x56, 0]) = true := by decide +kernel
theorem test_acas_swaps : after (exec (.acas (iss (word 0x0C 2 3 1 2 0)))
    (jetAt (thr [(1, BitVec.ofNat 64 jlm0), (2, 9)]) (word 0x0C 2 3 1 2 0))) (fun s => byteAt s jlm0 == 9) = true := by decide +kernel

/-- LD and ST: an unaligned address, the last bytes of the jet's own memory, an address in SCRATCH and one outside every region. -/
theorem witness_MemoryInstructions :
    (∀ op ∈ [0x0A, 0x0B], Meets [(1, 2)] (word op 3 0 1 0 0) fun _ x => (x.reg 1).toNat % 8 ≠ 0) ∧
    (∀ op ∈ [0x0A, 0x0B], Meets [(1, BitVec.ofNat 64 jlmTop)] (word op 3 0 1 0 0) fun _ x =>
      (x.reg 1).toNat % 8 = 0 ∧ jlmBase 0 ≤ (x.reg 1).toNat ∧ (x.reg 1).toNat + 8 ≤ jlmBase 0 + 0x80000) ∧
    (∀ op ∈ [0x0A, 0x0B], Meets [(1, BitVec.ofNat 64 pc0)] (word op 3 0 1 0 0) fun s x =>
      (x.reg 1).toNat % 8 = 0 ∧ ¬ (jlmBase 0 ≤ (x.reg 1).toNat) ∧ external s 0 (x.reg 1).toNat (op == 0x0B) = some (.cistern pc0)) ∧
    (∀ op ∈ [0x0A, 0x0B], Meets [(1, 0x200000)] (word op 3 0 1 0 0) fun s x =>
      (x.reg 1).toNat % 8 = 0 ∧ ¬ (jlmBase 0 ≤ (x.reg 1).toNat) ∧ external s 0 (x.reg 1).toNat (op == 0x0B) = none) := by
  refine ⟨fun op h => meets ?_ ?_, fun op h => meets ?_ ?_, fun op h => meets ?_ ?_, fun op h => meets ?_ ?_⟩ <;> revert op <;> decide +kernel

/-- Each ATOM on an unaligned address, on another region, and on the last word of the jet's own memory. -/
theorem witness_AtomicOperations : ∀ fn < 9,
    Meets [(1, 2)] (word 0x0C fn 3 1 2 0) (fun _ x => (x.reg 1).toNat % 4 ≠ 0) ∧
    Meets [(1, BitVec.ofNat 64 pc0)] (word 0x0C fn 3 1 2 0)
      (fun _ x => (x.reg 1).toNat % 4 = 0 ∧ ownRange 0 (x.reg 1).toNat 4 = false) ∧
    Meets [(1, BitVec.ofNat 64 (jlmTop + 4))] (word 0x0C fn 3 1 2 0)
      (fun _ x => (x.reg 1).toNat % 4 = 0 ∧ ownRange 0 (x.reg 1).toNat 4 = true) := by
  intro fn h
  refine ⟨meets ?_ ?_, meets ?_ ?_, meets ?_ ?_⟩ <;> revert fn <;> decide +kernel

/-- BULK and WOP: unaligned, admitted, refused; FENCE and IFLUSH; a thread that waits for memory or at a fence. -/
theorem witness_FencesBulkAndWaiting :
    CanIssueRow 0x0D 0 1 ∧ CanIssueRow 0x0D 1 1 ∧
    (∃ s : State, ctxOfJet s 0 = some 0 ∧ (getThread s 0 0).st = .waitMem ∧ (getThread s 0 0).wait = .fence) ∧
    Meets [(1, 64)] (word 0x0E 0 2 1 0 1) (fun _ x => (x.reg 1).toNat % 128 ≠ 0) ∧
    Meets [(1, BitVec.ofNat 64 pc0), (2, BitVec.ofNat 64 jlm0)] (word 0x0E 0 2 1 0 1) (fun s x => (x.reg 1).toNat % 128 = 0 ∧
      (ownRange 0 (x.reg 2).toNat 128 && (partsOf 0x80000 (x.reg 1).toNat 128).all fun p => (external s 0 p.1 false).isSome) = true) ∧
    Meets [] (word 0x0E 0 2 1 0 1) (fun _ x => (x.reg 1).toNat % 128 = 0 ∧ ownRange 0 (x.reg 2).toNat 128 = false) ∧
    Meets [(1, 8)] (word 0x0F 0 0 1 2 0) (fun _ x => (x.reg 1).toNat % 64 ≠ 0) ∧
    Meets [(2, BitVec.ofNat 64 jlm0)] (word 0x0F 0 0 1 2 0) (fun s x => (x.reg 1).toNat % 64 = 0 ∧ (x.reg 2).toNat % 64 = 0 ∧
      locate s 0 (x.reg 1).toNat true = some (.hbm 0x400000 false) ∧ ownRange 0 (x.reg 2).toNat 64 = true) ∧
    Meets [] (word 0x0F 0 0 1 2 0) (fun _ x => (x.reg 1).toNat % 64 = 0 ∧ (x.reg 2).toNat % 64 = 0 ∧
      ownRange 0 (x.reg 2).toNat 64 = false) := by
  refine ⟨canIssueRow (word 0x0D 0 0 0 0 0) _ _ _ (by decide +kernel), canIssueRow (word 0x0D 1 0 0 0 0) _ _ _ (by decide +kernel),
    ⟨jetAt { thr [] with st := .waitMem, wait := .fence } 0, by decide +kernel⟩, ?_⟩
  refine ⟨meets ?_ ?_, meets ?_ ?_, meets ?_ ?_, meets ?_ ?_, meets ?_ ?_, meets ?_ ?_⟩ <;> decide +kernel

theorem test_translate_first_page : locate base 0 0x12345 true = some (.hbm 0x412345 false) := by decide +kernel

/-- Accesses in WAIT_MEM: a load and a store of SCRATCH, and a BULK with one of two chunks done; a read that cannot be corrected. -/
theorem witness_WaitingAccesses :
    (∃ s : State, ctxOfJet s 0 = some 0 ∧ (getThread s 0 0).st = .waitMem ∧ (getThread s 0 0).wait = .load (.cistern pc0) 8 false 3 ∧
      (memChecks [⟨pc0, [0, 1]⟩] s).1 = false) ∧
    (∃ s : State, ctxOfJet s 0 = some 0 ∧ (getThread s 0 0).st = .waitMem ∧ (getThread s 0 0).wait = .store (.cistern pc0) [1]) ∧
    (∃ s : State, ctxOfJet s 0 = some 0 ∧ (getThread s 0 0).st = .waitMem ∧
      (getThread s 0 0).wait = .bulk true [(.cistern pc0, 256)] jlm0 ∧
      (bulkChunks (cacheSlices s 0) true 1 s [(.cistern pc0, 256)] jlm0).2.1 ≠ [] ∧
      (bulkChunks (cacheSlices s 0) true 2 s [(.cistern pc0, 256)] jlm0).2.1 = []) :=
  ⟨⟨jetAt { thr [] with st := .waitMem, wait := .load (.cistern pc0) 8 false 3 } 0, by decide +kernel⟩,
    ⟨jetAt { thr [] with st := .waitMem, wait := .store (.cistern pc0) [1] } 0, by decide +kernel⟩,
    ⟨jetAt { thr [] with st := .waitMem, wait := .bulk true [(.cistern pc0, 256)] jlm0 } 0, by decide +kernel⟩⟩

theorem test_vadd_bf16 : after (exec (.vadd (iss (word 0x10 0 3 1 2 0x100001)))
    (writePhys (jetAt (thr [(1, BitVec.ofNat 64 jlm0), (2, BitVec.ofNat 64 jlm0), (3, BitVec.ofNat 64 jlm0)])
      (word 0x10 0 3 1 2 0x100001)) jlm0 [0x80, 0x3F])) (fun s => readPhys s jlm0 2 == [0x00, 0x40]) = true := by decide +kernel

/-- Elementwise rows and reductions of one element: unaligned, outside the jet's memory, and inside it. -/
theorem witness_VectorInstructions :
    (∀ fn < 7, Meets [(3, 1)] (word 0x10 fn 3 1 2 1) (fun _ x => operandAligned x 3 4 = false) ∧
      Meets [] (word 0x10 fn 3 1 2 1) (fun _ x => operandAligned x 3 4 = true ∧ operandInside 0 x 3 1 4 = false) ∧
      Meets [(1, BitVec.ofNat 64 jlm0), (2, BitVec.ofNat 64 jlm0), (3, BitVec.ofNat 64 jlm0)] (word 0x10 fn 3 1 2 1) fun _ x =>
        operandAligned x 3 4 = true ∧ (operandInside 0 x 1 1 4 && operandInside 0 x 2 1 4 && operandInside 0 x 3 1 4) = true ∧
        x.parts = 0 ∧ x.latch = [] ∧ 4 * ceilDiv 1 (128 / Nat.max 4 4) ≤ 8192) ∧
    (∃ x : VArgs, x.ty ≤ 2 ∧ isNaN ((vfmt x.ty).decode x.a) = true ∧ isNaN ((vfmt x.ty).decode x.b) = false) ∧
    (∃ x : VArgs, x.ty ≤ 2 ∧ ((vfmt x.ty).decode x.a).lt ((vfmt x.ty).decode x.b) = true) ∧ ∃ x : VArgs, 2 < x.ty := by
  refine ⟨fun fn h => ⟨meets ?_ ?_, meets ?_ ?_, meets ?_ ?_⟩, ⟨⟨0, 0x7FC00000, 0, 0, 0⟩, by decide +kernel⟩, ⟨⟨0, 0, 0x3F800000, 0, 0⟩, by decide +kernel⟩,
    ⟨3, 0, 0, 0, 0⟩, by decide +kernel⟩ <;> revert fn <;> decide +kernel

theorem witness_VectorReductions : ∀ fn < 4, Meets [(1, 1)] (word 0x11 fn 0 1 0 1) (fun _ x => operandAligned x 1 4 = false) ∧
    Meets [] (word 0x11 fn 0 1 0 1) (fun _ x => operandAligned x 1 4 = true ∧ operandInside 0 x 1 1 4 = false) ∧
    Meets [(1, BitVec.ofNat 64 jlm0)] (word 0x11 fn 0 1 0 1) fun _ x => operandAligned x 1 4 = true ∧ operandInside 0 x 1 1 4 = true ∧
      x.parts = 0 ∧ x.latch = [] := by
  intro fn h
  refine ⟨meets ?_ ?_, meets ?_ ?_, meets ?_ ?_⟩ <;> revert fn <;> decide +kernel

/-! Messages, barriers, threads, and what happens between instructions. -/

/-- The address of the first free byte of jet 0's memory that the tests use. -/
def buf : Word := 0x200000002000

/-- CHOPEN, CHCLOSE, CONN and DISC: each clause at a channel, endpoint or entry that meets it. -/
theorem witness_ChannelsAndConnections :
    Meets [(1, 5), (2, buf)] (word 0x18 0 0 1 2 0x100) (fun s x => (getChan s 0 (x.reg 1).toNat).st ≠ .closed) ∧
    Meets [(1, 255), (2, buf)] (word 0x18 0 0 1 2 0x100) (fun s x => (getChan s 0 (x.reg 1).toNat).st = .closed ∧
      (x.reg 2).toNat % 64 = 0 ∧ jlmBase 0 ≤ (x.reg 2).toNat ∧ (x.reg 2).toNat + 1 * 2 * 64 ≤ jlmBase 0 + 65536 * (getCtx s 0).lease.extent) ∧
    Meets [(1, 256)] (word 0x18 1 0 1 0 0) (fun _ x => 256 ≤ (x.reg 1).toNat) ∧
    Meets [(1, 255)] (word 0x18 1 0 1 0 0) (fun s x => (getChan s 0 (x.reg 1).toNat).st = .closed) ∧
    Meets [(1, 8)] (word 0x18 1 0 1 0 0) (fun s x => (getChan s 0 (x.reg 1).toNat).conns = []) ∧
    Meets [(1, 5)] (word 0x18 1 0 1 0 0) (fun s x => (getChan s 0 (x.reg 1).toNat).conns ≠ []) ∧
    Meets [(2, 256)] (word 0x18 2 3 1 2 0) (fun _ x => 256 ≤ (x.reg 2).toNat) ∧
    Meets [(1, 512)] (word 0x18 2 3 1 2 0) (fun s x => Machine.opens s 0 (x.reg 1).toNat = false) ∧
    Meets [(1, 511)] (word 0x18 2 3 1 2 0) (fun s x => Machine.opens s 0 (x.reg 1).toNat = true ∧ (getConn s 0 63).used = false) ∧
    Meets [(1, 64)] (word 0x18 3 0 1 0 0) (fun _ x => 64 ≤ (x.reg 1).toNat) ∧
    Meets [(1, 4)] (word 0x18 3 0 1 0 0) (fun s x => connUsable (getConn s 0 (x.reg 1).toNat) = true ∧ inFlight s 0 4 = true) ∧
    Meets [(1, 0)] (word 0x18 3 0 1 0 0) (fun s x => connUsable (getConn s 0 (x.reg 1).toNat) = true ∧ inFlight s 0 0 = false) := by
  refine ⟨meets ?_ ?_, meets ?_ ?_, meets ?_ ?_, meets ?_ ?_, meets ?_ ?_, meets ?_ ?_, meets ?_ ?_, meets ?_ ?_, meets ?_ ?_, meets ?_ ?_,
    meets ?_ ?_, meets ?_ ?_⟩ <;> decide +kernel

/-- SEND and FEED: no connection, an unaligned payload, one outside the jet's memory, one too long, a credit, and no credit. -/
theorem witness_SendAndFeed :
    (∀ fn ∈ [4, 5], Meets [(1, 63)] (word 0x18 fn 3 1 2 0) (fun s x => connUsable (getConn s 0 (x.reg 1).toNat) = false) ∧
      Meets [(2, 8)] (word 0x18 fn 3 1 2 0) (fun s x => connUsable (getConn s 0 0) = true ∧ (x.reg 2).toNat % 64 ≠ 0) ∧
      Meets [] (word 0x18 fn 3 1 2 0) (fun _ x => (x.reg 2).toNat % 64 = 0 ∧ ownRange 0 (x.reg 2).toNat 64 = false) ∧
      Meets [(2, buf)] (word 0x18 fn 3 1 2 0x20000) (fun s x => ownRange 0 (x.reg 2).toNat 192 = true ∧ (getConn s 0 0).largest < 3) ∧
      Meets [(2, buf)] (word 0x18 fn 3 1 2 0x10000) (fun s x => ownRange 0 (x.reg 2).toNat 128 = true ∧ (getConn s 0 0).largest = 2 ∧
        0 < (getConn s 0 0).credits) ∧
      Meets [(1, 1), (2, buf)] (word 0x18 fn 3 1 2 0x10000) (fun s _ => (getConn s 0 1).largest = 2 ∧ (getConn s 0 1).credits = 0)) ∧
    (∀ fn ∈ [6, 7], Meets [(1, 2), (2, buf)] (word 0x18 fn 3 1 2 0) (fun s _ => connUsable (getConn s 0 2) = true ∧
        (getConn s 0 2).dst / 4096 = 1 ∧ 0 < (getConn s 0 2).credits) ∧
      Meets [(1, 3), (2, buf)] (word 0x18 fn 3 1 2 0) (fun s _ => connUsable (getConn s 0 3) = true ∧ (getConn s 0 3).credits = 0)) := by
  refine ⟨fun fn h => ⟨meets ?_ ?_, meets ?_ ?_, meets ?_ ?_, meets ?_ ?_, meets ?_ ?_, meets ?_ ?_⟩, fun fn h => ⟨meets ?_ ?_, meets ?_ ?_⟩⟩
    <;> revert fn <;> decide +kernel

theorem test_recv_header : regAfter (exec (.recv (iss (word 0x18 8 2 1 0 0))) (jetAt (thr [(1, 5)]) (word 0x18 8 2 1 0 0))) 3 =
    0x90050000 := by decide +kernel

/-- RECV, RECVS and MSGFREE: a closed channel, an ORDERED one, a message, and none. -/
theorem witness_ReceiveAndFree :
    (∀ fn ∈ [8, 9, 10, 11], Meets [(1, 255)] (word 0x18 fn 2 1 0 0) (fun s x => (getChan s 0 (x.reg 1).toNat).st = .closed) ∧
      Meets [(1, 6)] (word 0x18 fn 2 1 0 0) (fun s x => (getChan s 0 (x.reg 1).toNat).st ≠ .closed ∧ (getChan s 0 (x.reg 1).toNat).any = false) ∧
      Meets [(1, 5)] (word 0x18 fn 2 1 0 0) (fun s x => (getChan s 0 (x.reg 1).toNat).any = true ∧
        (oldestMsg (getChan s 0 (x.reg 1).toNat) none).isSome = true ∧ (oldestMsg (getChan s 0 (x.reg 1).toNat) (some 0)).isSome = true) ∧
      Meets [(1, 7)] (word 0x18 fn 2 1 0 0) (fun s x => oldestMsg (getChan s 0 (x.reg 1).toNat) none = none)) ∧
    Meets [(1, 5), (2, 0x100)] (word 0x18 12 0 1 2 0) (fun s _ => SMap.get none (getChan s 0 5).msgs 1 = none) ∧
    Meets [(1, 5)] (word 0x18 12 0 1 2 0) (fun s _ => (getChan s 0 5).st ≠ .closed ∧ (SMap.get none (getChan s 0 5).msgs 0).isSome = true) := by
  refine ⟨fun fn h => ⟨meets ?_ ?_, meets ?_ ?_, meets ?_ ?_, meets ?_ ?_⟩, meets ?_ ?_, meets ?_ ?_⟩ <;> (try revert fn) <;> decide +kernel

/-- BARINIT, BARARR and BARWAIT on each kind of object. -/
theorem witness_Barriers :
    (∀ fn < 3, Meets [(1, 32)] (word 0x19 fn 0 1 0 0) (fun s x => handleKey s 0 0 (x.reg 1).toNat = none)) ∧
    Meets [(2, 2)] (word 0x19 0 0 1 2 0) (fun s _ => handleKey s 0 0 0 = some 0 ∧ (getBar s 0).broken = false ∧ (getBar s 0).arrivals ≠ 0) ∧
    Meets [(1, 2), (2, 256)] (word 0x19 0 0 1 2 0) (fun s x => handleKey s 0 0 2 = some 2 ∧ (x.reg 2).toNat ≤ maxMembers (2 / 2 ^ 32) ∧
      (getBar s 2).arrivals = 0) ∧
    Meets [(1, 1)] (word 0x19 1 3 1 0 0) (fun s _ => (getBar s 1).broken = true) ∧
    Meets [(1, 2)] (word 0x19 1 3 1 0 0) (fun s _ => (getBar s 2).broken = false ∧ (getBar s 2).init = false) ∧
    Meets [] (word 0x19 1 3 1 0 0) (fun s x => (getBar s 0).init = true ∧ x.wops = 0 ∧ messagesIn s 0 0 = true ∧
      (getBar s 0).arrivals + 1 = (getBar s 0).members) ∧
    Meets [(1, 31)] (word 0x19 2 3 1 0 0) (fun s x => handleKey s 0 0 (x.reg 1).toNat = some 31 ∧ (getBar s 31).init = false) ∧
    Meets [(1, 3)] (word 0x19 2 3 1 2 0) (fun s _ => (getBar s 3).init = true ∧ (barGen s 3 - BitVec.ofNat 16 0).toNat = 1) ∧
    Meets [(1, 3), (2, 1)] (word 0x19 2 3 1 2 0) (fun s _ => (barGen s 3 - BitVec.ofNat 16 1).toNat = 0) := by
  refine ⟨fun fn h => meets ?_ ?_, meets ?_ ?_, meets ?_ ?_, meets ?_ ?_, meets ?_ ?_, meets ?_ ?_, meets ?_ ?_, meets ?_ ?_, meets ?_ ?_⟩
    <;> (try revert fn) <;> decide +kernel

/-- SPAWN with a FREE thread, and the rows of the thread and system instructions; a barrier that its last waiting member leaves. -/
theorem witness_ThreadsAndSystem :
    (∀ fn ∈ [0, 1], Meets [] (word 0x1A fn 3 1 2 0) (fun s _ => (getThread s 0 0).st ≠ .free ∧ (getThread s 0 1).st = .free)) ∧
    CanIssueRow 0x1A 2 1 ∧ CanIssueRow 0x1A 3 1 ∧ CanIssueRow 0x1A 4 1 ∧ CanIssueRow 0x1B 0 1 ∧ CanIssueRow 0x1B 2 1 ∧
    ((getBar base 0).members = 2 ∧ (getBar base 0).broken = false ∧ (getBar base 0).inTree = false ∧
      (getBar base 0).arrivals = (getBar base 0).members - 1) ∧ (getBar base 3).members = 1 := by
  refine ⟨fun fn h => meets ?_ ?_, canIssueRow (word 0x1A 2 0 0 0 0) _ _ _ ?_, canIssueRow (word 0x1A 3 3 0 0 0) _ _ _ ?_,
    canIssueRow (word 0x1A 4 0 0 0 0) _ _ _ ?_, canIssueRow (word 0x1B 0 3 0 0 0) _ _ _ ?_, canIssueRow (word 0x1B 2 0 0 0 0) _ _ _ ?_, ?_⟩
    <;> (try revert fn) <;> decide +kernel

/-- The state of the tests with changed jets. -/
def withJets (f : Jets → Jets) : State := { base with jets := f base.jets }

/-- A message in turn for an open channel with a free slot; requests, grants and credits of each kind in flight. -/
theorem witness_RunnelEvents :
    (∃ s : State, ∃ m, s.jets.msgs[0]? = some m ∧ inTurn s 0 m = true ∧ m.dst / 4096 = 0 ∧ (getChan s m.dst m.ch).st ≠ .closed ∧
      (m.src, m.srcIdx) ∈ (getChan s m.dst m.ch).conns ∧ m.data.length ≤ 64 * (getChan s m.dst m.ch).largest ∧
      SMap.get none (getChan s m.dst m.ch).msgs 1 = none ∧ (getConn s m.src m.srcIdx).closing = false ∧
      ∀ e ∈ s.jets.threads, e.2.wait = .none) ∧
    (∃ s : State, ∃ m, s.jets.msgs[0]? = some m ∧ inTurn s 0 m = true ∧ (getChan s m.dst m.ch).st = .closed) ∧
    (∀ dst ∈ [3, 8, 7, 0x1000, 0x1001, 0x5000], ∃ (s : State) (r : ConnReq),
      s.jets.reqs[0]? = some r ∧ r.dst = dst ∧ r.srcIdx < 2 ^ 16) ∧
    ((getChan base 0 8).st = .opened ∧ (getChan base 0 8).conns.length < (getChan base 0 8).sources) ∧
    ((getChan base 0 7).sources ≤ (getChan base 0 7).conns.length) ∧
    (∃ s : State, ∃ g, s.jets.grants[0]? = some g ∧ g.ep / 4096 = 0 ∧
      firstWaiting s g.ep .waitCredit (fun w => match w with | .conn n _ => n == g.idx | _ => false) = some 0 ∧
      (getThread s g.ep 0).wait = .conn g.idx 3) ∧
    (∃ s : State, s.jets.credits[0]? = some (0, 1) ∧ connUsable (getConn s 0 1) = true ∧ firstWaiting s 0 .waitCredit (waitsCredit 1) = some 0 ∧
      (getThread s 0 0).wait = .send 1 [1] 0 3) ∧
    (∃ s : State, s.jets.credits[0]? = some (0, 3) ∧ connUsable (getConn s 0 3) = true ∧ firstWaiting s 0 .waitCredit (waitsCredit 3) = some 0 ∧
      (getThread s 0 0).wait = .feed 3 [1] 3) ∧
    ∃ s : State, s.jets.credits[0]? = some (0, 0) ∧ firstWaiting s 0 .waitCredit (waitsCredit 0) = none := by
  refine ⟨⟨base, _, rfl, by decide +kernel, by decide +kernel, by decide +kernel, by decide +kernel, by decide +kernel, by decide +kernel, by decide +kernel, by decide +kernel⟩,
    ⟨withJets fun j => { j with chans := [] }, _, rfl, by decide +kernel, by decide +kernel⟩,
    fun dst _ => ⟨withJets fun j => { j with reqs := [⟨0, 9, dst, 0⟩] }, _, rfl, rfl, show 9 < 2 ^ 16 by decide +kernel⟩, by decide +kernel, by decide +kernel,
    ⟨withJets fun j => { j with threads := [(0, { thr [] with st := .waitCredit, wait := .conn 9 3 })], grants := [⟨0, 9, true, 1, 1⟩] }, _, rfl,
      by decide +kernel, by decide +kernel, by decide +kernel⟩,
    ⟨withJets fun j => { j with threads := [(0, { thr [] with st := .waitCredit, wait := .send 1 [1] 0 3 })], credits := [(0, 1)] },
      by decide +kernel⟩,
    ⟨withJets fun j => { j with threads := [(0, { thr [] with st := .waitCredit, wait := .feed 3 [1] 3 })], credits := [(0, 3)] },
      by decide +kernel⟩,
    withJets fun j => { j with credits := [(0, 0)] }, by decide +kernel⟩

/-- A full send table, a message through a link port, a request through one with and without an entry, and checks that pass and fail. -/
theorem witness_RemoteConnections :
    (∃ s : State, ctxOfJet s 0 = some 0 ∧ ∀ n < 64, (getConn s 0 n).used = true) ∧
    (∃ s : State, ∃ m, s.jets.msgs[0]? = some m ∧ inTurn s 0 m = true ∧ unitsRun s = true ∧ m.dst / 4096 = 4 ∧
      (getConn s m.src m.srcIdx).remote = some (2, 3, 4) ∧ ctxOfJet s m.src = some 0) ∧
    (∃ s : State, ∃ r : ConnReq, s.jets.reqs[0]? = some r ∧ r.srcIdx < 2 ^ 16 ∧ r.dst / 4096 = 4 ∧ ctxOfJet s r.src = some 0 ∧
      remoteEntry s 0 r.ch = some (2, 3, 4)) ∧
    (∃ s : State, ∃ r : ConnReq, s.jets.reqs[0]? = some r ∧ r.dst / 4096 = 4 ∧ ctxOfJet s r.src = some 0 ∧ remoteEntry s 0 r.ch = none) ∧
    (∃ q : State, Claim.ReadFails [⟨pc0, [0, 1]⟩] base q) ∧ Claim.Reads [] base base := by
  refine ⟨⟨withJets fun j => { j with conns := (List.range 64).map fun n => (n, { used := true }) }, by decide +kernel⟩,
    ⟨withJets fun j => { j with
      msgs := [{ src := 0, srcIdx := 9, dst := 0x4000, ch := 4, tag := 0, thread := 0, data := List.replicate 64 1 }]
      conns := [(9, { used := true, dst := 0x4000, ch := 4, credits := 1, largest := 2, remote := some (2, 3, 4) })] }, _, rfl,
      by decide +kernel⟩,
    ⟨writePhys (withJets fun j => { j with reqs := [⟨0, 9, 0x4000, 5⟩] }) 0x400028 (toLe 8 (2 ^ 40 + 4 * 2 ^ 32 + 3 * 2 ^ 16 + 2)), _, rfl,
      by decide +kernel⟩,
    ⟨withJets fun j => { j with reqs := [⟨0, 9, 0x4000, 5⟩] }, _, rfl, by decide +kernel⟩,
    ⟨_, readFails_slice base⟩, reads_nil base⟩

/-- A failed jet whose terrace still has messages, and one at rest with spares and without. -/
theorem witness_JetSubstitution :
    let s : State := withJets fun j => { j with threads := [(0, thr [])], failed := [0] }
    let q : State := { s with jets := { s.jets with msgs := [] } }
    (unitsRun s = true ∧ 0 ∈ s.jets.failed ∧ terraceQuiet s 0 = false ∧ SMap.wf {} s.jets.threads = true ∧ (getThread s 0 0).st = .ready) ∧
    (unitsRun q = true ∧ 0 ∈ q.jets.failed ∧ terraceQuiet q 0 = true ∧ (getTerrace q 0).sparesUsed < 8) ∧
    (terraceQuiet (updTerrace q 0 fun x => { x with sparesUsed := 8 }) 0 = true) := by decide +kernel

/-- A command of the ring, from its bytes. -/
def cmd (bs : List Byte) (started : Bool) : Cmd := { slot := 0, raw := bs, started }

/-- The state of the tests with context 0 changed. -/
def withCtx (f : Ctx → Ctx) : State := updCtx base 0 f

/-- A wait beyond the limit, terraces with and without spares, a LAUNCH that waits, a context that must yield and is quiet, a resumption. -/
theorem witness_TerraceEvents :
    (∃ s : State, (getThread s 0 0).st = .waitMsg ∧ (getThread s 0 0).stalled = false ∧
      regOf s (oJet + 0x48) % 1024 * 50000000 < s.ticks - (getThread s 0 0).since ∧ ctxOfJet s 0 = some 0 ∧
      (getThread s 0 0).wait = .recv 5 2) ∧
    (unitsRun base = true ∧ (getTerrace base 0).sparesUsed < 8) ∧
    (8 ≤ (getTerrace (withJets fun j => { j with terraces := [(0, { lease := some 0, sparesUsed := 8 })] }) 0).sparesUsed) ∧
    (∃ s : State, ∃ m, (getCtx s 0).st = .running ∧ (getCtx s 0).saved = false ∧ unitsRun s = true ∧
      (getCtx s 0).cmds.find? (fun m => m.started && cmdOp m == 0x02 && m.threads.isEmpty) = some m ∧ leAt m.raw 8 1 = 0) ∧
    (∃ s : State, unitsRun s = true ∧ mustYield s 0 = true ∧ noUnits (getCtx s 0) = false ∧ (getCtx s 0).saved = false ∧
      (trafficClear s (heldTerraces s 0) (heldBasins s 0) && (heldBasins s 0).all (basinQuiet s)
        && s.jets.threads.all fun e => !(heldTerraces s 0).contains (e.1 / 256 / 512) || accessesDone e.2) = true) ∧
    (∃ s : State, ∃ v, unitsRun s = true ∧ (getCtx s 0).st = .running ∧ (getCtx s 0).saved = true ∧ (getCtx s 0).save = some v) ∧
    (thr []).st ≠ .stopped ∧ (thr []).back = .free :=
  ⟨⟨{ jetAt { thr [] with st := .waitMsg, wait := .recv 5 2 } 0 with ticks := 6000000000 }, by decide +kernel⟩, by decide +kernel, by decide +kernel,
    ⟨withCtx fun x => { x with cmds := [cmd [2] true] }, _, by decide +kernel, by decide +kernel, by decide +kernel, rfl, by decide +kernel⟩,
    ⟨{ updCtx { base with jets := { jets0 with msgs := [] }, basins := [(0, { lease := some 0, stopped := true })] } 0 fun x =>
      { x with suspending := true } with ticks := 1 }, by decide +kernel⟩,
    ⟨withCtx fun x => { x with saved := true, save := some {} }, _, by decide +kernel, by decide +kernel, by decide +kernel, rfl⟩, by decide +kernel, by decide +kernel⟩

/-! Basins and spouts. -/

/-- An item of a basin queue from its 64-bit words, checked. -/
def item (ws : List Nat) (seq : BitVec 32 := 1) : Item := { seq, raw := ws.flatMap (toLe 8), checked := true }

/-- MARK SIGNAL, WAIT and EXCHANGE; LOAD of a BF16 tile in SCRATCH slice 0; PASS of one BF16 row to SCRATCH slice 0 in mode `m`. -/
def signalItem (notify : Nat := 0) : Item := item [3 + 65536 * notify]
def waitItem (target : Nat) : Item := item [0x13, target * 2 ^ 32]
def exchangeItem : Item := item [0x23]
def loadItem (w0 : Nat := 0x12) : Item := item [w0, pc0, 1024]
def passWords (m : Nat) (more : Nat := 0) (rows : Nat := 1) : List Nat := [0x2101 + 16 * m + more, rows, 0, 1, pc0, 2048]
def passItem (m : Nat) (more : Nat := 0) : Item := item (passWords m more)

/-- A started pass. -/
def passRun (m : Nat) (more : Nat := 0) (rows : Nat := 1) : PassRun :=
  { seq := 1, raw := (passWords m more rows).flatMap (toLe 8), bank := 0 }

/-- A profile that delivers W40 without records. -/
def profile0 : List Byte := toLe 8 0x1B ++ toLe 8 0xFFFFFFFFFFFF

/-- The spout's side of a started pass. -/
def drain0 (m : Nat) (more : Nat := 0) (rows : Nat := 1) : PassDrain :=
  { seq := 1, ctx := 0, raw := (passWords m more rows).flatMap (toLe 8), prof := slice profile0 0 128, route := slice [] 0 64 }

/-- The state of the tests with basin 0 and its spout changed. -/
def withBasin (f : Basin → Basin) (sp : Spout := { profiles := [(0, profile0)] }) : State :=
  { base with basins := [(0, f { lease := some 0 })], spouts := [(0, sp)] }

/-- Basin 0 with a queue, after its banks were loaded with BF16 tiles. -/
def queued (q : List Item) (back : BankState := .ready) : State :=
  withBasin fun x => { x with queue := q, bank0 := { st := .ready, rcd := { fmt := 1 } }, bank1 := { st := back, rcd := { fmt := 1 } } }

/-- A pass of one row that names jet 512 as the one to notify. -/
def outer (more : Nat := 0) : Item := item [0x2101 + more, 1, 0, 1 + 512 * 2 ^ 28, pc0, 2048]

/-- Basin 0 with a pass of one row whose profile has the record `n` and word 0 `w`; the record's flags are `flags`. -/
def recorded (n w : Nat) (flags : Byte) (more : Nat) (scopes : SMap Nat := []) : State :=
  let prof := toLe 8 (0x1B + w) ++ toLe 8 (0xFFFFFFFF0000 + n)
  let s := withBasin (fun x => { x with queue := [outer more], bank0 := { st := .ready, rcd := { fmt := 1 } } }) { profiles := [(0, prof)] }
  { s with
    host := { s.host with ctxs := [(0, { ctx0 with scaleBase := pc0, scaleLen := 16385, scopes })] }
    mem := { s.mem with cells := SMap.put 0 s.mem.cells pc0 flags } }

/-- Canonical operands, a NaN, and INT40 sums at and inside both bounds; streams of one term and of 2^16. -/
theorem witness_Sums :
    (w40Canon 0x3FF0000000 = (0x3FF0000000 : W40) ∧ w40Val (0x7FF0000000 : W40) = .nan) ∧
    ((0x7FFFFFFFFF : W40).toInt = 2 ^ 39 - 1 ∧ (0x8000000000 : W40).toInt = -2 ^ 39) ∧
    ((0 : W40).toInt ≠ 2 ^ 39 - 1 ∧ (0 : W40).toInt ≠ -2 ^ 39) ∧
    ((List.replicate 65536 (0 : W40)).length ≤ 65536 ∧ ∀ v ∈ List.replicate 65536 (0 : W40), w40Canon v = v) := by
  refine ⟨by decide +kernel, by decide +kernel, by decide +kernel, Nat.le_of_eq List.length_replicate, fun v h => ?_⟩
  rw [(List.mem_replicate.mp h).2]; decide +kernel

theorem test_w40_one_and_one : w40Add 0x3FE0000000 0x3FE0000000 = 0x4000000000 := by decide +kernel
theorem test_int40_saturates : int40Add 0x7FFFFFFFFF 1 = 0x7FFFFFFFFF := by decide +kernel

set_option maxRecDepth 20000 in
/-- Items of each kind that pass and fail their check; each mark at the head; a WAIT at its target and one below it. -/
theorem witness_ItemsAndMarks :
    (∃ s : State, ∃ i, basinRuns s 0 = true ∧ ((getBasin s 0).queue.any fun i => i.failed.isSome || (i.checked && isMark 3 i)) = false ∧
      findItem (getBasin s 0) (fun i => !i.checked) = some i ∧ itemOk s 0 i = true ∧ isPass i = false) ∧
    (∃ s : State, ∃ i, basinRuns s 0 = true ∧ ((getBasin s 0).queue.any fun i => i.failed.isSome || (i.checked && isMark 3 i)) = false ∧
      findItem (getBasin s 0) (fun i => !i.checked) = some i ∧ itemOk s 0 i = true ∧ isPass i = true) ∧
    (∃ s : State, ∃ i, basinRuns s 0 = true ∧ ((getBasin s 0).queue.any fun i => i.failed.isSome || (i.checked && isMark 3 i)) = false ∧
      findItem (getBasin s 0) (fun i => !i.checked) = some i ∧ itemOk s 0 i = false) ∧
    (∀ n < 2, ∃ s : State, ∃ i, basinRuns s 0 = true ∧ (getBasin s 0).queue = [i] ∧ i.checked = true ∧ i.failed = none ∧ isMark 0 i = true ∧
      kNotify i.raw = (n == 1)) ∧
    (∀ n < 2, ∃ s : State, ∃ i, basinRuns s 0 = true ∧ findItem (getBasin s 0) (isMark 1) = some i ∧ i.checked = true ∧
      (∀ e ∈ (getBasin s 0).queue, e.failed = none) ∧ pathClear (getBasin s 0) i.seq = true ∧
      SMap.get 0 (getBasin s (kBasin i.raw)).comp (kCounter i.raw) = 0 ∧ kTarget i.raw = n) ∧
    (∀ st ∈ [BankState.ready, BankState.empty], ∃ s : State, ∃ i, basinRuns s 0 = true ∧ findItem (getBasin s 0) (isMark 2) = some i ∧
      i.checked = true ∧ (∀ e ∈ (getBasin s 0).queue, e.failed = none) ∧ pathClear (getBasin s 0) i.seq = true ∧
      (itemsBefore (getBasin s 0) i.seq).all (fun e => !isPass e || e.started) = true ∧ (getBasin s 0).passes.all (·.full) = true ∧
      arrayIdle (getBasin s 0) = true ∧ (getBasin s 0).token = false ∧ (itemsBefore (getBasin s 0) i.seq).any isLoad = false ∧
      (getBasin s 0).stOf (1 - (getBasin s 0).front) = st) :=
  ⟨⟨queued [{ signalItem with checked := false }], { signalItem with checked := false }, by decide +kernel⟩,
    ⟨queued [{ passItem 0 with checked := false }], { passItem 0 with checked := false }, by decide +kernel⟩,
    ⟨queued [{ item [0] with checked := false }], { item [0] with checked := false }, by decide +kernel⟩,
    fun n hn => ⟨queued [signalItem n], signalItem n, by revert n; decide +kernel⟩,
    fun n hn => ⟨queued [waitItem n], waitItem n, by revert n; decide +kernel⟩,
    fun st h => ⟨queued [exchangeItem] st, exchangeItem, by revert st; decide +kernel⟩⟩

set_option maxRecDepth 20000 in
/-- A LOAD that starts; a PASS that starts and one that finds no tile; an item that fails at the head. -/
theorem witness_LoadsAndPasses :
    (∃ s : State, ∃ i, basinRuns s 0 = true ∧ findItem (getBasin s 0) (fun i => isLoad i && !i.started) = some i ∧ i.checked = true ∧
      pathClear (getBasin s 0) i.seq = true ∧ (getBasin s 0).loading = none ∧ (getBasin s 0).token = false ∧
      (getBasin s 0).retire = none ∧ (getBasin s 0).passes = [] ∧ itemsBefore (getBasin s 0) i.seq = []) ∧
    (∀ st ∈ [BankState.ready, BankState.empty], ∃ s : State, ∃ i, basinRuns s 0 = true ∧
      findItem (getBasin s 0) (fun i => isPass i && !i.started) = some i ∧ i.checked = true ∧ pathClear (getBasin s 0) i.seq = true ∧
      (getBasin s 0).passes.all (·.full) = true ∧ (getBasin s 0).replay = [] ∧ (getBasin s 0).reloads = [] ∧
      (getBasin s 0).retire = none ∧ noTile (getBasin s 0) i.raw ((itemsBefore (getBasin s 0) i.seq).any isLoad) = (st == .empty) ∧
      (st = .ready → banksReady (getBasin s 0) i.raw ((itemsBefore (getBasin s 0) i.seq).any isLoad) = true) ∧
      turnOk (getBasin s 0) i.raw = true ∧
      fScaleRec (profileOf s 0 (pProfile i.raw)) = 0xFFFF ∧ fInA (profileOf s 0 (pProfile i.raw)) = 0xFFFF ∧
      fInB (profileOf s 0 (pProfile i.raw)) = 0xFFFF ∧ passConns i.raw (profileOf s 0 (pProfile i.raw)) = []) ∧
    (isAccum (pMode (passItem 2).raw) = true ∧ pCont (passItem 2).raw = false ∧ pCont (passItem 2 (2 ^ 24)).raw = true) ∧
    (∃ s : State, ∃ p d, basinLive s 0 = true ∧ (getBasin s 0).passes.find? (passDone s 0) = some p ∧ findDrain s 0 p.seq = some d ∧
      d.replayStep = false ∧ fScaleRec d.prof = 0xFFFF ∧ rtEnable d.route = false ∧ groupMember p.raw d.prof = false ∧
      pNotify p.raw = false ∧ p.conns = [] ∧ d.raw = p.raw ∧ (∀ e ∈ (getBasin s 0).queue, e.failed = none)) ∧
    (∃ s : State, ∃ i, (getBasin s 0).lease = some 0 ∧ (getBasin s 0).queue = [i] ∧ (getCtx s 0).st = .running ∧ (getCtx s 0).window = none ∧
      (getCtx s 0).suspending = false ∧ ((getCtx s 0).evqTail - (getCtx s 0).evqHead).toNat < 2 ^ (getCtx s 0).evqLog2 ∧
      inWindow s 0 ((getCtx s 0).evqBase + 64 * ((getCtx s 0).evqTail.toNat % 2 ^ (getCtx s 0).evqLog2)) 64 = true) :=
  ⟨⟨queued [loadItem], loadItem, by decide +kernel⟩,
    fun st h => ⟨withBasin fun x => { x with queue := [passItem 0], bank0 := { st, rcd := { fmt := 1 } } }, passItem 0,
      by revert st; decide +kernel⟩,
    by decide +kernel,
    ⟨withBasin (fun x => { x with queue := [{ passItem 0 with started := true }],
                                  passes := [{ passRun 0 with units := 1, cursor := 1, checked := 1 }] })
        { profiles := [(0, profile0)], passes := [drain0 0] },
      { passRun 0 with units := 1, cursor := 1, checked := 1 }, drain0 0, by decide +kernel⟩,
    ⟨queued [signalItem], signalItem, by decide +kernel⟩⟩

/-- The pass's record, and its input scales, as it starts. -/
def opening (s : State) : List Byte × State :=
  let a := openRecord s 0 0 (profileOf s 0 0)
  (a.1, (readSigma (readSigma a.2 0 (fInA (profileOf s 0 0))).2 0 (fInB (profileOf s 0 0))).2)

set_option maxRecDepth 20000 in
/-- A pass that starts with no record, one whose record suits its profile, one whose record does not, one of another scope in the step,
and one that notifies a jet outside its context. -/
theorem witness_PassRecords :
    ∀ e ∈ [(recorded 0xFFFF 0 0 0, 0), (recorded 0 0 0 0, 1), (recorded 0 0 0x11 0, 2), (recorded 0 0 0 0 [(0, 2)], 3),
      (recorded 0xFFFF 0 0 (2 ^ 40), 4)], ∃ i, basinRuns e.1 0 = true ∧
      findItem (getBasin e.1 0) (fun i => isPass i && !i.started) = some i ∧ i.checked = true ∧ pathClear (getBasin e.1 0) i.seq = true ∧
      (getBasin e.1 0).passes = [] ∧ (getBasin e.1 0).replay = [] ∧ (getBasin e.1 0).reloads = [] ∧ (getBasin e.1 0).retire = none ∧
      noTile (getBasin e.1 0) i.raw false = false ∧ itemsBefore (getBasin e.1 0) i.seq = [] ∧
      banksReady (getBasin e.1 0) i.raw false = true ∧ turnOk (getBasin e.1 0) i.raw = true ∧ pProfile i.raw = 0 ∧ basinCtx e.1 0 = 0 ∧
      ((opening e.1).1 == []) = (e.2 == 0 || e.2 == 4) ∧
      ((opening e.1).1 != [] && !recMatches (profileOf e.1 0 0) (opening e.1).1) = (e.2 == 2) ∧
      scopeOk (opening e.1).2 0 (profileOf e.1 0 0) = (e.2 != 3) ∧
      ((passConns i.raw (profileOf e.1 0 0)).any fun jc => !holdsJet (opening e.1).2 0 jc.1) = (e.2 == 4) := by
  intro e h
  simp only [List.mem_cons, List.not_mem_nil, or_false] at h
  obtain rfl | rfl | rfl | rfl | rfl := h
  · exact ⟨outer, by decide +kernel⟩
  · exact ⟨outer, by decide +kernel⟩
  · exact ⟨outer, by decide +kernel⟩
  · exact ⟨outer, by decide +kernel⟩
  · exact ⟨outer (2 ^ 40), by decide +kernel⟩

/-! A tile in SCRATCH slice 0 is read: the loads of R179 complete. -/

/-- A memory with context 0's SCRATCH slice 0, nothing of which has been written but perhaps its first byte. -/
structure Plain (m : Mem) : Prop where
  slice : SMap.get {} m.slices 0 = { lease := some 0 }
  zero : ∀ a, pc0 < a → SMap.get 0 m.cells a = 0

theorem partsOf_range {w a n : Nat} {p : Nat × Nat} (hp : p ∈ partsOf w a n) : a ≤ p.1 ∧ p.1 + p.2 ≤ a + n ∧ 0 < p.2 := by
  simp only [partsOf, List.mem_filterMap, List.mem_range] at hp
  obtain ⟨i, -, h⟩ := hp
  split at h
  · rename_i hlt
    cases h
    have h1 : a ≤ Nat.max a ((a / w + i) * w) := Nat.le_max_left ..
    have h2 : Nat.min (a + n) ((a / w + i + 1) * w) ≤ a + n := Nat.min_le_left ..
    omega
  · cases h

theorem locate_plain {s : State} (h : Plain s.mem) {va : Nat} (lo : pc0 ≤ va) (hi : va < pc0 + 0x2000000) :
    locate s 0 va false = some (.cistern va) := by
  have e : (va - 0x100000000000) / 0x2000000 = 0 := by simp only [pc0] at lo hi; omega
  have hs : getSlice s 0 = { lease := some 0 } := h.slice
  unfold locate
  rw [if_neg (by simp only [pc0] at lo; omega), if_pos (by simp only [pc0] at lo hi; simp; omega)]
  simp only [e, hs]
  rfl

/-- A range of the slice reads as itself, and nothing else changes. -/
theorem ctxRead_plain {m : Mem} (h : Plain m) {va n : Nat} (lo : pc0 ≤ va) (hi : va + n ≤ pc0 + 0x2000000) (hn : 0 < n) :
    ∃ r, (∀ s : State, s.mem = m → ctxRead s 0 va n = some (r, s)) ∧ (pc0 < va → ∀ b ∈ r, b = 0) := by
  have key : ∀ (ps : List (Nat × Nat)) (l : List Byte), (∀ p ∈ ps, va ≤ p.1 ∧ p.1 < pc0 + 0x2000000) →
      (pc0 < va → ∀ b ∈ l, b = 0) →
      ∃ r, (∀ s : State, s.mem = m → ps.foldl (fun (r : List Byte × State) p =>
        match locate r.2 0 p.1 false with
        | some l => let (bs, s) := readLoc r.2 (cacheSlices r.2 0) l p.2; (r.1 ++ bs, s)
        | none => r) (l, s) = (r, s)) ∧ (pc0 < va → ∀ b ∈ r, b = 0) := by
    intro ps
    induction ps with
    | nil => exact fun l _ hl => ⟨l, fun _ _ => rfl, hl⟩
    | cons p ps ih =>
      intro l hp hl
      have hq := hp p List.mem_cons_self
      obtain ⟨r, e, hz⟩ := ih (l ++ (List.range p.2).map fun i => SMap.get 0 m.cells (p.1 + i))
        (fun q hq => hp q (List.mem_cons_of_mem _ hq)) fun hv b hb => by
          rcases List.mem_append.mp hb with hb | hb
          · exact hl hv b hb
          · simp only [List.mem_map, List.mem_range] at hb
            obtain ⟨i, -, rfl⟩ := hb
            exact h.zero _ (by omega)
      refine ⟨r, fun s hs => ?_, hz⟩
      rw [List.foldl_cons]
      have hm : Plain s.mem := hs ▸ h
      simp only [locate_plain hm (Nat.le_trans lo hq.1) hq.2, readLoc, readPhys, byteAt, hs]
      exact e s hs
  obtain ⟨r, e, hz⟩ := key (partsOf 128 va n) [] (fun p hp => by have := partsOf_range hp; omega) (by simp)
  refine ⟨r, fun s hs => ?_, hz⟩
  have hm : Plain s.mem := hs ▸ h
  have hr : reachable s 0 va n false = true := by
    simp only [reachable, Bool.or_eq_true, Bool.and_eq_true, List.all_eq_true]
    refine .inr ⟨by rw [locate_plain hm lo (by omega)]; rfl, fun p hp => ?_⟩
    have := partsOf_range hp
    rw [locate_plain hm (by omega) (by omega)]; rfl
  unfold ctxRead
  rw [if_pos hr]
  exact congrArg some (e s hs)

/-- Rows of the slice. -/
theorem readRows_plain {m : Mem} (h : Plain m) {a stride len : Nat} (lo : pc0 ≤ a) (hl : 0 < len) :
    ∀ n, a + n * stride + len ≤ pc0 + 0x2000000 →
    ∃ l, (∀ s : State, s.mem = m → readRows 0 a stride len n s = some (l, s)) ∧ (pc0 < a → ∀ b ∈ l, b = 0)
  | 0, _ => ⟨[], fun _ _ => rfl, by simp⟩
  | n + 1, hi => by
    rw [Nat.add_mul, Nat.one_mul] at hi
    obtain ⟨l, e, hz⟩ := readRows_plain h (stride := stride) lo hl n (by omega)
    obtain ⟨r, f, hy⟩ := ctxRead_plain h (va := a + n * stride) (n := len) (by omega) (by omega) hl
    refine ⟨l ++ r, fun s hs => by simp [readRows, e s hs, f s hs], fun hv b hb => ?_⟩
    rcases List.mem_append.mp hb with hb | hb
    · exact hz hv b hb
    · exact hy (by omega) b hb

/-- The first row stands first. -/
theorem readRows_first {s : State} {c a stride len : Nat} {r : List Byte} (e : ctxRead s c a len = some (r, s)) :
    ∀ n l t, readRows c a stride len (n + 1) s = some (l, t) → ∃ q, l = r ++ q
  | 0, l, t, h => by
    simp only [readRows, Nat.zero_mul, Nat.add_zero, e] at h
    cases h
    exact ⟨[], by simp⟩
  | n + 1, l, t, h => by
    rw [readRows] at h
    cases h1 : readRows c a stride len (n + 1) s with
    | none => rw [h1] at h; cases h
    | some x =>
      rw [h1] at h
      simp only [] at h
      cases h2 : ctxRead x.2 c (a + (n + 1) * stride) len with
      | none => rw [h2] at h; cases h
      | some y =>
        rw [h2] at h
        cases h
        obtain ⟨q, hq⟩ := readRows_first e n x.1 x.2 h1
        exact ⟨q ++ y.1, by rw [hq, List.append_assoc]⟩

/-- The bank that a tile's bytes make. -/
def tileBank (k : Bank) (ws ts es : List Byte) : Bank := { k with
  st := .ready
  words := tabulate 0 262144 fun x => BitVec.ofNat 16 (leAt ws (2 * x) 2)
  tags := tabulate 0 ts.length fun x => ts.getD x 0
  scales := tabulate 0 es.length fun x => es.getD x 0
  crc := crc32c (ws ++ ts ++ es) }

/-- A tile in the slice is read. -/
theorem readTile_plain {m : Mem} (h : Plain m) {k : Bank} (hs : k.src = pc0) (ht : k.stride = 1024)
    (hm : k.rcd.sparse = 0 ∨ k.metaSrc = pc0 + 0x100000) (hx : isMx k.rcd.fmt = false ∨ k.scaleSrc = pc0 + 0x200000)
    (hf : k.rcd.fmt < 32) :
    ∃ ws ts es, ∀ s : State, s.mem = m → readTile s 0 k = some (tileBank k ws ts es, s) ∧
      readRows 0 pc0 1024 1024 512 s = some (ws, s) ∧ (∀ b ∈ ts, b = 0) := by
  obtain ⟨ws, ew, -⟩ := readRows_plain h (a := pc0) (stride := 1024) (len := 1024) (Nat.le_refl _) (by decide +kernel) 512 (by decide +kernel)
  have mt : ∃ ts, (∀ s : State, s.mem = m →
      readRows 0 k.metaSrc 512 512 (if k.rcd.sparse = 0 then 0 else 512) s = some (ts, s)) ∧ ∀ b ∈ ts, b = 0 := by
    by_cases hz : k.rcd.sparse = 0
    · exact ⟨[], fun s _ => by rw [if_pos hz]; rfl, by simp⟩
    · rw [if_neg hz, hm.resolve_left hz]
      obtain ⟨ts, et, hz⟩ := readRows_plain h (a := pc0 + 0x100000) (stride := 512) (len := 512) (by decide +kernel) (by decide +kernel) 512 (by decide +kernel)
      exact ⟨ts, et, hz (by decide +kernel)⟩
  obtain ⟨ts, et, hz⟩ := mt
  have me : ∃ es, ∀ s : State, s.mem = m →
      readRows 0 k.scaleSrc 0 (scaleBytes k.rcd.fmt) (if isMx k.rcd.fmt then 1 else 0) s = some (es, s) := by
    by_cases hz : isMx k.rcd.fmt = true
    · have hb : 0 < scaleBytes k.rcd.fmt ∧ scaleBytes k.rcd.fmt ≤ 0x10000 := by
        generalize k.rcd.fmt = n at hz hf
        exact (show ∀ n < 32, isMx n = true → 0 < scaleBytes n ∧ scaleBytes n ≤ 0x10000 by decide +kernel) n hf hz
      rw [if_pos hz, hx.resolve_left (by simp [hz])]
      obtain ⟨es, ee, -⟩ := readRows_plain h (a := pc0 + 0x200000) (stride := 0) (by decide +kernel) hb.1 1 (by simp only [pc0]; omega)
      exact ⟨es, ee⟩
    · exact ⟨[], fun s _ => by rw [if_neg hz]; rfl⟩
  obtain ⟨es, ee⟩ := me
  refine ⟨ws, ts, es, fun s hm => ⟨?_, ew s hm, hz⟩⟩
  unfold readTile
  rw [hs, ht, ew s hm]
  simp only []
  rw [et s hm]
  simp only []
  rw [ee s hm]
  simp only [tileBank, hs, ht]

/-- A LOAD of a tile in the slice: its first word and its expected CRC-32C. -/
def loadWords (w0 crc : Nat) : Item := { item [w0, pc0, 1024 + crc * 2 ^ 32, pc0 + 0x100000, pc0 + 0x200000] with started := true }

/-- The slice, with its first byte. -/
def sliceMem (b0 : Byte) : Mem := { base.mem with cells := SMap.put 0 base.mem.cells pc0 b0 }

/-- That LOAD in progress. -/
def loadingState (w0 crc : Nat) (b0 : Byte := 0) : State :=
  { withBasin fun x => { x with queue := [loadWords w0 crc], bank1 := { st := .loading }, loading := some 1 } with mem := sliceMem b0 }

theorem plain_slice (b0 : Byte) : Plain (sliceMem b0) where
  slice := rfl
  zero a ha := by
    have h : ∀ x : SMap Byte, (∀ e ∈ x, e.1 ≤ pc0) → SMap.get 0 x a = 0 := by
      intro x
      induction x with
      | nil => exact fun _ => rfl
      | cons e x ih =>
        intro hx
        have := hx e List.mem_cons_self
        rw [show SMap.get 0 (e :: x) a = if e.1 = a then e.2 else SMap.get 0 x a from rfl, if_neg (by omega)]
        exact ih fun y hy => hx y (List.mem_cons_of_mem _ hy)
    refine h _ fun e he => ?_
    by_cases hb : b0 = 0
    · subst hb; revert e; decide +kernel
    · rw [show (sliceMem b0).cells = SMap.put 0 base.mem.cells pc0 b0 from rfl, SMap.put, if_neg hb] at he
      simp [SMap.insert, base, pc0] at he
      rcases he with rfl | rfl | rfl | rfl | rfl | rfl <;> simp [pc0]

theorem get_tabulate_zero {n : Nat} (hn : 0 < n) (f : Nat → BitVec w) (h : f 0 ≠ 0) : SMap.get 0 (tabulate 0 n f) 0 = f 0 := by
  obtain ⟨k, rfl⟩ : ∃ k, n = k + 1 := ⟨n - 1, by omega⟩
  rw [tabulate, List.range_succ_eq_map, List.filterMap_cons, if_neg h]
  rfl

theorem tabulate_zero (n : Nat) (f : Nat → Byte) (h : ∀ i, f i = 0) : tabulate 0 n f = [] := by
  simp [tabulate, h]

theorem leAt_two (a b : Byte) (l : List Byte) : leAt (a :: b :: l) 0 2 = a.toNat + 256 * b.toNat := by
  simp [leAt, slice, leNat]

theorem first_word {ws ts es : List Byte} (k : Bank) (h : BitVec.ofNat 16 (leAt ws (2 * 0) 2) = 0x00FF) :
    SMap.get 0 (tileBank k ws ts es).words 0 = 0x00FF := by
  simp only [tileBank]
  rw [get_tabulate_zero (by decide +kernel) _ (by rw [h]; decide)]
  exact h

theorem element_bad {k : Bank} (hf : k.rcd = { fmt := 0x0C }) (hw : SMap.get 0 k.words 0 = 0x00FF) : bankMalformed k = true := by
  rw [bankMalformed, hf, Bool.and_eq_true]
  refine ⟨by decide +kernel, ?_⟩
  rw [Bool.not_eq_true', Bool.eq_false_iff]
  intro hall
  simp only [allBelow, List.all_eq_true] at hall
  have := hall 0 (List.mem_range.mpr (by decide +kernel))
  have he : bankElem k (0 / 512) (0 % 512) = 0xFF := by
    simp only [bankElem, hf]
    exact (by rw [show 0 / 512 / epw 0x0C * 512 + 0 % 512 = 0 by decide +kernel, hw]; decide :
      ((SMap.get 0 k.words (0 / 512 / epw 0x0C * 512 + 0 % 512)).toNat >>> (16 / epw 0x0C * (0 / 512 % epw 0x0C))) % 2 ^ (16 / epw 0x0C) = 0xFF)
  rw [he] at this
  exact absurd this (by decide +kernel)

set_option maxRecDepth 20000 in
/-- A LOAD whose CRC-32C differs, one with malformed tags, one with a malformed element, one that completes, and one whose tile cannot be
reached any more. -/
theorem witness_TileLoads :
    (∃ w0 c k q, (loadBank (loadWords w0 c).raw = loadBank (loadWords w0 0).raw) ∧
      readTile (loadingState w0 c) 0 (loadBank (loadWords w0 c).raw) = some (k, q) ∧
      (lCrcCheck (loadWords w0 c).raw && k.crc.toNat != lExpCrc (loadWords w0 c).raw) = true) ∧
    (∃ k q, readTile (loadingState 0x412 0) 0 (loadBank (loadWords 0x412 0).raw) = some (k, q) ∧
      lCrcCheck (loadWords 0x412 0).raw = false ∧ (lSparse (loadWords 0x412 0).raw != 0 && !tagsOk k) = true) ∧
    (∃ k q, readTile (loadingState 0xC2 0 0xFF) 0 (loadBank (loadWords 0xC2 0).raw) = some (k, q) ∧
      lCrcCheck (loadWords 0xC2 0).raw = false ∧ lSparse (loadWords 0xC2 0).raw = 0 ∧ bankMalformed k = true) ∧
    (∃ k q, readTile (loadingState 0x12 0) 0 (loadBank (loadWords 0x12 0).raw) = some (k, q) ∧
      lCrcCheck (loadWords 0x12 0).raw = false ∧ lSparse (loadWords 0x12 0).raw = 0 ∧ bankMalformed k = false) ∧
    (readTile base 0 (loadBank (item [0x12, pc0 + 0x4000000 - 128, 1024]).raw) = none) ∧
    ∀ w0 ∈ [0x10012, 0x412, 0xC2, 0x12], ∀ c < 2, ∀ b0 ∈ [(0 : Byte), 0xFF], basinRuns (loadingState w0 c b0) 0 = true ∧
      findItem (getBasin (loadingState w0 c b0) 0) (fun i => some i.seq == (getBasin (loadingState w0 c b0) 0).loading) =
        some (loadWords w0 c) ∧
      locate (loadingState w0 c b0) 0 (lSrc (loadWords w0 c).raw) false = some (.cistern pc0) := by
  refine ⟨?_, ?_, ?_, ?_, by decide +kernel, by decide +kernel⟩
  · obtain ⟨ws, ts, es, e⟩ := readTile_plain (plain_slice 0) (k := loadBank (loadWords 0x10012 0).raw) (by decide +kernel) (by decide +kernel)
      (.inl (by decide +kernel)) (.inl (by decide +kernel)) (by decide +kernel)
    by_cases hz : (crc32c (ws ++ ts ++ es)).toNat = 0
    · refine ⟨0x10012, 1, _, _, by decide +kernel, (show loadBank (loadWords 0x10012 1).raw = loadBank (loadWords 0x10012 0).raw by decide +kernel) ▸
        (e (loadingState 0x10012 1) rfl).1, ?_⟩
      rw [show (tileBank (loadBank (loadWords 0x10012 0).raw) ws ts es).crc.toNat = 0 from hz]
      decide +kernel
    · refine ⟨0x10012, 0, _, _, rfl, (e (loadingState 0x10012 0) rfl).1, ?_⟩
      rw [show lExpCrc (loadWords 0x10012 0).raw = 0 by decide +kernel, show lCrcCheck (loadWords 0x10012 0).raw = true by decide +kernel, Bool.true_and,
        bne_iff_ne]
      exact hz
  · obtain ⟨ws, ts, es, e⟩ := readTile_plain (plain_slice 0) (k := loadBank (loadWords 0x412 0).raw) (by decide +kernel) (by decide +kernel)
      (.inr (by decide +kernel)) (.inl (by decide +kernel)) (by decide +kernel)
    have he := e (loadingState 0x412 0) rfl
    refine ⟨_, _, he.1, by decide +kernel, ?_⟩
    have ht : (tileBank (loadBank (loadWords 0x412 0).raw) ws ts es).tags = [] := by
      refine tabulate_zero _ _ fun i => ?_
      by_cases hi : i < ts.length
      · rw [show ts.getD i 0 = ts[i] by simp [hi]]; exact he.2.2 _ (List.getElem_mem hi)
      · simp [hi]
    rw [show lSparse (loadWords 0x412 0).raw = 1 by decide]
    have hf : (tileBank (loadBank (loadWords 0x412 0).raw) ws ts es).rcd = { fmt := 1, sparse := 1 } := by
      show (loadBank (loadWords 0x412 0).raw).rcd = _
      decide +kernel
    have hk : tagsOk (tileBank (loadBank (loadWords 0x412 0).raw) ws ts es) = false := by
      rw [Bool.eq_false_iff]
      intro hok
      simp only [tagsOk, Bool.and_eq_true, allBelow, List.all_eq_true] at hok
      rw [hf] at hok
      have := hok.2 0 (by decide +kernel) 1 (by decide +kernel)
      simp [tagPos, ht, hf, SMap.get] at this
    rw [hk]; rfl
  · obtain ⟨ws, ts, es, e⟩ := readTile_plain (plain_slice 0xFF) (k := loadBank (loadWords 0xC2 0).raw) (by decide +kernel) (by decide +kernel)
      (.inl (by decide +kernel)) (.inr (by decide +kernel)) (by decide +kernel)
    have he := e (loadingState 0xC2 0 0xFF) rfl
    refine ⟨_, _, he.1, by decide +kernel, by decide +kernel, ?_⟩
    have hr : ctxRead (loadingState 0xC2 0 0xFF) 0 pc0 1024 = some (0xFF :: List.replicate 1023 0, loadingState 0xC2 0 0xFF) := by decide +kernel
    rw [show List.replicate 1023 (0 : Byte) = 0 :: List.replicate 1022 0 from List.replicate_succ] at hr
    obtain ⟨q, hq⟩ := readRows_first hr 511 ws _ he.2.1
    have hw : SMap.get 0 (tileBank (loadBank (loadWords 0xC2 0).raw) ws ts es).words 0 = 0x00FF := by
      have h0 : BitVec.ofNat 16 (leAt ws (2 * 0) 2) = 0x00FF := by rw [hq]; exact congrArg (BitVec.ofNat 16) (leAt_two 0xFF 0 _)
      exact first_word _ h0
    have hf : (tileBank (loadBank (loadWords 0xC2 0).raw) ws ts es).rcd = { fmt := 0x0C } := by
      show (loadBank (loadWords 0xC2 0).raw).rcd = _
      decide +kernel
    generalize tileBank (loadBank (loadWords 0xC2 0).raw) ws ts es = k at hw hf
    exact element_bad hf hw
  · obtain ⟨ws, ts, es, e⟩ := readTile_plain (plain_slice 0) (k := loadBank (loadWords 0x12 0).raw) (by decide +kernel) (by decide +kernel)
      (.inl (by decide +kernel)) (.inl (by decide +kernel)) (by decide +kernel)
    refine ⟨_, _, (e (loadingState 0x12 0) rfl).1, by decide +kernel, by decide +kernel, ?_⟩
    rw [bankMalformed, show isMxf6 (tileBank (loadBank (loadWords 0x12 0).raw) ws ts es).rcd.fmt = false from by
      show isMxf6 (loadBank (loadWords 0x12 0).raw).rcd.fmt = false
      decide]
    rfl

/-- The drain of a pass whose record is number 16384. -/
def groupDrain : PassDrain := { drain0 0 with prof := slice (toLe 8 (0x1B + 2 ^ 22) ++ toLe 8 0xFFFFFFFF4000) 0 128 }

/-- That pass, done but for its record, in a step that has touched a table of `k` GROUP-scope records. -/
def groupTable (k : Nat) : State :=
  { base with
    host := { base.host with ctxs := [(0, { ctx0 with scaleBase := pc0, scaleLen := k, scopes := (List.range k).map fun i => (i, 2) })] }
    mem := { base.mem with cells := (List.range k).map fun i => (pc0 + 2176 * i, 8) }
    basins := [(0, { lease := some 0, queue := [{ passItem 0 with started := true }]
                     passes := [{ passRun 0 with units := 1, cursor := 1, checked := 1 }] })]
    spouts := [(0, { profiles := [(0, profile0)], passes := [groupDrain] })] }

theorem get_uniform {d v : α} : ∀ (l : SMap α) (k : Nat), (∀ e ∈ l, e.2 = v) → (∃ e ∈ l, e.1 = k) → SMap.get d l k = v
  | [], _, _, h => by simp at h
  | e :: l, k, hv, h => by
    rw [show SMap.get d (e :: l) k = if e.1 = k then e.2 else SMap.get d l k from rfl]
    by_cases he : e.1 = k
    · rw [if_pos he]; exact hv e List.mem_cons_self
    · rw [if_neg he]
      obtain ⟨x, hx, hk⟩ := h
      rcases List.mem_cons.mp hx with rfl | hx
      · exact absurd hk he
      · exact get_uniform l k (fun e h => hv e (List.mem_cons_of_mem _ h)) ⟨x, hx, hk⟩

theorem locate_table {k va : Nat} (lo : pc0 ≤ va) (hi : va < pc0 + 0x4000000) : locate (groupTable k) 0 va false = some (.cistern va) := by
  have e : (va - 0x100000000000) / 0x2000000 < 2 := by simp only [pc0] at lo hi; omega
  unfold locate
  rw [if_neg (by simp only [pc0] at lo; omega), if_pos (by simp only [pc0] at lo hi; simp; omega)]
  generalize (va - 0x100000000000) / 0x2000000 = n at e
  have hs : ∀ n < 2, (decide (n < 58) && (getSlice (groupTable k) n).lease == some 0 && !(getSlice (groupTable k) n).cache) = true := fun n hn => by
    obtain rfl | rfl : n = 0 ∨ n = 1 := by omega
    all_goals rfl
  exact if_pos (hs n e)

theorem rdCtx_table (k i : Nat) (h : i < 16385) : (rdCtx (groupTable k) 0 (recAddr (groupTable k) 0 i) 2).1 = readPhys (groupTable k) (pc0 + 2176 * i) 2 := by
  have ha : recAddr (groupTable k) 0 i = pc0 + 2176 * i := rfl
  rw [ha]
  have hp : partsOf 128 (pc0 + 2176 * i) 2 = [(pc0 + 2176 * i, 2)] := by
    have h0 : (pc0 + 2176 * i) / 128 * 128 = pc0 + 2176 * i := by simp only [pc0]; omega
    have h1 : ((pc0 + 2176 * i) / 128 + 1) * 128 = pc0 + 2176 * i + 128 := by rw [Nat.add_mul, h0]
    have h2 : ((pc0 + 2176 * i) / 128 + 1 + 1) * 128 = pc0 + 2176 * i + 256 := by rw [Nat.add_mul, h1]
    simp [partsOf, List.range_succ, h0, h1, h2]
  have hr : reachable (groupTable k) 0 (pc0 + 2176 * i) 2 false = true := by
    simp only [reachable, Bool.or_eq_true, Bool.and_eq_true, List.all_eq_true]
    refine .inr ⟨by rw [locate_table (by omega) (by omega)]; rfl, fun p hp => ?_⟩
    have := partsOf_range hp
    rw [locate_table (by omega) (by omega)]; rfl
  unfold rdCtx ctxRead
  rw [if_pos hr, hp]
  simp only [List.foldl_cons, List.foldl_nil, locate_table (show pc0 ≤ pc0 + 2176 * i by omega) (show pc0 + 2176 * i < pc0 + 0x4000000 by omega), readLoc]
  rfl

theorem groupTable_touched (k : Nat) (hk : k ≤ 16385) : groupTouched (groupTable k) 0 = List.range k := by
  unfold groupTouched
  rw [show (getCtx (groupTable k) 0).scaleLen = k from rfl, List.filter_eq_self]
  intro i hi
  have h := List.mem_range.mp hi
  have hs : SMap.get 0 (getCtx (groupTable k) 0).scopes i = 2 :=
    get_uniform ((List.range k).map fun i => (i, 2)) i (by simp) ⟨(i, 2), by simp; exact h, rfl⟩
  have hb : byteAt (groupTable k) (pc0 + 2176 * i) = 8 :=
    get_uniform ((List.range k).map fun i => (pc0 + 2176 * i, (8 : Byte))) _ (by simp) ⟨(pc0 + 2176 * i, 8), List.mem_map.mpr ⟨i, hi, rfl⟩, rfl⟩
  rw [hs, rdCtx_table k i (by omega)]
  have hf : recFlags (readPhys (groupTable k) (pc0 + 2176 * i) 2) = 8 + 256 * (byteAt (groupTable k) (pc0 + 2176 * i + 1)).toNat := by
    simp [recFlags, readPhys, List.range_succ, leAt, slice, leNat, hb]
  rw [hf, Bool.and_eq_true]
  refine ⟨rfl, ?_⟩
  generalize (byteAt (groupTable k) (pc0 + 2176 * i + 1)).toNat = n
  rw [Nat.testBit_eq_decide_div_mod_eq]
  simp
  omega

set_option maxRecDepth 20000 in
/-- A pass that would be the one to touch the 16,385th record. -/
theorem witness_TooManyRecords : basinLive (groupTable 16385) 0 = true ∧
    ∃ p d, (getBasin (groupTable 16385) 0).passes.find? (passDone (groupTable 16385) 0) = some p ∧ findDrain (groupTable 16385) 0 p.seq = some d ∧
      tooManyRecs (groupTable 16385) d = true := by
  refine ⟨by decide +kernel, { passRun 0 with units := 1, cursor := 1, checked := 1 }, groupDrain, by decide +kernel, by decide +kernel, ?_⟩
  have hi : fScaleRec groupDrain.prof = 16384 := by decide +kernel
  have hg : fGroup groupDrain.prof = true := by decide +kernel
  have hr : ((List.range 16385).filter (· != 16384)).length = 16384 := by
    rw [List.range_succ, List.filter_append, List.filter_eq_self.mpr (fun a h => by have := List.mem_range.mp h; simp; omega)]
    simp
  rw [tooManyRecs, hi, hg, show groupTouched (groupTable 16385) groupDrain.ctx = List.range 16385 from groupTable_touched 16385 (Nat.le_refl _), hr]
  rfl

/-! Rows, drains and spouts. -/

/-- Basin 0 runs a pass of these words; the pass, the spout's side of it, the basin and the memory's cells can be changed. -/
def running (ws : List Nat) (p : PassRun → PassRun := id) (f : Basin → Basin := id) (d : PassDrain → PassDrain := id)
    (sp : Spout → Spout := id) (cells : SMap Byte := base.mem.cells) : State :=
  let raw := ws.flatMap (toLe 8)
  let q := withBasin (fun x => f { x with
      queue := [{ seq := 1, raw, checked := true, started := true }]
      bank0 := { st := .ready, rcd := { fmt := 1 } }
      passes := [p { seq := 1, raw, bank := 0 }] })
    (sp { profiles := [(0, profile0)], passes := [d { seq := 1, ctx := 0, raw, prof := slice profile0 0 128, route := slice [] 0 64 }] })
  { q with mem := { q.mem with cells } }

/-- A masked pass, whose entries stand at the start of SCRATCH slice 0. -/
def maskedWords : List Nat := passWords 0 (2 ^ 29) ++ [0, pc0]

/-- Cells with one more, at the start of SCRATCH slice 0. -/
def cellsWith (n : Nat) (b : Byte) : SMap Byte := base.mem.cells ++ [(pc0 + n, b)]

/-- A segment of jet 0 at each of the 16 row ports of basin 0. -/
def withSegments (s : State) (data : List Byte) : State :=
  { s with jets := { s.jets with ports := (List.range 16).map fun n => (n, { held := [{ jet := 0, idx := 2, data }] }) } }

/-- A marker of one unit. -/
def marker1 : List Byte := List.replicate 16 0xFF ++ toLe 5 1 ++ List.replicate 43 0

set_option maxRecDepth 20000 in
/-- A segment in turn at a row port; a pass that accepts rows, without a mask and with an entry of each kind; segments for a part; a marker
of one unit; a feed that has waited beyond the limit. -/
theorem witness_RowsEnterTheArray :
    (∃ s : State, ∃ m, s.jets.msgs[0]? = some m ∧ m.dst / 4096 = 1 ∧ inTurn s 0 m = true ∧ (∀ e ∈ s.jets.threads, e.2.wait = .none)) ∧
    (∃ s : State, ∃ p d, acceptingRun s 0 = some (p, d) ∧ pMask p.raw = false ∧ (acceptPart s 0 p).isSome = true ∧
      findRun (getBasin s 0) p.seq = some p) ∧
    (∃ s : State, ∃ p d, acceptingRun s 0 = some (p, d) ∧ p.partCount = 0 ∧ (maskAt s d.ctx p.raw p.cursor).1 = 0x20000 ∧
      entryBad d.prof 0x20000 = true) ∧
    (∃ s : State, ∃ p d, acceptingRun s 0 = some (p, d) ∧ p.partCount = 0 ∧ (maskAt s d.ctx p.raw p.cursor).1 = 0 ∧ entryBad d.prof 0 = false) ∧
    (∃ s : State, ∃ p d, acceptingRun s 0 = some (p, d) ∧ p.partCount = 0 ∧ (maskAt s d.ctx p.raw p.cursor).1 = 1 ∧ entryBad d.prof 1 = false) ∧
    (∃ s : State, ∃ p d h spans, acceptingRun s 0 = some (p, d) ∧ segmentOf s 0 (scheduledJet p) = some h ∧ pZskip p.raw = true ∧
      p.partCount = 0 ∧ isMarker h.data = true ∧ (maskAt s d.ctx p.raw p.cursor).1 % 65536 ≠ 0 ∧ (segmentFor s 0 p 1).isSome = true ∧
      spansOf s p d h.data = some spans) ∧
    (∃ s : State, ∃ p d h, acceptingRun s 0 = some (p, d) ∧ segmentOf s 0 (scheduledJet p) = some h ∧ pZskip p.raw = true ∧
      p.partCount = 0 ∧ isMarker h.data = true ∧ (maskAt s d.ctx p.raw p.cursor).1 % 65536 ≠ 0 ∧ segmentFor s 0 p 1 = none) ∧
    (∃ s : State, ∃ p d h, acceptingRun s 0 = some (p, d) ∧ segmentOf s 0 (scheduledJet p) = some h ∧ pZskip p.raw = true ∧
      p.partCount = 0 ∧ isMarker h.data = true ∧ (maskAt s d.ctx p.raw p.cursor).1 % 65536 ≠ 0 ∧ (segmentFor s 0 p 1).isSome = true ∧
      spansOf s p d h.data = none) ∧
    ∃ s : State, ∃ p, basinRuns s 0 = true ∧ currentRun (getBasin s 0) = some p ∧ p.stalled = false ∧ p.win = false ∧
      regOf s (oBsn 0 + 0x3C) % 1024 * 50000000 < s.ticks - p.since := by
  refine ⟨⟨withJets fun j => { j with msgs := [{ src := 0, srcIdx := 2, dst := 0x1000, ch := 0, tag := 0, thread := 0, data := [] }] }, _, rfl,
      by decide +kernel⟩,
    ⟨withSegments (running (passWords 0)) [1], _, _, rfl, by decide +kernel⟩,
    ⟨running maskedWords (cells := cellsWith 2 2), _, _, rfl, by decide +kernel⟩,
    ⟨running maskedWords, _, _, rfl, by decide +kernel⟩,
    ⟨running maskedWords (cells := cellsWith 0 1), _, _, rfl, by decide +kernel⟩,
    ⟨withSegments (running (passWords 0 (2 ^ 28))) marker1, _, _, _, [(0, 1, false)], rfl, rfl, by decide +kernel⟩,
    ⟨withSegments (running (passWords 2 (2 ^ 28) 2) (p := fun p => { p with segSlots := 32768, cursor := 1, units := 1 })) marker1, _, _, _, rfl, rfl,
      by decide +kernel⟩,
    ⟨withSegments (running (passWords 0 (2 ^ 28))) (List.replicate 16 0xFF ++ List.replicate 48 0), _, _, _, rfl, rfl, by decide +kernel⟩,
    ⟨{ running (passWords 0) with ticks := 500000001 }, _, by decide +kernel, rfl, by decide +kernel⟩⟩

/-- A row of the pass in the array. -/
def row0 : ArrRow := { seq := 1, row := 0, data := [], bank := 0 }

set_option maxRecDepth 20000 in
/-- A row in the array, and at the spout good, malformed, in a new and in a known place of failure; rows to send again, with and without an
accumulation; a token that has left. -/
theorem witness_RowsLeaveTheArray :
    (∃ s : State, ∃ row p d, basinLive s 0 = true ∧ spoutHeld s 0 = false ∧ (getBasin s 0).array.find? (fun r => !r.atSpout) = some row ∧
      findRun (getBasin s 0) row.seq = some p ∧ findDrain s 0 row.seq = some d ∧ row.masked = false ∧ row.zeros = 0 ∧
      isAccum (pMode p.raw) = false ∧ fConform d.prof = false ∧ isMx (pFmtRow p.raw) = false ∧ isOuter (pMode p.raw) = false) ∧
    (pMode (passItem 0).raw = 0 ∧ pSparse (passItem 0).raw = 0 ∧ isMx (pFmtRow (passItem 0).raw) = false) ∧
    (∃ s : State, ∃ row p d, basinLive s 0 = true ∧ spoutHeld s 0 = false ∧ (getBasin s 0).drains = [] ∧ (getBasin s 0).array = [row] ∧
      findRun (getBasin s 0) row.seq = some p ∧ findDrain s 0 row.seq = some d ∧ row.atSpout = true ∧ row.zeros = 0 ∧
      rowMalformed p.raw ((getBasin s 0).bank row.bank) row.data = true) ∧
    (∀ m ∈ [0, 2], ∃ s : State, ∃ row p d, basinLive s 0 = true ∧ spoutHeld s 0 = false ∧ (getBasin s 0).drains = [] ∧
      (getBasin s 0).array = [row] ∧ findRun (getBasin s 0) row.seq = some p ∧ findDrain s 0 row.seq = some d ∧ row.atSpout = true ∧
      rowMalformed p.raw ((getBasin s 0).bank row.bank) row.data = false ∧ isAccum (pMode p.raw) = (m == 2) ∧
      p.fails.filter (fun f => f.1 == row.segNo) = [(0, some (3 * 2 ^ 20 + 1)), (0, none)] ∧
      (checkPassed (.tree true 1) = false ∧ placeUsed (getBasin s 0) (.tree true 1) = true ∧ locOf (.tree true 1) = some (3 * 2 ^ 20 + 1)) ∧
      (checkPassed (.entry 519 519) = false ∧ placeUsed (getBasin s 0) (.entry 519 519) = false) ∧
      (checkPassed (.bank true 511 511) = false ∧ placeUsed (getBasin s 0) (.bank true 511 511) = true ∧
        locOf (.bank true 511 511) = some (2 * 2 ^ 20 + 511 * 1024 + 511)) ∧
      checkPassed .bus = false ∧ placeUsed (getBasin s 0) .bus = true ∧ locOf .bus = none) ∧
    (∀ m ∈ [0, 2], ∃ s : State, basinLive s 0 = true ∧ (getBasin s 0).replay ≠ [] ∧ (getBasin s 0).reloads = [] ∧ (getBasin s 0).retire = none ∧
      ((getBasin s 0).replay.any fun r => (findRun (getBasin s 0) r.seq).any fun p => isAccum (pMode p.raw)) = (m == 2)) ∧
    ∃ s : State, basinLive s 0 = true ∧ (getBasin s 0).token = true ∧
      ((getBasin s 0).array.any (fun r => r.token && !r.atSpout) || (getBasin s 0).replay.any (·.token)) = false := by
  refine ⟨⟨running (passWords 0) (f := fun x => { x with array := [row0] }), _, _, _, by decide +kernel, by decide +kernel, rfl, rfl,
      rfl, by decide +kernel⟩, by decide +kernel,
    ⟨running [0x2C01, 1, 0, 1, pc0, 2048] (f := fun x => { x with array := [{ row0 with data := [0xFF], atSpout := true }] }),
      _, _, _, by decide +kernel, by decide +kernel, by decide +kernel, rfl, rfl, rfl, by decide +kernel⟩,
    fun m hm => ⟨running (passWords m) (p := fun p => { p with fails := [(0, some (3 * 2 ^ 20 + 1)), (0, none)] })
        (f := fun x => { x with array := [{ row0 with atSpout := true }] }), { row0 with atSpout := true },
        { passRun m with fails := [(0, some (3 * 2 ^ 20 + 1)), (0, none)] }, drain0 m, by revert m; decide +kernel⟩,
    fun m hm => ⟨running (passWords m) (f := fun x => { x with replay := [row0] }), by revert m; decide +kernel⟩,
    ⟨running (passWords 0) (f := fun x => { x with token := true }), by decide +kernel⟩⟩

set_option maxRecDepth 20000 in
/-- A drain at its first and behind its last row, and complete; a bank to reload; a place to retire with row spares, with column spares
only and with none; a basin that stops and one that resumes. -/
theorem witness_DrainsBanksAndSpares :
    (∀ n ∈ [0, 511, 512], ∃ s : State, ∃ p d, basinLive s 0 = true ∧ spoutHeld s 0 = false ∧ drainingRun (getBasin s 0) = some p ∧ findDrain s 0 p.seq = some d ∧ p.drain = n ∧
      (n = 512 → p.drainOk = 512)) ∧
    (∃ s : State, ∃ t q, basinLive s 0 = true ∧ (getBasin s 0).reloads = [0] ∧ (getBasin s 0).retire = none ∧ ((getBasin s 0).bank 0).st = .ready ∧
      (getBasin s 0).passes.any (·.win) = false ∧ readTile (updBasin s 0 fun x => { x with reloads := [] }) (basinCtx s 0) ((getBasin s 0).bank 0) = some (t, q)) ∧
    (∀ n < 3, ∃ s : State, basinLive s 0 = true ∧ (getBasin s 0).reloads = [0] ∧ (getBasin s 0).retire = none ∧
      (((getBasin s 0).bank 0).st == .ready) = (n != 0) ∧ (getBasin s 0).passes.any (·.win) = (n == 1) ∧
      (n = 2 → readTile (updBasin s 0 fun x => { x with reloads := [] }) (basinCtx s 0) ((getBasin s 0).bank 0) = none)) ∧
    (∀ loc ∈ [2 ^ 20 - 1, 3 * 2 ^ 20, 4 * 2 ^ 20 + 1], ∀ r ∈ [[], List.replicate 8 0], ∀ c ∈ [[], List.replicate 8 0], ∀ q ∈ [[], [row0]],
      ∃ s : State, basinLive s 0 = true ∧ (getBasin s 0).retire = some loc ∧ (getBasin s 0).rowsRetired = r ∧ (getBasin s 0).colsRetired = c ∧
        ((getBasin s 0).replay.any fun r => (findRun (getBasin s 0) r.seq).any fun p => isAccum (pMode p.raw)) = !q.isEmpty) ∧
    (∃ s : State, (getBasin s 0).lease = some 0 ∧ unitsRun s = true ∧ mustYield s 0 = true ∧ (getBasin s 0).stopped = false ∧
      atBoundary (getBasin s 0) = true) ∧
    ∃ s : State, (getBasin s 0).lease = some 0 ∧ unitsRun s = true ∧ (getBasin s 0).stopped = true ∧ (getCtx s 0).st = .running ∧
      (getCtx s 0).saved = false ∧ mustYield s 0 = false := by
  refine ⟨fun n hn => ⟨running (passWords 2 (2 ^ 25)) (p := fun p => { p with units := 1, cursor := 1, checked := 1, drain := n, drainOk := n }),
      { passRun 2 (2 ^ 25) with units := 1, cursor := 1, checked := 1, drain := n, drainOk := n }, drain0 2 (2 ^ 25),
      by revert n; decide +kernel⟩, ?_,
    fun n hn => ⟨running (passWords 0) (p := fun p => { p with win := n == 1 }) (f := fun x => { x with
      reloads := [0], bank0 := { st := if n = 0 then .empty else .ready, rcd := { fmt := 1 }, src := pc0 + 0x4000000 - 128, stride := 1024 } }),
      by revert n; decide +kernel⟩,
    fun loc hl r hr c hc q hq => ⟨running (passWords 2) (f := fun x => { x with retire := some loc, rowsRetired := r, colsRetired := c, replay := q }),
      rfl, rfl, rfl, rfl, by
        obtain rfl | rfl : q = [] ∨ q = [row0] := by simpa using hq
        all_goals rfl⟩,
    ⟨updCtx (running (passWords 0)) 0 fun x => { x with suspending := true }, by decide +kernel⟩,
    ⟨running (passWords 0) (f := fun x => { x with stopped := true }), by decide +kernel⟩⟩
  obtain ⟨ws, ts, es, e⟩ := readTile_plain (plain_slice 0) (k := { st := .ready, rcd := { fmt := 1 }, src := pc0, stride := 1024 }) rfl rfl
    (.inl rfl) (.inl rfl) (by decide +kernel)
  exact ⟨running (passWords 0) (f := fun x => { x with
      reloads := [0]
      bank0 := { st := .ready, rcd := { fmt := 1 }, src := pc0, stride := 1024 } }), _, _, rfl, rfl, rfl, rfl, rfl, (e _ rfl).1⟩

/-- A profile with a function. -/
def profileF (fn : Nat) : List Byte := slice (toLe 8 (0x1B + fn * 2 ^ 24) ++ toLe 8 0xFFFFFFFFFFFF) 0 128

set_option maxRecDepth 20000 in
/-- A side row that a pass waits for; the first and second row store free; a row whose segments are in; units for memory and for a weir; held
writes of both kinds. -/
theorem witness_SpoutEvents :
    (∃ s : State, ∃ d p, basinLive s 0 = true ∧ (getSpout s 0).passes.find? (wantsSide s 0 0) = some d ∧ findRun (getBasin s 0) d.seq = some p) ∧
    (∀ n < 2, ∃ s : State, ∃ p d, basinRuns s 0 = true ∧ currentRun (getBasin s 0) = some p ∧ findDrain s 0 p.seq = some d ∧
      groupMember p.raw d.prof = true ∧ fColseg d.prof = 0 ∧ groupIdx s 0 p.seq = none ∧ n ∉ ((getSpout s 0).groups.filter (holdsStore (getSpout s 0))).map (·.store) ∧
      (∀ m < n, m ∈ ((getSpout s 0).groups.filter (holdsStore (getSpout s 0))).map (·.store))) ∧
    (∃ s : State, ∃ x m d, basinRuns s 0 = true ∧ spoutHeld s 0 = false ∧ (getSpout s 0).groups[0]? = some x ∧ x.members.head? = some m ∧ findDrain s 0 m = some d ∧
      x.next = x.count ∧ x.phase2 < x.rows ∧ SMap.get 0 x.segsIn x.phase2 = x.count) ∧
    (∀ dest ∈ [Dest.mem pc0, .weir 0x10000 0x18], ∃ s : State, ∃ u d, basinLive s 0 = true ∧ (getSpout s 0).units[0]? = some u ∧
      findDrain s 0 u.seq = some d ∧ u.topk = false ∧ u.dest = dest) ∧
    (∀ n < 2, ∃ s : State, ∃ u d i, basinLive s 0 = true ∧ (getSpout s 0).units[0]? = some u ∧ findDrain s 0 u.seq = some d ∧
      u.dest = .jet 0 5 ∧ unitConn s 0 u = some i ∧ connReady s (spoutEp 0) i = (n == 1)) ∧
    ∀ route : Bool, ∃ s : State, ∃ h, (getSpout s 0).heldWrites[0]? = some h ∧ h.1 = route ∧ profileFree (getBasin s 0) h.2.1 = true ∧
      (getBasin s 0).lease.isSome = true ∧ unitsRun s = true ∧
      ((getCtx s (basinCtx s 0)).cmds.any fun m => slotBefore m.slot h.2.2.2 && unmovedNames m 0 h.2.1) = false := by
  refine ⟨⟨running (passWords 0) (p := fun p => { p with cursor := 1 }) (d := fun d => { d with prof := profileF 0x11 }), _, _, by decide +kernel, rfl, rfl⟩,
    fun n hn => ⟨running (passWords 0) (d := fun d => { d with prof := profileF 0x22 })
        (sp := fun x => { x with groups := List.replicate n { members := [9], rows := 1 } }), passRun 0, { drain0 0 with prof := profileF 0x22 }, ?_⟩,
    ⟨running (passWords 0) (sp := fun x => { x with groups := [{ members := [1], next := 1, rows := 1, segsIn := [(0, 1)] }] }), _, _, _,
      by decide +kernel, by decide +kernel, rfl, rfl, rfl, by decide +kernel⟩,
    fun dest hd => ⟨running (passWords 0) (sp := fun x => { x with units := [{ seq := 1, dest, data := [] }] }), _, _, rfl, rfl, rfl, rfl, rfl⟩,
    fun n hn => ⟨{ running (passWords 0) (p := fun p => { p with conns := [(0, 0, 3)] })
          (sp := fun x => { x with units := [{ seq := 1, dest := .jet 0 5, data := [] }] }) with
        jets := { base.jets with conns := [(65536 * spoutEp 0 + 3, { used := true, credits := n })] } },
      { seq := 1, dest := .jet 0 5, data := [] }, drain0 0, 3, by revert n; decide +kernel⟩,
    fun route => ⟨withBasin id { heldWrites := [(route, 63, [], 0)] }, (route, 63, [], 0), rfl, rfl, by cases route <;> decide +kernel⟩⟩
  have : n = 0 ∨ n = 1 := by omega
  rcases this with rfl | rfl <;> decide +kernel

/-! Weirs. -/

/-- A declaration of one line at page address 0x10000 with its work area at 0x20000, and a request for that line. -/
def declare (mode ty out n : Nat) (more : Nat := 0) : List Byte :=
  [mode * 2 ^ 10 + ty * 2 ^ 14 + out * 2 ^ 19 + more, 0x10000, 1 + n * 2 ^ 32, 0x20000].flatMap (toLe 8)
def request (mode ty : Nat) (tag : Nat := 0) (data : List Byte := []) (va : Nat := 0x10000) : WReq :=
  { ctx := 0, src := 0x7000, addr := 0x400000 + va, va, op := 0, ty, mode, tag, data }

/-- A request at the weirs, with that declaration or none. -/
def atWeir (r : WReq) (g : Option Region := none) (cells : SMap Byte := []) : State :=
  { base with mem := { base.mem with
      weirReqs := [r], regions := [(0, g)]
      cells := base.mem.cells ++ [(0x201008, 0x07), (0x20100A, 0x60)] ++ cells } }

/-- The state once the request has been taken. -/
def taken (s : State) : State := { s with mem := { s.mem with weirReqs := [] } }

/-- A part of this number. -/
def part (p : Nat) : List Byte := List.replicate 60 0 ++ toLe 4 p

set_option maxRecDepth 20000 in
/-- Each cause of a rejection; a request outside every region; and, in a region, the first and the last plain request, ordered requests that
are early, next and last, and an exact part alone, first and second. -/
theorem witness_WeirRequests :
    (∀ cause < 7, ∃ s : State, ∃ r, s.mem.weirReqs = [r] ∧ r.mode ≤ 2 ∧ unitsRun s = true ∧ weirCause (taken s) r (regionAt (taken s) r.ctx r.va) = some cause) ∧
    (∃ s : State, ∃ r pa, s.mem.weirReqs = [r] ∧ r.mode = 0 ∧ weirTarget (taken s) r = some (pa, false) ∧
      regionAt (taken s) r.ctx r.va = none) ∧
    (∀ x ∈ [(request 0 0, declare 0 0 0 1), (request 0 0, declare 0 0 0 2), (request 1 0, declare 1 0 0 1), (request 1 0, declare 1 0 0 2),
        (request 1 0 1, declare 1 0 0 2), (request 2 4 0 (part 0), declare 2 4 0x1B 1), (request 2 4 0 (part 0), declare 2 4 0x1B 2),
        (request 2 4 0 (part 1), declare 2 4 0x1B 2)],
      let s := atWeir x.1 (some { ctx := 0, raw := x.2 })
      let g : Region := { ctx := 0, raw := x.2 }
      s.mem.weirReqs = [x.1] ∧ weirTarget (taken s) x.1 = some (0x410000, false) ∧ regionAt (taken s) 0 x.1.va = some g ∧
      x.1.op = rgOp g.raw ∧ x.1.ty = rgType g.raw ∧ x.1.mode = rgMode g.raw ∧ SMap.get false g.lines (lineIndex g x.1.va) = false) ∧
    (leNat (readUn (taken (atWeir (request 0 0) (some { ctx := 0, raw := declare 0 0 0 1 }))) 0 0x20000 4) + 1 = 1) ∧
    (let s := taken (atWeir (request 1 0))
      let h := readUn s 0 0x20000 64
      let t := bump (writePhys s 0x410000 []) (oWeir + 0x10) 1
      leAt h 0 2 = 0 ∧ bitB (leAt h 32 32) 0 = false ∧ bitB (leAt h 32 32) 1 = false ∧ bitB (leNat (readUn t 0 0x20020 32)) 1 = false) ∧
    (∀ x ∈ [([], false), ([(0x4200BF, 0x80)], true)],
      let s := taken (atWeir (request 2 4 0 (part 1)) none x.1)
      let noted := writeUn (writeUn s 0 0x20000 (toLe 4 1)) 0 0x20040 (toLe 64 2)
      decide (leAt (readUn noted 0 (slotAt (declare 2 4 0x1B 2) 0 0) 64) 60 4 = 2 ^ 31) = x.2 ∧
      partSeen s { ctx := 0, raw := declare 2 4 0x1B 2 } 0 1 = false) := by
  refine ⟨fun cause hc => ?_, ⟨atWeir (request 0 0), _, 0x410000, rfl, by decide +kernel⟩, by decide +kernel, by decide +kernel, by decide +kernel, by decide +kernel⟩
  match cause, hc with
  | 0, _ => exact ⟨atWeir (request 0 0 0 [] 0x200000), _, rfl, by decide +kernel⟩
  | 1, _ => exact ⟨atWeir (request 0 0 0 [] 0x400000), _, rfl, by decide +kernel⟩
  | 2, _ => exact ⟨atWeir (request 1 0), _, rfl, by decide +kernel⟩
  | 3, _ => exact ⟨atWeir (request 0 0) (some { ctx := 0, raw := declare 0 2 0 1 }), _, rfl, by decide +kernel⟩
  | 4, _ => exact ⟨atWeir (request 1 0 1) (some { ctx := 0, raw := declare 1 0 0 1 }), _, rfl, by decide +kernel⟩
  | 5, _ => exact ⟨atWeir (request 2 4 0 (part 1)) (some { ctx := 0, raw := declare 2 4 0x1B 1 }), _, rfl, by decide +kernel⟩
  | 6, _ => exact ⟨atWeir (request 0 0) (some { ctx := 0, raw := declare 0 0 0 1, lines := [(0, true)] }), _, rfl, by decide +kernel⟩

theorem test_weir_adds_binary32 : weirElem 0 0 .rne 0x3F800000 0x3F800000 = 0x40000000 := by decide +kernel
theorem test_weir_saturates : weirElem 0 0 .rne 0x7F7FFFFF 0x7F7FFFFF = 0x7F7FFFFF := by decide +kernel

/-- Operands at the bounds of the element operations; a declared region; messages of each state of their connection. -/
theorem witness_WeirElementsAndMessages :
    ((2 ^ 32 - 1 < 2 ^ 32 ∧ 2 ^ 64 - 1 < 2 ^ 64) ∧ nan32 0x7F800001 = true ∧ nan32 0x7F800000 = false ∧
      key32 0x80000001 < key32 0 ∧ key32 0x7F7FFFFF < key32 0x7F800000) ∧
    (∃ s : State, ∃ g, getRegion s (rgEntry g.raw) = some g) ∧
    (∃ s : State, ∃ n, s.mem.notes[0]? = some n ∧ ¬ (n.jet < 4096 ∧ bitB (getCtx s n.ctx).lease.terraces (n.jet / 512) = true) ∧ n.ep = 0x3000) ∧
    (∃ s : State, ∃ n, s.mem.notes[0]? = some n ∧ (n.jet < 4096 ∧ bitB (getCtx s n.ctx).lease.terraces (n.jet / 512) = true) ∧
      holdsJet s n.ctx n.jet = true ∧ unitReady s n.ep n.jet n.ch = false) ∧
    (∃ s : State, ∃ n, s.mem.notes[0]? = some n ∧ ¬ (n.jet < 4096 ∧ bitB (getCtx s n.ctx).lease.terraces (n.jet / 512) = true) ∧ n.ep ≠ 0x3000 ∧
      unitsRun s = true) ∧
    (∃ s : State, ∃ n, s.mem.notes[0]? = some n ∧ (n.jet < 4096 ∧ bitB (getCtx s n.ctx).lease.terraces (n.jet / 512) = true) ∧
      holdsJet s n.ctx n.jet = false ∧ unitsRun s = true) ∧
    ∃ s : State, ∃ n, s.mem.notes[0]? = some n ∧ (n.jet < 4096 ∧ bitB (getCtx s n.ctx).lease.terraces (n.jet / 512) = true) ∧
      holdsJet s n.ctx n.jet = true ∧ unitReady s n.ep n.jet n.ch = true := by
  refine ⟨by decide +kernel, ⟨atWeir (request 0 0) (some { ctx := 0, raw := declare 0 0 0 1 }), { ctx := 0, raw := declare 0 0 0 1 }, by decide +kernel⟩,
    ⟨{ base with mem := { base.mem with notes := [{ ctx := 0, sluice := false, jet := 512, ch := 0, data := [] }] } }, _, rfl, by decide +kernel⟩,
    ⟨{ base with mem := { base.mem with notes := [{ ctx := 0, sluice := false, jet := 511, ch := 0, data := [] }] } }, _, rfl, by decide +kernel⟩,
    ⟨{ base with mem := { base.mem with notes := [{ ctx := 0, ep := 0x6000, sluice := false, jet := 512, ch := 0, data := [] }] } }, _, rfl, by decide +kernel⟩,
    ⟨{ base with
        jets := { base.jets with terraces := [] }
        mem := { base.mem with notes := [{ ctx := 0, sluice := false, jet := 511, ch := 0, data := [] }] } }, _, rfl, by decide +kernel⟩,
    ⟨{ withJets fun j => { j with conns := [(0x3000 * 65536, { used := true, dst := 0, ch := 0, credits := 1 })] } with
        mem := { base.mem with notes := [{ ctx := 0, sluice := false, jet := 0, ch := 0, data := [] }] } }, _, rfl, by decide +kernel⟩⟩

/-! HBM stacks and sluices. -/

/-- The state of the tests with its memory, its sluice, its registers or one stack changed. -/
def withMem (f : Mem → Mem) : State := { base with mem := f base.mem }
def withSluice (f : Sluice → Sluice) : State := { base with sluice := f base.sluice }
def withCsr (a : Nat) (v : Reg) : State := { base with csr := SMap.put 0 base.csr a v }
def withStack (x : Stack) : State := withMem fun m => { m with hbm := [(0, x)] }

/-- A state whose patrol scrub runs; a lane below and at the limit, new or spread; a spare left and none; copies of the first and the last
line; bursts that repeat, succeed and end. -/
theorem witness_HbmStacks :
    (base.boot.locked = true ∧ 4095 < 4096 ∧ 0x6000000000 - 0x4001 < 0x6000000000 ∧
      (0x6000000000 - 0x4001) / 0x4000 ≠ 0x6000000000 / 0x4000 - 1) ∧
    (∃ s : State, (getStack s 0).retiredPc = some 0) ∧
    (∃ s : State, (getStack s 0).retiredPc ≠ some 0 ∧ SMap.get 0 (getStack s 0).corr 0 + 1 = regOf s (oHbm + 0x28) % 65536 ∧
      0 ∉ (getStack s 0).marked) ∧
    (∃ s : State, (getStack s 0).retiredPc ≠ some 0 ∧ SMap.get 0 (getStack s 0).corr 0 + 1 ≠ regOf s (oHbm + 0x28) % 65536 ∧
      pcCorrections { getStack s 0 with corr := SMap.put 0 (getStack s 0).corr 0 (SMap.get 0 (getStack s 0).corr 0 + 1) } 0 =
        2 * (regOf s (oHbm + 0x28) % 65536)) ∧
    (∃ s : State, (getStack s 0).retiredPc ≠ some 0 ∧ SMap.get 0 (getStack s 0).corr 0 + 1 ≠ regOf s (oHbm + 0x28) % 65536 ∧
      pcCorrections { getStack s 0 with corr := SMap.put 0 (getStack s 0).corr 0 (SMap.get 0 (getStack s 0).corr 0 + 1) } 0 ≠
        2 * (regOf s (oHbm + 0x28) % 65536)) ∧
    (∃ s : State, spareLeft s 0 = true ∧ s.recov.st = .normal ∧ s.recov.queue.length < 16) ∧ spareLeft (withCsr (oHbm + 0x20) 0) 0 = false ∧
    (∀ n ∈ [0, 23592959], ∀ wrong ∈ [[], [0, 2, 4, 71]], ∃ s : State, unitsRun s = true ∧ (getStack s 0).migrating = true ∧ (getStack s 0).copied = n ∧
      (hbmFault s (n * 0x4000 + 3 * 0x40) wrong).1 = (wrong == []) ∧ (getStack s 0).retiredPc = some 3) ∧
    (∀ n ∈ [1, 2], ∃ s : State, s.boot.locked = true ∧ SMap.get 0 (getStack s 0).burstFails 63 = n) ∧
    ((([72, 5, 5] : List Nat).filter (· < 72)).eraseDups.length = 1 ∧ (([0, 71] : List Nat).filter (· < 72)).eraseDups.length = 2) ∧
    (decodes none [72] = some 0 ∧ decodes none [0, 1, 2] = some 3 ∧ decodes none [0, 1, 2, 71] = none ∧ decodes (some 0) [0, 1, 2, 71] = some 4) ∧
    ∃ s : State, s.boot.st = .apply ∧ s.boot.slot = 0 :=
  ⟨by decide +kernel, ⟨withStack { retiredPc := some 0 }, by decide +kernel⟩, ⟨withStack { corr := [(0, 15)] }, by decide +kernel⟩,
    ⟨withStack { corr := [(0, 16), (1, 15)] }, by decide +kernel⟩, ⟨withStack {}, by decide +kernel⟩, ⟨base, by decide +kernel⟩, by decide +kernel,
    fun n hn w hw => ⟨withStack { migrating := true, copied := n, retiredPc := some 3 }, rfl, rfl, rfl, by revert n w; decide +kernel, rfl⟩,
    fun n hn => ⟨withStack { burstFails := [(63, n)] }, rfl, rfl⟩, by decide +kernel, by decide +kernel,
    ⟨{ base with boot := { base.boot with st := .apply } }, rfl, rfl⟩⟩

/-- A block of one row of 16 elements with its master at 0x30000, its mask at 0x40000 and region 0 as its gradient. -/
def block (rule : Nat) (mask : Nat := 0) : List Byte :=
  [rule, 1 + 16 * 65536, 0x30000, 0x32000, 0x34000, mask, 0x36000, 0, 0x38000].flatMap (toLe 8)

/-- A state with that block, its gradient region, and cells of its pages. -/
def withBlock (rule : Nat) (mask : Nat := 0) (cells : SMap Byte := []) : State :=
  let s := atWeir (request 0 0) (some { ctx := 0, raw := declare 0 0 0 1 }) cells
  { s with sluice := { s.sluice with blocks := [(0, some { raw := block rule mask })] } }

/-- A commit that has arrived, without a fabric barrier. -/
def commit0 (poison mismatch : Bool) : Commit := { ctx := 0, slot := 0, raw := 0x0C :: List.replicate 63 0xFF, blocks := [0], poison, mismatch, arrived := true }

/-- Each outcome of a commit; elements frozen, of a non-finite master, and of a non-finite gradient. -/
theorem witness_Commits :
    (∀ p m : Bool, ∃ s : State, ∃ c r, s.sluice.commits.find? (fun m => m.ctx == 0 && m.arrived) = some c ∧ releaseOf s c = some r ∧ unitsRun s = true ∧
      commitWaits s c r = false ∧ bitB r.flags 0 = p ∧ (bitB r.flags 1 || r.min != r.max) = m) ∧
    (∃ s : State, ∃ c r, s.sluice.commits.find? (fun m => m.ctx == 0 && m.arrived) = some c ∧ releaseOf s c = some r ∧ unitsRun s = true ∧
      commitWaits s c r = true) ∧
    (∃ s : State, frozen s 0 (block 1 0x40000) 0 = true) ∧
    (∃ s : State, frozen s 0 (block 1) 0 = false ∧ (readMaster s 0 (block 1) 0).val.isFin = false) ∧
    ∃ s : State, frozen s 0 (block 1) 0 = false ∧ (readMaster s 0 (block 1) 0).val.isFin = true ∧
      (F32.val (sourceElem s 0 (sourceOf s 0 (bkGrad (block 1))) 0 0).1).isFin = false ∧ bkPrecond (block 1) = false := by
  refine ⟨fun p m => ⟨withSluice fun x => { x with commits := [commit0 p m] }, commit0 p m,
      ⟨b2n p + 2 * b2n m + 4 * b2n false, cmStep (commit0 p m).raw, cmStep (commit0 p m).raw, []⟩, by revert p m; decide +kernel⟩,
    ⟨withSluice fun x => { x with commits := [commit0 false false], snaps := [{ ctx := 0, form := 0, dev := none, left := [(0, 0, [1])] }] }, _,
      ⟨0, cmStep (commit0 false false).raw, cmStep (commit0 false false).raw, []⟩, rfl, by decide +kernel⟩,
    ⟨withBlock 1 0x40000 [(0x440000, 1)], by decide +kernel⟩,
    ⟨withBlock 1 0 ((List.range 6).map fun i => (0x430000 + i, 0xFF)), by decide +kernel⟩,
    ⟨withBlock 1 0 [(0x410002, 0x80), (0x410003, 0x7F)], by decide +kernel⟩⟩

/-- A root computation of a matrix of size 1. -/
def root1 (converged : Bool) : Root := { size := 1, x := [], m := [], converged }

/-- A root window's item, for the block of index 0. -/
def windowItem : Item := item [0x33, 0, 1]

/-- That window, started, with a pass of the computation. -/
def windowState (p : PassRun → PassRun) : State :=
  { withBasin fun x => { x with
      queue := [{ windowItem with started := true }]
      passes := [p { seq := 1, raw := windowRaw 1, bank := 0, win := true }] } with
    sluice := { blocks := [(0, some { raw := block 3 })], roots := [(0, some (root1 false))] } }

/-- An operand array to write, and one whose region is not complete; a snapshot's piece for the host, inside and outside its window, and for a
device; a checkpoint due by steps and not due; a buddy copy that waits for acknowledgements, one with more pieces and one with its last one
into each slot. -/
theorem witness_Operands :
    (∀ v : Bool, ∃ s : State, ∃ b, s.sluice.operands[0]? = some (0, 0) ∧ unitsRun s = true ∧ getBlock s 0 0 = some b ∧ bkPrecond b.raw = true ∧
      sourceOf s 0 (bkGrad b.raw) ≠ [] ∧ srcValid (sourceOf s 0 (bkGrad b.raw)) (bkElems b.raw) = true ∧
      regionDone s 0 (bkGrad b.raw) = v) ∧
    (∀ a ∈ [0x10FFFF, 0x110000], ∃ s : State, ∃ z, s.sluice.snaps[0]? = some z ∧ z.left = [(0, a, [1])] ∧ unitsRun s = true ∧ z.dev = none ∧
      inWindow s z.ctx a 1 = (a == 0x10FFFF)) ∧
    (∃ s : State, ∃ z, s.sluice.snaps[0]? = some z ∧ z.left = [(0, 0, [1])] ∧ unitsRun s = true ∧ z.dev = some 1) ∧
    (∃ s : State, slotBytes s ≠ 0 ∧ regOf s (oSlc + 8) % 256 ≤ s.sluice.sinceSteps) ∧
    (∃ s : State, slotBytes s ≠ 0 ∧ ¬ (regOf s (oSlc + 8) % 256 ≤ s.sluice.sinceSteps ∨
      regOf s (oSlc + 8) / 256 % 1024 ≤ s.ledger.opsec - s.sluice.sinceSec)) ∧
    (∀ slot < 2, ∀ more wait : Bool, ∃ s : State, ∃ b rest, s.sluice.buddy = some b ∧ b.left = (none, 64, [1]) :: rest ∧ b.slot = slot ∧
      unitsRun s = true ∧ (rest ≠ [] ↔ more = true) ∧ b.begun = false ∧ copyAcked s = !wait) := by
  refine ⟨fun v => ⟨{ atWeir (request 0 0) (some { ctx := 0, raw := declare 0 0 0 1, complete := v }) with
        sluice := { base.sluice with blocks := [(0, some { raw := block 3 })], operands := [(0, 0)] } }, { raw := block 3 }, by
          revert v; decide +kernel⟩,
    fun a ha => ⟨withSluice fun x => { x with snaps := [{ ctx := 0, form := 0, dev := none, left := [(0, a, [1])] }] }, _, rfl, rfl, rfl, rfl,
      by revert a; decide +kernel⟩,
    ⟨withSluice fun x => { x with snaps := [{ ctx := 0, form := 0, dev := some 1, left := [(0, 0, [1])] }] }, _, rfl, rfl, by decide +kernel, rfl⟩,
    ⟨withCsr (oSlc + 8) 0x00040100, by decide +kernel⟩, ⟨withCsr (oSlc + 8) 0x00040101, by decide +kernel⟩,
    fun slot _ more wait => ⟨{ base with
        sluice := { base.sluice with buddy := some { slot, step := 0, ctxs := [], left := (none, 64, [1]) :: (if more then [(none, 128, [2])] else []) } }
        links := { base.links with queue := if wait then [(none, { hdr := {}, payload := [] })] else [] } }, _, _, rfl, rfl,
      rfl, rfl, by cases more <;> decide, rfl, by cases wait <;> rfl⟩⟩

/-- A root window that may not start yet, that has no PRECOND block and that has one; started, with no pass, a pass that goes on, one that
waits and one that is done; a computation that has converged, within its budget and beyond it; a block that a copy still has to read. -/
theorem witness_RootWindows :
    (∀ n < 3, ∃ s : State, ∃ i, (getBasin s 0).queue = [i] ∧ basinRuns s 0 = true ∧ i.checked = true ∧ i.failed = none ∧
      isMark 3 i = true ∧ i.started = false ∧ windowClear s 0 i = (n != 0) ∧ (windowDesc s 0 i).isSome = (n == 2)) ∧
    (∃ s : State, ∃ i, (getBasin s 0).queue = [i] ∧ basinRuns s 0 = true ∧ i.checked = true ∧ i.failed = none ∧ isMark 3 i = true ∧
      i.started = true ∧ (getBasin s 0).passes = []) ∧
    (∀ n < 3, ∃ s : State, ∃ i p, (getBasin s 0).queue = [i] ∧ basinRuns s 0 = true ∧ i.checked = true ∧ i.failed = none ∧ isMark 3 i = true ∧
      i.started = true ∧ (getBasin s 0).passes = [p] ∧ p.allChecked = (n == 0) ∧ p.full = (n == 0) ∧ (getBasin s 0).replay = [] ∧
      (getBasin s 0).reloads = [] ∧ (getBasin s 0).retire = none ∧ (getBasin s 0).subst = (n == 2) ∧
      findRun (getBasin s 0) p.seq = some p ∧ (segmentFor s 0 p 1).isSome = true) ∧
    (∀ v : Bool, ∀ size ∈ [1, 2], ∃ s : State, ∃ d r, windowDesc s 0 windowItem = some d ∧
      getRoot s (basinCtx s 0) (winBlock windowItem) (winRight windowItem) = some r ∧ r.converged = v ∧
      (windowItem.used + r.size ≤ winBudget windowItem ↔ size = 1)) ∧
    (windowDesc base 0 windowItem = none ∧ getRoot base (basinCtx base 0) (winBlock windowItem) (winRight windowItem) = none) ∧
    ∀ v : Bool, ∃ s : State, copyHolds s 0 (winBlock windowItem) = v ∧ (windowDesc s 0 windowItem).isSome = true ∧
      (getRoot s (basinCtx s 0) (winBlock windowItem) (winRight windowItem)).isSome = true := by
  refine ⟨fun n hn => ⟨{ withBasin fun y => { y with queue := [windowItem], colOpen := if n = 0 then some (0, 0, 0, 0) else none } with
        sluice := { blocks := [(0, some { raw := block (if n = 2 then 3 else 1) })] } }, windowItem, by revert n; decide +kernel⟩,
    ⟨withBasin fun y => { y with queue := [{ windowItem with started := true }] }, { windowItem with started := true }, by decide +kernel⟩,
    fun n hn => ⟨updBasin (windowState fun p => if n = 0 then { p with units := 1, cursor := 1, checked := 1 } else p) 0 fun x =>
        { x with subst := n == 2 }, { windowItem with started := true },
      if n = 0 then { seq := 1, raw := windowRaw 1, bank := 0, win := true, units := 1, cursor := 1, checked := 1 }
        else { seq := 1, raw := windowRaw 1, bank := 0, win := true }, by revert n; decide +kernel⟩,
    fun v size hs => ⟨{ windowState id with sluice := { blocks := [(0, some { raw := block 3 })], roots := [(0, some { root1 v with size })] } },
      block 3, { root1 v with size }, by revert v size; decide +kernel⟩,
    by decide +kernel,
    fun v => ⟨{ windowState id with sluice := { (windowState id).sluice with
      snaps := if v then [{ ctx := 0, form := 0, dev := none, left := [(0, 0, [1])] }] else [] } }, by revert v; decide +kernel⟩⟩

/-! Links. -/

/-- The state of the tests with its links changed, and with port 0 in a state. -/
def withLinks (f : Links → Links) : State := { base with links := f base.links }
def withPort (x : LPort) (f : Links → Links := id) : State := withLinks fun l => f { l with ports := [(0, x)] }

theorem leNat_toLe (n x : Nat) : leNat (toLe n x) = x % 256 ^ n := by
  induction n generalizing x with
  | zero => simp [toLe, leNat, Nat.mod_one]
  | succ n ih =>
    simp only [toLe, leNat, ih, BitVec.toNat_ofNat]
    rw [show 256 ^ (n + 1) = 256 * 256 ^ n by rw [Nat.pow_succ, Nat.mul_comm], Nat.mod_mul]

/-- A DISCOVERY record: serial number, device, port, version, the plan's hash, SEEN. -/
def record (serial : Word) (dev port : Nat) (version : Nat := 1) (hash : Nat := 0) (seen : Nat := 1) : List Byte :=
  toLe 8 serial.toNat ++ toLe 2 dev ++ toLe 1 port ++ toLe 1 version ++ [0] ++ toLe 16 hash ++ toLe 1 seen

theorem record_serial (serial : Word) (dev port version hash seen : Nat) : leAt (record serial dev port version hash seen) 0 8 = serial.toNat := by
  have h : (toLe 8 serial.toNat).length = 8 := by simp [toLe]
  rw [leAt, slice, List.drop_zero, record]
  simp only [List.append_assoc]
  rw [List.take_append_of_le_length (by omega), List.take_of_length_le (by omega), show 8 - (_ - 0) = 0 by simp [h]]
  simp only [List.replicate_zero, List.append_nil, leNat_toLe]
  omega

/-- The serial number of another device. -/
def otherSerial : Word := Config.serial + 1

theorem not_serial (dev port version hash seen : Nat) : leAt (record otherSerial dev port version hash seen) 0 8 ≠ Config.serial.toNat := by
  rw [record_serial, otherSerial]
  intro h
  have := BitVec.eq_of_toNat_eq h
  bv_omega

/-- An ID part in which plan ports 0 and 1 expect device 1's ports 0 and 1 in one set of ports, and plan port 2 device 2's port 0. -/
def idPart0 : List Byte := List.replicate 64 0 ++ [1, 5, 0, 0, 1, 0, 0, 0] ++ List.replicate 8 0 ++ [1, 5, 0, 0, 1, 0, 1, 0] ++ List.replicate 8 0 ++
  [1, 0, 0, 0, 2, 0, 0, 0] ++ List.replicate 8 0

/-- Port 0 in DISCOVERY under that ID part. -/
def discovering (x : LPort := { st := .discovery }) (more : SMap LPort := []) : State :=
  withLinks fun l => { l with ports := (0, x) :: more, idPart := idPart0 }

/-- Plan port `q` is in use and expects this neighbour; it is in port 0's set. -/
def expects (s : State) (dev port q : Nat) : Bool := decide (q < 32 ∧ portRole s q ≠ 0 ∧ expectation (planPort s q) = (dev, port))
def same (s : State) (q : Nat) : Bool := decide (portSet (planPort s 0) ≠ 0 ∧ portSet (planPort s q) = portSet (planPort s 0))

set_option maxRecDepth 20000 in
/-- Ports that train and are DOWN; records that do not decide a port and that do; each line of R429's table; a port that has waited too long. -/
theorem witness_LinkTrainingAndDiscovery :
    (∀ st ∈ [PState.training, .down], ∃ s : State, (getLink s 0).st = st) ∧
    (∀ seen < 2, ∃ s : State, ∃ r, (getLink s 0).st = .discovery ∧ (getLink s 0).records = [r] ∧ (getLink s 0).gotSeen = false ∧ leAt r 29 1 = seen) ∧
    (leAt (record Config.serial 1 0) 0 8 = Config.serial.toNat) ∧
    (leAt (record otherSerial 1 0 2) 0 8 ≠ Config.serial.toNat ∧ leAt (record otherSerial 1 0 2) 11 1 ≠ 1) ∧
    (leAt (record otherSerial 1 0 1 1) 0 8 ≠ Config.serial.toNat ∧ leAt (record otherSerial 1 0 1 1) 11 1 = 1 ∧
      slice (record otherSerial 1 0 1 1) 13 16 ≠ slice (discovering).links.planHash 0 16) ∧
    ((∀ dev < 4, ∀ port < 2, leAt (record otherSerial dev port) 0 8 ≠ Config.serial.toNat ∧ leAt (record otherSerial dev port) 11 1 = 1 ∧
        slice (record otherSerial dev port) 13 16 = slice (discovering).links.planHash 0 16 ∧
        leAt (record otherSerial dev port) 8 2 = dev ∧ leAt (record otherSerial dev port) 10 1 = port) ∧
     expects (discovering) 1 0 0 ∧
     (¬ expects (discovering) 1 1 0 ∧ expects (discovering) 1 1 1 ∧ same (discovering) 1 ∧ serves (discovering) 0 1 = false ∧
        ∀ k < 1, ¬ expects (discovering) 1 1 k) ∧
     (let s := discovering {} [(5, { st := .active, planPort := 1 })]
      ¬ expects s 1 1 0 ∧ expects s 1 1 1 ∧ serves s 0 1 = true ∧ ∀ k < 32, ¬ (expects s 1 1 k ∧ same s k ∧ serves s 0 k = false)) ∧
     (¬ expects (discovering) 2 0 0 ∧ expects (discovering) 2 0 2 ∧ ¬ same (discovering) 2 ∧
        (∀ k < 32, expects (discovering) 2 0 k → serves (discovering) 0 k = false) ∧
        ∀ k < 32, ¬ (expects (discovering) 2 0 k ∧ same (discovering) k)) ∧
     ∀ k < 32, ¬ expects (discovering) 3 0 k) ∧
    ∃ s : State, (getLink s 0).st = .discovery ∧ regOf s (oNl + 0x808) % 1024 * 50000000 ≤ s.ticks - (getLink s 0).enabledAt := by
  refine ⟨fun st _ => ⟨withPort { st }, rfl⟩,
    fun seen hs => ⟨withPort { st := .discovery, records := [record otherSerial 1 0 (seen := seen)] }, _, rfl, rfl, rfl, ?_⟩,
    record_serial .., ⟨not_serial _ _ _ _ _, by decide +kernel⟩, ⟨not_serial _ _ _ _ _, by decide +kernel⟩,
    ⟨fun dev hd port hp => ⟨not_serial _ _ _ _ _, ?_⟩, by decide +kernel⟩, ⟨{ withPort { st := .discovery } with ticks := 10000000000 }, by decide +kernel⟩⟩
  · revert seen; decide +kernel
  · revert dev port; decide +kernel

set_option maxRecDepth 20000 in
/-- Two ports of a set that meet one expectation together: the lower one decides, the higher one waits. -/
theorem witness_LowerPortFirst :
    let r := record otherSerial 1 1
    let x : LPort := { st := .discovery, gotSeen := true, records := [r] }
    let s := discovering x [(1, x)]
    (getLink s 1).st = .discovery ∧ (getLink s 1).records = r :: [] ∧
      lowerFirst (updLink s 1 fun x => { x with records := [], gotRec := true }) 1 r = true ∧
      lowerFirst (updLink s 0 fun x => { x with records := [], gotRec := true }) 0 r = false := ⟨rfl, rfl, by decide +kernel, by decide +kernel⟩

/-- A block with one flit and nothing else. -/
def block1 (seq : Nat) : LBlock := { seq, ack := 511, nak := false, vc := 0, flits := [List.replicate 64 0], crVc := 0, crCount := 0 }

set_option maxRecDepth 40000 in
/-- A port that is due block 0: that block, another, and bytes that are no block; an ACTIVE port of a running job and of none; a VC without credits
that has waited, reported and not. -/
theorem witness_LinkBlocksAndReplay :
    (∀ n < 2, blockOf (blockBytes (block1 n)) = some (block1 n)) ∧ blockOf [] = none ∧
    (∃ s : State, sendsBlocks (getLink s 0) = true ∧ (getLink s 0).rxSeq = 0) ∧
    (∃ s : State, (getLink s 0).st = .active ∧ jobRuns s = true) ∧ jobRuns base = false ∧
    (∀ n ∈ [7, 8], ∃ s : State, sendsBlocks (getLink s 0) = true ∧ (getLink s 0).unacked = [⟨block1 3, n⟩] ∧ (getLink s 0).syms = [] ∧
      retrainDue s 0 = (n == 8)) ∧
    (∀ n ∈ [65536, 65537], ∃ s : State, sendsBlocks (getLink s 0) = true ∧ (getLink s 0).unacked = [] ∧
      (getLink s 0).syms = [(0, [0, 0, 0, 0, 0, 0, 0, n])] ∧ retrainDue s 0 = (n == 65537)) ∧
    (∀ st ∈ [[], [5]], ∃ s : State, sendsBlocks (getLink s 0) = true ∧ SMap.get [] (getLink s 0).txq 5 ≠ [] ∧ SMap.get 0 (getLink s 0).credits 5 = 0 ∧
      regOf s (oNl + 0x80C) % 65536 < 65536 ∧ (getLink s 0).stalled = st) := by
  refine ⟨by decide +kernel, by decide +kernel, ⟨withPort { st := .active }, by decide +kernel⟩,
    ⟨{ withPort { st := .active } with host := { base.host with ctxs := [(0, { ctx0 with jobStarted := true })] } }, by decide +kernel⟩, by decide +kernel,
    fun n hn => ⟨withPort { st := .active, unacked := [⟨block1 3, n⟩] }, by revert n; decide +kernel⟩,
    fun n hn => ⟨withPort { st := .active, syms := [(0, [0, 0, 0, 0, 0, 0, 0, n])] }, by revert n; decide +kernel⟩,
    fun st hs => ⟨withPort { st := .active, txq := [(5, [{ data := [] }])], stalled := st }, ?_⟩⟩
  revert st; decide +kernel

/-! Packets. -/

/-- Port 0 is ACTIVE under plan port 0; the member table's entry for device 1 of the own block is valid and lists plan port 0, that of device 2
is not valid, and this device is 0. -/
def routed : State :=
  withLinks fun l => { l with
    ports := [(0, { st := .active })], hasId := true
    idPart := idPart0
    planSec := List.replicate 8 0 ++ toLe 8 (2 ^ 46) ++ List.replicate 8 0 }

/-- A packet from device 3 for a device, with that many hops left. -/
def pktTo (dst hops : Nat) : Pkt := { hdr := ({ dstDev := dst, srcDev := 3, kind := 1, hops, job := 7, len := 1 } : Hdr).bytes, payload := [] }

/-- A router that holds one packet, and an inbox that holds one. -/
def routing (src : Option Nat) (x : Pkt) : State := { routed with links := { routed.links with queue := [(src, x)] } }

set_option maxRecDepth 20000 in
/-- A packet without hops, for this device, without a way and with one, from a port and from here; header fields and block fields at their
bounds. -/
theorem witness_Routing :
    (∃ (s : State) (p : Nat) (x : Pkt), s.links.queue[0]? = some (some p, x) ∧ (hdrOf x.hdr).hops = 0) ∧
    (∀ src ∈ [none, some 0], ∃ (s : State) (x : Pkt), s.links.queue[0]? = some (src, x) ∧ (src = none ∨ (hdrOf x.hdr).hops ≠ 0) ∧ s.links.hasId = true ∧
      (hdrOf x.hdr).dstDev = s.links.devId) ∧
    (∀ src ∈ [none, some 0], ∀ lost : Bool, ∃ (s : State) (x : Pkt), s.links.queue[0]? = some (src, x) ∧ (src = none ∨ (hdrOf x.hdr).hops ≠ 0) ∧
      (hdrOf x.hdr).dstDev ≠ s.links.devId ∧ copyWrite s (hdrOf x.hdr) = false ∧ bitB (routeEntry s (hdrOf x.hdr).dstDev) 46 = lost ∧
      outPort s x = none) ∧
    (∀ src ∈ [none, some 0], ∀ held : Bool, ∃ (s : State) (x : Pkt), s.links.queue[0]? = some (src, x) ∧ (src = none ∨ (hdrOf x.hdr).hops ≠ 0) ∧
      (hdrOf x.hdr).dstDev ≠ s.links.devId ∧ copyWrite s (hdrOf x.hdr) = false ∧ bitB (routeEntry s (hdrOf x.hdr).dstDev) 46 = true ∧
      routeList s (routeEntry s (hdrOf x.hdr).dstDev) = [0] ∧ outPort s x = some 0 ∧
      vcHeld s 0 (vcOf (hdrOf (sentHdr s src x))) = held) ∧
    (∃ (s : State) (x : Pkt), copyWrite s (hdrOf x.hdr) = true ∧ s.recov.st = .normal) ∧
    (∃ h : Hdr, h.dstDev = 2 ^ 16 - 1 ∧ h.kind = 2 ^ 8 - 1 ∧ h.len = 2 ^ 24 - 1 ∧ h.addr = 2 ^ 48 - 1 ∧ h.coll = 2 ^ 32 - 1) ∧
    (∃ b : LBlock, b.seq = 2 ^ 9 - 1 ∧ b.vc = 7 ∧ b.crCount = 31 ∧ b.flits.length = 20 ∧ ∀ f ∈ b.flits, f.length = 64) := by
  refine ⟨⟨routing (some 0) (pktTo 1 0), _, _, rfl, by decide +kernel⟩,
    fun src hs => ⟨routing src (pktTo 0 1), pktTo 0 1, rfl, ?_⟩,
    fun src hs lost => ⟨updLink (routing src (pktTo (if lost then 1 else 2) 1)) 0 fun x => { x with st := .down }, pktTo (if lost then 1 else 2) 1, ?_⟩,
    fun src hs held => ⟨
      let s := routing src (pktTo 1 1)
      { s with links := { s.links with streams := if held then [{ inPort := 5, inVc := 0, outPort := some 0, outVc := 0, left := 1 }] else [] } },
      pktTo 1 1, ?_⟩,
    ⟨{ routed with links := { routed.links with idPart := [0, 0, 0, 0, 3, 0, 3, 0] } },
      { hdr := ({ dstDev := 3, kind := 5, len := 1 } : Hdr).bytes, payload := [] }, by decide +kernel⟩,
    ⟨{ dstDev := 2 ^ 16 - 1, kind := 2 ^ 8 - 1, len := 2 ^ 24 - 1, addr := 2 ^ 48 - 1, coll := 2 ^ 32 - 1 }, rfl, rfl, rfl, rfl, rfl⟩,
    ⟨{ block1 511 with vc := 7, crCount := 31, flits := List.replicate 20 (List.replicate 64 0) }, by decide +kernel⟩⟩
    <;> (simp only [List.mem_cons, List.not_mem_nil, or_false] at hs; rcases hs with rfl | rfl <;> first | decide +kernel | (cases lost <;> decide +kernel) | (cases held <;> decide +kernel))

/-- Context 0 runs job 7 on the fabric; one packet has arrived. -/
def arrived (h : Hdr) (payload : List Byte := []) (f : Ctx → Ctx := id) (g : Jets → Jets := id) : State :=
  { base with
    host := { base.host with ctxs := [(0, f { ctx0 with fabric := true })] }
    jets := g base.jets
    links := { base.links with inbox := [(none, { hdr := h.bytes, payload })] } }

/-- It is the first of its flow. -/
theorem first_arrived (h : Hdr) (payload : List Byte) (f : Ctx → Ctx) (g : Jets → Jets) (kind : Nat) (hk : (hdrOf h.bytes).kind = kind) :
    FirstOfFlow (arrived h payload f g) 0 kind { hdr := h.bytes, payload } :=
  ⟨⟨none, rfl⟩, fun e he => by simp at he, rfl, hk⟩

/-- A packet of job 7, or another, from endpoint 1 of device 3 to jet 0 and a channel. -/
def jobHdr (kind : Nat) (job : Nat := 7) (ep : Nat := 0) (ch : Nat := 7) : Hdr :=
  { srcDev := 3, dstEp := ep, srcEp := 1, kind, job, channel := ch, tag := 2, len := 1, wop := 0 }

/-- Jet 0's channel 7 has a source in device 3 for its one slot, and connection 4 of jet 0 leads there. -/
def remoteJets (pending : Bool) (j : Jets) : Jets := { j with
  chans := [(7, { chan [] with conns := [(1, 2 ^ 16 + 3)] })]
  conns := [(0, { used := true, pending, dst := 0, ch := 0, remote := some (3, 1, 7) })] }

set_option maxRecDepth 20000 in
/-- For each kind of channel packet: no context of its job, a jet that is not the context's, one that waits, and each state of its channel and
connection. -/
theorem witness_ChannelPackets :
    (∀ kind ∈ [1, 2], ∃ s : State, ∃ x, FirstOfFlow s 0 kind x ∧ isNotice (hdrOf x.hdr) = false ∧ ctxOfJob s (hdrOf x.hdr).job = none) ∧
    (∀ kind ∈ [1, 2], ∃ s : State, ∃ x, FirstOfFlow s 0 kind x ∧ isNotice (hdrOf x.hdr) = false ∧ ctxOfJob s (hdrOf x.hdr).job = some 0 ∧
      awaits s 0 (hdrOf x.hdr).dstEp = false ∧ holdsJet s 0 (hdrOf x.hdr).dstEp = false) ∧
    (∃ s : State, ∃ x, FirstOfFlow s 0 1 x ∧ isNotice (hdrOf x.hdr) = false ∧ ctxOfJob s (hdrOf x.hdr).job = some 0 ∧
      holdsJet s 0 (hdrOf x.hdr).dstEp = true ∧ (getChan s (hdrOf x.hdr).dstEp (hdrOf x.hdr).channel).st = .closed) ∧
    (∃ s : State, ∃ x, FirstOfFlow s 0 1 x ∧ isNotice (hdrOf x.hdr) = false ∧ ctxOfJob s (hdrOf x.hdr).job = some 0 ∧
      holdsJet s 0 (hdrOf x.hdr).dstEp = true ∧ (getChan s (hdrOf x.hdr).dstEp (hdrOf x.hdr).channel).st ≠ .closed ∧
      ((hdrOf x.hdr).srcEp, 2 ^ 16 + (hdrOf x.hdr).srcDev) ∈ (getChan s (hdrOf x.hdr).dstEp (hdrOf x.hdr).channel).conns ∧
      x.payload.length ≤ 64 * (getChan s (hdrOf x.hdr).dstEp (hdrOf x.hdr).channel).largest ∧
      0 < (getChan s (hdrOf x.hdr).dstEp (hdrOf x.hdr).channel).slots ∧
      SMap.get none (getChan s (hdrOf x.hdr).dstEp (hdrOf x.hdr).channel).msgs 0 = none) ∧
    (∀ e ∈ [(9, ChanState.closed, true), (8, .opened, true), (7, .opened, false), (6, .closing, true)], ∃ s : State, ∃ x, FirstOfFlow s 0 2 x ∧
      ctxOfJob s (hdrOf x.hdr).job = some 0 ∧ holdsJet s 0 (hdrOf x.hdr).dstEp = true ∧ (hdrOf x.hdr).srcEp / 4096 = 0 ∧
      (getChan s (hdrOf x.hdr).dstEp (hdrOf x.hdr).channel).st = e.2.1 ∧
      (e.2.1 = .opened → decide ((getChan s (hdrOf x.hdr).dstEp (hdrOf x.hdr).channel).conns.length <
        (getChan s (hdrOf x.hdr).dstEp (hdrOf x.hdr).channel).sources) = e.2.2)) ∧
    (∀ pending : Bool, ∃ s : State, ∃ x, FirstOfFlow s 0 (if pending then 3 else 4) x ∧ ctxOfJob s (hdrOf x.hdr).job = some 0 ∧
      holdsJet s 0 (hdrOf x.hdr).dstEp = true ∧ (getConn s (hdrOf x.hdr).dstEp 0).used = true ∧
      (getConn s (hdrOf x.hdr).dstEp 0).pending = pending ∧
      (getConn s (hdrOf x.hdr).dstEp 0).remote = some ((hdrOf x.hdr).srcDev, (hdrOf x.hdr).srcEp, (hdrOf x.hdr).channel) ∧
      ∀ u ∈ s.jets.threads, u.2.wait = .none) := by
  refine ⟨fun kind hk => ⟨arrived (jobHdr kind 8), _, first_arrived _ _ _ _ _ (by revert kind; decide +kernel), by revert kind; decide +kernel⟩,
    fun kind hk => ⟨arrived (jobHdr kind 7 512), _, first_arrived _ _ _ _ _ (by revert kind; decide +kernel), by revert kind; decide +kernel⟩,
    ⟨arrived (jobHdr 1 7 0 9), _, first_arrived _ _ _ _ _ (by decide +kernel), by decide +kernel⟩,
    ⟨arrived (jobHdr 1) [] id (remoteJets false), _, first_arrived _ _ _ _ _ (by decide +kernel), by decide +kernel⟩,
    fun e he => ⟨arrived (jobHdr 2 7 0 e.1) [] id fun j => { j with chans := j.chans.map fun k => if k.1 = 6 then (6, { k.2 with st := .closing }) else k },
      _, first_arrived _ _ _ _ _ (by revert e; decide +kernel), by revert e; decide +kernel⟩,
    fun pending => ⟨arrived (jobHdr (if pending then 3 else 4)) [] id (remoteJets pending), _,
      first_arrived _ _ _ _ _ (by cases pending <;> decide +kernel), by cases pending <;> decide +kernel⟩⟩

/-- A COLLECTIVE of context 0 and region 0 over members 0 and 3, for 16 binary32 elements. -/
def coll0 (op mode : Nat) (f : Coll → Coll := id) : Coll :=
  f { ctx := 0, slot := 0, raw := toLe 8 0x0D ++ toLe 1 op ++ toLe 1 mode ++ List.replicate 6 0 ++ toLe 8 16 ++ toLe 8 0x30000 ++ toLe 2 0
      rank := 0, members := [0, 3], exps := [0, 1] }

/-- That collective runs; its region's lines. -/
def colling (x : Coll) (lines : SMap Bool := []) : State :=
  let s := atWeir (request 0 0) (some { ctx := 0, raw := declare 0 0 0 1, lines })
  { s with links := { s.links with colls := [x] }, mem := { s.mem with weirReqs := [] } }

set_option maxRecDepth 20000 in
/-- A WRITE of the protected device into the reserve, one of no job, one to pages that the context holds and does not hold; a stream; a ready
notice without collectives. -/
theorem witness_MemoryPackets :
    (∃ s : State, ∃ x, FirstOfFlow s 0 5 x ∧ buddyWrite (unqueued s 0) (hdrOf x.hdr) x.payload.length = true) ∧
    (∃ s : State, ∃ x, FirstOfFlow s 0 5 x ∧ buddyWrite (unqueued s 0) (hdrOf x.hdr) x.payload.length = false ∧
      restoreWrite (unqueued s 0) (hdrOf x.hdr) x.payload.length = none ∧ ctxOfJob s (hdrOf x.hdr).job = none) ∧
    (∀ ok : Bool, ∀ ep ∈ [0, 0x4000], ∃ s : State, ∃ x, FirstOfFlow s 0 5 x ∧ buddyWrite (unqueued s 0) (hdrOf x.hdr) x.payload.length = false ∧
      restoreWrite (unqueued s 0) (hdrOf x.hdr) x.payload.length = none ∧ ctxOfJob s (hdrOf x.hdr).job = some 0 ∧
      plainRange (unqueued s 0) 0 (hdrOf x.hdr).addr x.payload.length false false true = ok ∧ (hdrOf x.hdr).dstEp = ep) ∧
    (∃ s : State, ∃ x, FirstOfFlow s 0 5 x ∧ buddyWrite (unqueued s 0) (hdrOf x.hdr) x.payload.length = false ∧
      restoreWrite (unqueued s 0) (hdrOf x.hdr) x.payload.length = some 1) ∧
    (∀ ok : Bool, ∃ s : State, ∃ x, FirstOfFlow s 0 5 x ∧ buddyWrite (unqueued s 0) (hdrOf x.hdr) x.payload.length = false ∧
      restoreWrite (unqueued s 0) (hdrOf x.hdr) x.payload.length = none ∧ ctxOfJob s (hdrOf x.hdr).job = some 0 ∧
      plainRange (unqueued s 0) 0 (hdrOf x.hdr).addr x.payload.length false false true = true ∧ (hdrOf x.hdr).dstEp / 4096 = 4 ∧
      (nodeIn (unqueued s 0) 0 (hdrOf x.hdr).coll (hdrOf x.hdr).srcDev (hdrOf x.hdr).channel (hdrOf x.hdr).tag (hdrOf x.hdr).addr x.payload).2 = ok) ∧
    (∃ s : State, ∃ x, FirstOfFlow s 0 6 x ∧ ctxOfJob s (hdrOf x.hdr).job = some 0 ∧ (hdrOf x.hdr).addr % 64 = 0 ∧ wopOk (hdrOf x.hdr).wop = true) ∧
    ∃ s : State, ∃ x, FirstOfFlow s 0 7 x ∧ ctxOfJob s (hdrOf x.hdr).job = some 0 ∧ s.links.colls = [] := by
  refine ⟨⟨{ arrived { srcDev := 3, kind := 5, addr := 0x5F80000000 - 0x80000000, len := 1 } [1] with
        csr := SMap.put 0 (SMap.put 0 base.csr (oSlc + 8) 0x00040100) (oHbm + 0x20) 0
        links := { base.links with
          inbox := [(none, { hdr := ({ srcDev := 3, kind := 5, addr := 0x5F80000000 - 0x80000000, len := 1 } : Hdr).bytes, payload := [1] })]
          idPart := [0, 0, 0, 0, 3, 0, 3, 0] } },
      _, ⟨⟨none, rfl⟩, fun e he => by simp at he, rfl, by decide +kernel⟩, by decide +kernel⟩,
    ⟨arrived (jobHdr 5 8), _, first_arrived _ _ _ _ _ (by decide +kernel), by decide +kernel⟩,
    fun ok ep he => ⟨arrived { jobHdr 5 7 ep with addr := if ok then 0x10000 else 0x400000 } [1], _,
      first_arrived _ _ _ _ _ ?_, ?_⟩,
    ⟨{ arrived { srcDev := 3, srcEp := 0x6000, kind := 5, addr := 0x10000, len := 1 } [1] (fun x => { x with scaleBase := 0x10000, scaleLen := 1 }) with
        recov := { base.recov with st := .restore, covered := [0] }
        links := { base.links with
          inbox := [(none, { hdr := ({ srcDev := 3, srcEp := 0x6000, kind := 5, addr := 0x10000, len := 1 } : Hdr).bytes, payload := [1] })]
          idPart := [0, 0, 0, 0, 3, 0, 3, 0] } },
      _, ⟨⟨none, rfl⟩, fun e he => by simp at he, rfl, by decide +kernel⟩, by decide +kernel⟩,
    fun ok => ⟨{ atWeir (request 0 0) (some { ctx := 0, raw := declare 0 0 0 1 }) with
        host := { base.host with ctxs := [(0, { ctx0 with fabric := true })] }
        links := { base.links with
          colls := if ok then [coll0 2 1 fun x => { x with told := true }] else []
          inbox := [(none, { hdr := { jobHdr 5 7 0x4000 0 with tag := 0, addr := 0x10000, len := 1 }.bytes, payload := List.replicate 64 0 })] } },
      _, ⟨⟨none, rfl⟩, fun e he => by simp at he, rfl, by decide +kernel⟩, by cases ok <;> decide +kernel⟩,
    ⟨arrived (jobHdr 6), _, first_arrived _ _ _ _ _ (by decide +kernel), by decide +kernel⟩,
    ⟨arrived (jobHdr 7), _, first_arrived _ _ _ _ _ (by decide +kernel), by decide +kernel⟩⟩
  · cases ok <;> revert ep <;> decide +kernel
  · cases ok <;> revert ep <;> decide +kernel

/-! Fabric barriers, collectives and recovery. -/

/-- An ID part with barriers 0 and 1: tree 0 with parent `parent` and child 3; the agree and restore barriers are 0 and 1. -/
def idPart1 (parent : Nat) : List Byte :=
  List.replicate 12 0 ++ [0, 1, 3, 0] ++ List.replicate 560 0 ++ (toLe 2 parent ++ [1] ++ List.replicate 5 0 ++ toLe 2 3 ++ List.replicate 62 0) ++
    (toLe 2 parent ++ [1] ++ List.replicate 5 0 ++ toLe 2 3 ++ List.replicate 62 0)

/-- A BARRIER packet of device 3 has arrived, of this barrier, operation and generation. -/
def barArrived (b op gen src parent : Nat) (z : FBar := {}) : State :=
  withLinks fun l => { l with
    idPart := idPart1 parent, bars := [(0, z)]
    inbox := [(none, { hdr := ({ srcDev := src, kind := 8, len := 1 } : Hdr).bytes, payload := slice (toLe 1 b ++ toLe 1 op ++ toLe 2 gen) 0 64 })] }

set_option maxRecDepth 20000 in
/-- A BARRIER packet of an unused barrier, of another generation, of a child, of the parent and of neither; arrivals complete at the root and
below it; a barrier whose COMMIT has waited, reported and not. -/
theorem witness_FabricBarriers :
    (∀ b < 3, ∃ s : State, ∃ x, FirstOfFlow s 0 8 x ∧ leAt x.payload 0 1 = b ∧ bitB (leAt s.links.idPart 14 2) b = decide (b < 2)) ∧
    (∀ gen < 2, ∃ s : State, ∃ x, FirstOfFlow s 0 8 x ∧ leAt x.payload 0 1 = 0 ∧ bitB (leAt s.links.idPart 14 2) 0 = true ∧
      leAt x.payload 2 2 = gen ∧ (getFBar s 0).gen.toNat = 0 ∧ leAt x.payload 1 1 = 0 ∧ (hdrOf x.hdr).srcDev ∈ treeKids s 0) ∧
    (∃ s : State, ∃ x, FirstOfFlow s 0 8 x ∧ leAt x.payload 1 1 = 1 ∧ treeParent s 0 = (hdrOf x.hdr).srcDev ∧ (getFBar s 0).up = true ∧
      bitB (leAt s.links.idPart 14 2) 0 = true ∧ leAt x.payload 2 2 = (getFBar s 0).gen.toNat) ∧
    (∃ s : State, ∃ x, FirstOfFlow s 0 8 x ∧ leAt x.payload 1 1 = 0 ∧ (hdrOf x.hdr).srcDev ∉ treeKids s 0 ∧
      bitB (leAt s.links.idPart 14 2) 0 = true ∧ leAt x.payload 2 2 = (getFBar s 0).gen.toNat) ∧
    (∃ z w : FBar, z.any = false ∧ w.any = true ∧ z.pairs = [] ∧ w.pairs = [(1, -126)]) ∧
    (∀ parent ∈ [0xFFFF, 2], ∃ s : State, (getFBar s 0).here = true ∧ (getFBar s 0).up = false ∧ (∀ d ∈ treeKids s 0, d ∈ (getFBar s 0).kids) ∧
      treeParent s 0 = parent) ∧
    (∀ members ∈ [1, 2], ∃ s : State, ∃ x, getBar s (3 * 2 ^ 32 + 0) = x ∧ x.init = true ∧ x.broken = false ∧ x.inTree = false ∧
      0 < x.members ∧ x.members = members ∧ x.arrivals = 1) ∧
    (∀ st : Bool, ∃ s : State, barWaiters s (3 * 2 ^ 32) = [] ∧ (getFBar s 0).here = true ∧
      (s.sluice.commits.filter fun m => m.arrived && leAt m.raw 8 1 == 0).map (·.ctx) = [0] ∧ (getFBar s 0).stalled = st ∧
      regOf s (oJet + 0x48) % 1024 * 50000000 < s.ticks - (getFBar s 0).since) := by
  refine ⟨fun b hb => ⟨barArrived b 0 0 3 2, _, ⟨⟨none, rfl⟩, fun e he => by simp [barArrived, withLinks] at he, rfl, ?_⟩, ?_⟩,
    fun gen hg => ⟨barArrived 0 0 gen 3 2, _, ⟨⟨none, rfl⟩, fun e he => by simp [barArrived, withLinks] at he, rfl, ?_⟩, ?_⟩,
    ⟨barArrived 0 1 0 2 2 { up := true }, _, ⟨⟨none, rfl⟩, fun e he => by simp [barArrived, withLinks] at he, rfl, by decide +kernel⟩, by decide +kernel⟩,
    ⟨barArrived 0 0 0 4 2, _, ⟨⟨none, rfl⟩, fun e he => by simp [barArrived, withLinks] at he, rfl, by decide +kernel⟩, by decide +kernel⟩,
    ⟨{}, { any := true, pairs := [(1, -126)] }, rfl, rfl, rfl, rfl⟩,
    fun p hp => ⟨barArrived 0 0 0 3 p { here := true, kids := [3] }, ?_⟩,
    fun m hm => ⟨withJets fun j => { j with bars := [(3 * 2 ^ 32, { init := true, members := m, arrivals := 1 })] }, _, rfl, rfl, rfl, rfl,
      by revert m; decide +kernel, rfl, rfl⟩,
    fun st => ⟨{ barArrived 0 0 0 3 2 { here := true, stalled := st } with
        ticks := 600000000
        sluice := { base.sluice with commits := [{ commit0 false false with raw := List.replicate 64 0 }] } }, ?_⟩⟩
  · revert b; decide +kernel
  · revert b; decide +kernel
  · revert gen; decide +kernel
  · revert gen; decide +kernel
  · revert p; decide +kernel
  · cases st <;> decide +kernel

set_option maxRecDepth 20000 in
/-- A collective whose output is complete; direct traffic of each kind, sent and not; a node that is waited for. -/
theorem witness_Collectives :
    (∃ s : State, ∃ x y, s.links.colls = [x] ∧ (advanceAll s 0).links.colls = [y] ∧ y.ctx = 0 ∧ y.done = false ∧
      outputDone (advanceAll s 0) y = true ∧ allSent y = true) ∧
    (∀ op ∈ [0, 1, 3], (coll0 op 0).treed = false ∧ directKey 1 ∉ (coll0 op 0).sent ∧ clOp (coll0 op 0).raw = op ∧ clMode (coll0 op 0).raw = 0) ∧
    (∃ x : Coll, directKey 1 ∈ x.sent) ∧
    (nodeIn (colling (coll0 2 1 fun x => { x with told := true })) 0 0 3 0 0 0x10000 (List.replicate 64 0)).2 = true := by
  refine ⟨⟨colling (coll0 1 0 fun x => { x with told := true, sent := [directKey 0, directKey 1] }) ((List.range 4).map fun i => (i, true)),
      coll0 1 0 fun x => { x with told := true, sent := [directKey 0, directKey 1] },
      coll0 1 0 fun x => { x with told := true, sent := [directKey 0, directKey 1] }, by decide +kernel⟩, by decide +kernel,
    ⟨coll0 1 0 fun x => { x with sent := [directKey 1] }, by decide +kernel⟩, by decide +kernel⟩

/-- The state of the tests with its recovery changed. -/
def withRecov (f : Recovery → Recovery) : State := { base with recov := f base.recov }

/-- An error record. -/
def err (code : Nat) : ErrRec := { code, sev := 3, unit := 0, inst := 0, dev := 0, secs := 0, epoch := 0 }

/-- A notice of the neighbour at port 0, with an epoch and `n` devices. -/
def noticed (epoch n src : Nat) (f : Recovery → Recovery := id) : State :=
  { withLinks fun l => { l with
      ports := [(0, { st := .active, nbrDev := 3 })]
      inbox := [(some 0, { hdr := ({ srcDev := src, dstEp := 0x6000, srcEp := 0x6000, kind := 1, len := 1 } : Hdr).bytes
                           payload := slice (toLe 4 epoch ++ toLe 2 5 ++ toLe 1 n ++ toLe 2 5) 0 64 })] } with recov := f base.recov }

set_option maxRecDepth 20000 in
/-- Error codes at the bounds of each severity in the states that the statements name; notices that are taken, dropped and refused. -/
theorem witness_ErrorsAndNotices :
    (∃ s : State, s.recov.st ≠ .contained ∧ s.recov.queue.length < 16) ∧ (∃ s : State, s.recov.st ≠ .contained ∧ 16 ≤ s.recov.queue.length) ∧
    (∃ s : State, s.recov.st = .normal ∧ s.recov.lost = [] ∧ s.recov.covered = [] ∧ buddyLost s [s.links.devId] = false) ∧
    (∀ n ∈ [0, 1, 16, 17], ∃ s : State, ∃ src x, s.links.inbox[0]? = some (src, x) ∧ isNotice (hdrOf x.hdr) = true ∧ leAt x.payload 6 1 = n ∧
      src = some 0 ∧ (getLink s 0).nbrDev = (hdrOf x.hdr).srcDev) ∧
    (∃ s : State, ∃ src x, s.links.inbox[0]? = some (src, x) ∧ isNotice (hdrOf x.hdr) = true ∧ (getLink s 0).nbrDev ≠ (hdrOf x.hdr).srcDev) ∧
    (∃ s : State, ∃ x, s.links.inbox[0]? = some (some 0, x) ∧ (getLink s 0).nbrDev = (hdrOf x.hdr).srcDev ∧ s.recov.st = .contained) ∧
    (∃ s : State, ∃ x, s.links.inbox[0]? = some (some 0, x) ∧ (getLink s 0).nbrDev = (hdrOf x.hdr).srcDev ∧ s.recov.st ≠ .contained ∧
      leAt x.payload 0 4 ≤ s.recov.epoch ∧ leAt x.payload 6 1 = 1 ∧ leAt x.payload 7 2 ∈ s.recov.seen) ∧
    (∀ lost ∈ [[], [5]], ∃ s : State, ∃ x, s.links.inbox[0]? = some (some 0, x) ∧ x.left = 0 ∧ (getLink s 0).nbrDev = (hdrOf x.hdr).srcDev ∧
      s.recov.st ≠ .normal ∧ s.recov.st ≠ .contained ∧ s.recov.epoch < leAt x.payload 0 4 ∧ leAt x.payload 6 1 = 1 ∧ leAt x.payload 7 2 = 5 ∧
      s.recov.lost = lost) ∧
    ∃ s : State, ∃ x, s.links.inbox[0]? = some (some 0, x) ∧ (getLink s 0).nbrDev = (hdrOf x.hdr).srcDev ∧ s.recov.st = .normal ∧
      s.recov.epoch < leAt x.payload 0 4 := by
  refine ⟨⟨base, by decide +kernel⟩, ⟨withRecov fun r => { r with queue := List.replicate 16 (err 0x40) }, by decide +kernel⟩,
    ⟨base, by decide +kernel⟩, fun n hn => ⟨noticed 1 n 3, _, _, rfl, ?_⟩, ⟨noticed 1 1 4, _, _, rfl, by decide +kernel⟩,
    ⟨noticed 1 1 3 fun r => { r with st := .contained }, _, rfl, by decide +kernel⟩,
    ⟨noticed 1 1 3 fun r => { r with st := .rejoin, epoch := 1, seen := [5] }, _, rfl, by decide +kernel⟩,
    fun lost hl => ⟨noticed 1 1 3 fun r => { r with st := .rejoin, lost }, _, rfl, rfl, by revert lost; decide +kernel⟩, ⟨noticed 1 1 3, _, rfl, by decide +kernel⟩⟩
  revert n; decide +kernel

/-- A handler in a state, under an ID part with trees, with a released barrier 0. -/
def handling (st : HState) (f : Recovery → Recovery := id) (bars : SMap FBar := []) (g : Sluice → Sluice := id) : State :=
  { withLinks fun l => { l with idPart := idPart1 0xFFFF, bars, planLoaded := true, hasId := true } with
    recov := f { base.recov with st }, sluice := g base.sluice }

set_option maxRecDepth 20000 in
/-- Each transition of the handler from a state that takes it; watchdogs in and outside a recovery; the timebase lost and not. -/
theorem witness_Recovery :
    (∀ st ∈ [HState.normal, .repair, .rejoin], ∃ (s : State) (r : ErrRec), s.recov.queue = [r] ∧ s.recov.st = st) ∧
    (∃ s : State, s.recov.st = .quiesce) ∧
    (∃ s : State, s.recov.st = .repair ∧ s.recov.localFaults = [err 0x060] ∧ ∀ r ∈ s.recov.localFaults, repairFails s r = false) ∧
    (∀ code ∈ [0x062, 0x063, 0x066, 0x068], ∃ (s : State) (r : ErrRec), s.recov.st = .repair ∧ r ∈ s.recov.localFaults ∧ r.code = code ∧ repairFails s r = true) ∧
    (∃ (s : State) (r : ErrRec), r.code = 0x062 ∧ (getStack s r.inst).pendingRetire = some 31) ∧
    (∀ back ∈ [[], [5]], ∃ s : State, s.recov.st = .rejoin ∧ fabricReady s = true ∧ s.recov.queue = [] ∧
      decide (∀ i ∈ s.recov.lost, i = s.links.devId ∨ i ∈ back) = (back == [5])) ∧
    (∃ s : State, s.recov.st = .rejoin ∧ regOf s (oCfg + 0x10C) % 128 * 50000000 < s.ticks - s.recov.since) ∧
    (∀ held : Bool, ∃ s : State, s.recov.st = .agree ∧ (getFBar s (leAt s.links.idPart 12 1)).released = true ∧
      s.sluice.slot0Valid = held ∧ s.sluice.slot0Step = (getFBar s (leAt s.links.idPart 12 1)).relMin ∧ s.sluice.slot1Valid = false ∧
      s.links.drafted = false) ∧
    (∃ s : State, s.recov.st = .restore ∧ s.recov.restored = true ∧ (getFBar s (leAt s.links.idPart 13 1)).released = true) ∧
    (∃ s : State, s.recov.st = .restore ∧ s.recov.restored = false ∧ restorePending s = false ∧ s.recov.covered = [] ∧
      (getFBar s (leAt s.links.idPart 13 1)).any = false ∧ treeKids s (leAt s.links.idPart 13 1) ≠ [] ∧
      (getFBar s (leAt s.links.idPart 13 1)).kids = []) ∧
    (∃ s : State, (getCtx s 0).fabric = true ∧ (getCtx s 0).updSet = false ∧ ∀ b < 6, bitB (getCtx s 0).lease.basins b = false) ∧
    (∃ s : State, s.recov.st = .resume ∧ s.recov.covered = [0] ∧ (getCtx s 0).fabric = true) ∧
    (∃ s : State, s.recov.st ≠ .normal ∧ 0 < s.recov.wdogs) ∧ (∃ s : State, s.recov.tbLost = true ∧ 50000000 ≤ s.ticks - s.recov.tbAt) ∧
    (∃ s : State, s.recov.tbLost = true ∧ s.ticks - s.recov.tbAt < 50000000) ∧ (∀ v : Bool, ∃ s : State, s.boot.locked = v) ∧
    (base.recov.st = .normal ∧ base.recov.tbLost = false ∧ base.boot.locked = true) := by
  refine ⟨fun st hs => ⟨handling st fun r => { r with queue := [err 0x40] }, _, rfl, rfl⟩, ⟨handling .quiesce, rfl⟩,
    ⟨handling .repair fun r => { r with localFaults := [err 0x060] }, by decide +kernel⟩,
    fun code hc => ⟨handling .repair fun r => { r with localFaults := [err code] }, err code, rfl, List.mem_singleton.mpr rfl, rfl, ?_⟩,
    ⟨withStack { pendingRetire := some 31 }, err 0x062, by decide +kernel⟩,
    fun back hb => ⟨handling .rejoin fun r => { r with lost := [0, 5] }, by revert back; decide +kernel⟩,
    ⟨{ handling .rejoin with ticks := 7000000000 }, by decide +kernel⟩,
    fun held => ⟨handling .agree id [(0, { released := true })] fun x => { x with slot0Valid := held }, ?_⟩,
    ⟨handling .restore (fun r => { r with restored := true }) [(1, { released := true })], by decide +kernel⟩,
    ⟨handling .restore, by decide +kernel⟩,
    ⟨withCtx fun x => { x with fabric := true, lease := {} }, by decide +kernel⟩,
    ⟨{ handling .resume fun r => { r with covered := [0] } with host := { base.host with ctxs := [(0, { ctx0 with fabric := true })] } },
      by decide +kernel⟩,
    ⟨handling .quiesce fun r => { r with wdogs := 1 }, by decide +kernel⟩, ⟨{ withRecov fun r => { r with tbLost := true } with ticks := 50000000 }, by decide +kernel⟩,
    ⟨{ withRecov fun r => { r with tbLost := true } with ticks := 49999999 }, by decide +kernel⟩,
    fun v => ⟨{ base with boot := { base.boot with locked := v } }, rfl⟩, by decide +kernel⟩
  · revert code; decide +kernel
  · cases held <;> decide +kernel

/-! The bellows. -/

def withPower (f : Power → Power) : State := { base with power := f base.power }

/-- An estimate whose value exceeds its fixed part. -/
def est0 (q fixed : Nat) : Estimate := { q, fixed }

set_option maxRecDepth 20000 in
/-- A controller above its limit, between release and limit, below the release line at its due time, and guarded; droops held, begun and over;
each condition of the operating point. -/
theorem witness_Bellows :
    (∃ s : State, guarded s 0 = false ∧ (getCtl s 0).demand = 56 ∧
      ctlLimit s 0 * ctlWindow s 0 < ((getCtl s 0).window.take (ctlWindow s 0 - 1)).sum + (est0 1600000000 0).q) ∧
    (∃ s : State, guarded s 0 = false ∧ (getCtl s 0).demand = 1 ∧ max (ctlWindow s 0) 10 ≤ (getCtl s 0).sinceRelease + 1 ∧
      100 * (((getCtl s 0).window.take (ctlWindow s 0 - 1)).sum + (est0 1 0).q) ≤ 95 * (ctlLimit s 0 * ctlWindow s 0)) ∧
    (∃ s : State, guarded s 0 = false ∧ ((getCtl s 0).window.take (ctlWindow s 0 - 1)).sum + (est0 1 0).q ≤ ctlLimit s 0 * ctlWindow s 0 ∧
      (getCtl s 0).demand = 0) ∧
    (∃ s : State, guarded s 0 = true ∧ guardOp0 s = false ∧ 85 * ctlLimit s 0 < 100 * max (est0 1600000000 0).q (measured s 0)) ∧
    (∃ s : State, guardOp0 s = true) ∧
    (∀ d h : Bool, ∃ s : State, s.boot.inReset = false ∧ (getZone s 13).inDroop = d ∧ (getZone s 13).held = h) ∧
    (∃ s : State, s.boot.inReset = false ∧ 5 ≤ SMap.get 0 s.power.trips 6) ∧
    (∃ s : State, s.boot.inReset = false ∧ (∀ b < 6, (getBasin s b).passes = []) ∧ 500000000 ≤ s.ticks - s.power.calAt) ∧
    (∃ s : State, 10000 ≤ s.power.capHigh ∧ 100000 ≤ s.power.capLow) ∧
    (∃ s : State, guardOp0 s = false ∧ targetOp s < s.power.op ∧ s.power.ramping = false) ∧
    (∃ s : State, s.power.op < targetOp s ∧ s.power.ramping = false ∧ 20 ≤ s.power.opAge) ∧
    (∃ s : State, s.power.op < targetOp s ∧ s.power.opAge = 19) ∧
    (∃ s : State, s.power.ramping = true ∧ frozenCmd s = false) ∧ (∃ s : State, frozenCmd s = true) := by
  refine ⟨⟨withPower fun p => { p with ctl := [(0, { demand := 56 })] }, by decide +kernel⟩,
    ⟨withPower fun p => { p with ctl := [(0, { demand := 1, sinceRelease := 1000 })] }, by decide +kernel⟩, ⟨base, by decide +kernel⟩,
    ⟨withPower fun p => { p with stale := [(0, true)] }, by decide +kernel⟩, ⟨withRecov fun r => { r with tbLost := true }, by decide +kernel⟩,
    fun d h => ⟨withPower fun p => { p with regions := [(13, { inDroop := d, held := h })] }, rfl, rfl, rfl⟩,
    ⟨withPower fun p => { p with trips := [(6, 5)] }, by decide +kernel⟩, ⟨{ base with ticks := 500000000 }, by decide +kernel⟩,
    ⟨withPower fun p => { p with capHigh := 10000, capLow := 100000 }, by decide +kernel⟩,
    ⟨withPower fun p => { p with op := 7 }, by decide +kernel⟩, ⟨withPower fun p => { p with opAge := 20 }, by decide +kernel⟩,
    ⟨withPower fun p => { p with opAge := 19 }, by decide +kernel⟩, ⟨withPower fun p => { p with ramping := true }, by decide +kernel⟩,
    ⟨withPower fun p => { p with regions := [(0, { held := true })] }, by decide +kernel⟩⟩

/-- A BRAKE# in each state. -/
def braking (f : Power → Power) : State := { withPower f with boot := { base.boot with pins := 4 } }

set_option maxRecDepth 20000 in
/-- A ceiling; ports with and without the platform view; temperatures in every band, groups at their maximum, all cool; BRAKE# low, asserted,
high within an assertion, and held; units with and without a context. -/
theorem witness_CapsTemperaturesAndBrake :
    (ceiling base < 2 ^ 11 ∧ platformView base 0 = true ∧ platformView base 1 = false) ∧
    (∀ dt ∈ [-2, -1, 0, 1, 8, 9], ∃ (s : State) (j : Int), max (j - (tjTarget s : Int)) (((getStack s 0).temp : Int) - (hbmTarget s : Int)) = dt) ∧
    (∃ s : State, s.boot.inReset = false ∧ 10 ≤ (getGroup s 7).atMax) ∧
    (∃ s : State, s.boot.inReset = false ∧ (∀ g < 8, (getGroup s g).atMax < 10) ∧ 100 ≤ s.power.coolFor) ∧
    (∃ s : State, s.boot.inReset = false ∧ s.boot.locked = true ∧ bitB s.boot.pins 2 = true ∧ s.power.brakeOn = false ∧ s.power.brakeLow = true ∧
      10 ≤ s.ticks - s.power.brakeEdge) ∧
    (∃ s : State, s.boot.inReset = false ∧ s.boot.locked = true ∧ bitB s.boot.pins 2 = true ∧ s.power.brakeOn = true ∧ s.power.brakeHigh = true ∧
      s.power.brakeLow = false ∧ s.power.brakeDemand = 56 ∧ regOf s (oPwr + 0x44) % 4096 * 50000000 ≤ s.ticks - s.power.brakeSince ∧
      2500 ≤ s.ticks - s.power.brakeEdge) ∧
    (∃ s : State, s.boot.inReset = false ∧ s.boot.locked = true ∧ bitB s.boot.pins 2 = true ∧ s.power.brakeOn = true ∧ s.power.brakeHigh = true ∧
      s.ticks - s.power.brakeEdge < 2500) ∧
    (∃ s : State, s.boot.inReset = false ∧ (getZone s 13).inDroop = false ∧ 100 ≤ s.ticks - (getZone s 13).since) ∧
    ((getBasin base 0).lease = some 0 ∧ (getBasin base 1).lease = none ∧ (getTerrace base 0).lease = some 0 ∧ (getTerrace base 1).lease = none) := by
  refine ⟨by decide +kernel, fun dt hd => ⟨base, dt + (tjTarget base : Int), ?_⟩,
    ⟨withPower fun p => { p with groups := [(7, { atMax := 10 })] }, by decide +kernel⟩,
    ⟨withPower fun p => { p with coolFor := 100 }, by decide +kernel⟩,
    ⟨{ braking fun p => { p with brakeLow := true } with ticks := 10 }, by decide +kernel⟩,
    ⟨{ braking fun p => { p with brakeOn := true, brakeHigh := true, brakeDemand := 56 } with ticks := 50000000000 }, by decide +kernel⟩,
    ⟨braking fun p => { p with brakeOn := true, brakeHigh := true, brakeDemand := 56 }, by decide +kernel⟩,
    ⟨{ base with ticks := 100 }, by decide +kernel⟩,
    by decide +kernel⟩
  revert dt; decide +kernel

/-! Power, reset, boot and updates. -/

/-- Bytes at successive keys. -/
def placed (a : Nat) : List Byte → SMap Byte
  | [] => []
  | b :: bs => (a, b) :: placed (a + 1) bs

theorem get_placed (a i : Nat) (h : List Byte) (hi : i < h.length) : SMap.get 0xFF (placed a h) (a + i) = h[i] := by
  induction h generalizing a i with
  | nil => simp at hi
  | cons b bs ih =>
    cases i with
    | zero => simp [placed, SMap.get]
    | succ n =>
      have hn : n < bs.length := by simpa using hi
      have := ih (a + 1) n hn
      rw [show a + (n + 1) = a + 1 + n by omega]
      simp only [placed, SMap.get, List.getElem_cons_succ]
      rw [if_neg (by omega), this]

/-- A 512 Mbit NOR holding a header at the first byte of slot A. -/
def norWith (h : List Byte) : State := { base with boot := { base.boot with norMbit := 512, nor := placed (2 ^ 20) h } }

theorem readNor_placed (s : State) (a : Nat) (h : List Byte) (hn : s.boot.nor = placed a h) : readNor s a h.length = h := by
  apply List.ext_getElem
  · simp only [readNor, List.length_map, List.length_range]
  · intro i h1 h2
    simp only [readNor, List.getElem_map, List.getElem_range, norByte, hn]
    exact get_placed a i h h2

theorem header_norWith (h : List Byte) (hl : h.length = 4096) : imgBytes (norWith h) 0 0 4096 = h := by
  have hs : norSlot (norWith h) 0 + 0 = 2 ^ 20 := by unfold norSlot; omega
  rw [imgBytes, hs, ← hl]
  exact readNor_placed _ _ h rfl

/-- An entry of a header: KIND, INDEX, OFFSET and LENGTH, with a digest of zeros. -/
def entry (kind off : Nat) : List Byte := toLe 1 kind ++ List.replicate 3 0 ++ toLe 4 off ++ toLe 4 16 ++ List.replicate 116 0

/-- A header by R509: FIRMWARE, BASE, one OVERLAY and CERTS, and MARKER committed. -/
def header0 : List Byte :=
  toLe 4 0x4E4C4146 ++ toLe 2 1 ++ toLe 2 4 ++ toLe 4 7 ++ [1, 1, 0, 0] ++ entry 1 0x1000 ++ entry 2 0x2000 ++ entry 3 0x3000 ++ entry 5 0x4000
    ++ List.replicate 3560 0 ++ List.replicate 8 0x5A

/-- The device in reset, with a NOR in which the slots named by `marks` have MARKER and nothing else. -/
def unbooted (marks : List Nat) (seqB : List Byte := []) (f : Boot → Boot := id) : State :=
  let m := if 0 ∈ marks then placed (2 ^ 20 + 4088) (List.replicate 8 0x5A) else []
  let n := if 1 ∈ marks then placed (2 ^ 25 + 8) seqB ++ placed (2 ^ 25 + 4088) (List.replicate 8 0x5A) else []
  { State.reset with boot := f { State.reset.boot with norMbit := 512, nor := m ++ n, inputOk := true } }

/-- The ledger with two valid images and a flush. -/
def flushing (a b : Nat) : State :=
  { base with ledger := { base.ledger with flushing := true, image0 := { valid := true, seq := a }, image1 := { valid := true, seq := b } } }

set_option maxRecDepth 20000 in
/-- A flush with either image the older; no overvoltage; a device held in reset. -/
theorem witness_PowerAndReset :
    (∃ s : State, s.boot.inputOk = true ∧ s.boot.overVolt = false ∧ s.ledger.flushing = false) ∧
    (∃ s : State, s.ledger.flushing = true ∧ s.boot.inputOk = true ∧ s.ledger.image0.valid = true ∧ s.ledger.image1.valid = true ∧
      s.ledger.image0.seq ≤ s.ledger.image1.seq) ∧
    (∃ s : State, s.ledger.flushing = true ∧ s.boot.inputOk = true ∧ s.ledger.image0.valid = true ∧ s.ledger.image1.valid = true ∧
      s.ledger.image1.seq < s.ledger.image0.seq) ∧
    ∃ s : State, s.boot.inputOk = false :=
  ⟨⟨base, by decide +kernel⟩, ⟨flushing 3 3, by decide +kernel⟩, ⟨flushing 4 3, by decide +kernel⟩,
    ⟨{ base with boot := { base.boot with inputOk := false } }, rfl⟩⟩

set_option maxRecDepth 20000 in
/-- Boot without a NOR, with no slot committed, with slot A or B preferred; a slot that fails its checks (whether one passes rests on the
open signature functions). -/
theorem witness_Boot :
    (∃ s : State, s.boot.inReset = true ∧ s.boot.inputOk = true ∧ s.ledger.flushing = false ∧ norPresent s = false) ∧
    (∃ s : State, s.boot.inReset = true ∧ s.boot.inputOk = true ∧ s.ledger.flushing = false ∧ norPresent s = true ∧
      committed s 0 = false ∧ committed s 1 = false) ∧
    (committed (unbooted [0]) 0 = true ∧ committed (unbooted [0]) 1 = false) ∧
    (committed (unbooted [1]) 0 = false ∧ committed (unbooted [1]) 1 = true) ∧
    (committed (unbooted [0, 1]) 0 = true ∧ committed (unbooted [0, 1]) 1 = true ∧ slotSeq (unbooted [0, 1]) 1 ≤ slotSeq (unbooted [0, 1]) 0) ∧
    (committed (unbooted [0, 1] [0xFE]) 1 = true ∧ slotSeq (unbooted [0, 1] [0xFE, 0xFF, 0xFF, 0xFF]) 1 < slotSeq (unbooted [0, 1] [0xFE]) 0) ∧
    ((unbooted []).boot.inReset = true ∧ (unbooted []).boot.inputOk = true ∧ (unbooted []).ledger.flushing = false ∧ norPresent (unbooted []) = true) := by
  refine ⟨⟨unbooted [] [] fun b => { b with norMbit := 0 }, by decide +kernel⟩, ⟨unbooted [], by decide +kernel⟩, by decide +kernel,
    by decide +kernel, by decide +kernel, by decide +kernel, by decide +kernel⟩

set_option maxRecDepth 20000 in
theorem test_marker_alone_is_no_header : headerGood (unbooted [0]) (imgBytes (unbooted [0]) 0 0 4096) = false := by decide +kernel

set_option maxRecDepth 20000 in
/-- A slot without MARKER, one with a bad header, and a header by R509. -/
theorem witness_ImageChecks :
    committed (unbooted []) 0 = false ∧ committed (unbooted [0]) 0 = true ∧
    headerGood (unbooted [0]) (imgBytes (unbooted [0]) 0 0 4096) = false ∧
    committed (norWith header0) 0 = true ∧ headerGood (norWith header0) (imgBytes (norWith header0) 0 0 4096) = true ∧
    (findSect (sectsOf (imgBytes (norWith header0) 0 0 4096)) 5 0).isSome = true := by
  rw [header_norWith _ (by decide +kernel)]
  decide +kernel

/-- After APPLY of a configuration. -/
def applied (a : Applied) : State := { base with boot := { base.boot with st := .apply, locked := false, applied := a } }

set_option maxRecDepth 20000 in
/-- A configuration with a split into four ports, with and without a plan; straps that change after the lock. -/
theorem witness_ConfigurationLock :
    (∃ s : State, s.boot.st = .apply ∧ s.recov.tbLost = false ∧ s.boot.applied.plan = [] ∧ splitPorts (leAt s.boot.applied.hostSplit 0 1) = 4) ∧
    (∃ s : State, s.boot.st = .apply ∧ s.recov.tbLost = false ∧ s.boot.applied.plan ≠ []) ∧ base.boot.st ≠ .apply ∧
    15 % 16 ≠ base.boot.ovlSel ∧ base.boot.locked = true :=
  ⟨⟨applied { hostSplit := [2] }, by decide +kernel⟩, ⟨applied { plan := [1] }, by decide +kernel⟩, by decide +kernel, by decide +kernel⟩

/-- An update of slot B opened by a path, on a device booted from slot A. -/
def updating (path : Bool) (f : Boot → Boot := id) : State :=
  { base with boot := f { base.boot with upd := .opened, updSlot := 1, updPath := path, norMbit := 512 } }

set_option maxRecDepth 20000 in
/-- Updates that may begin, one that is open, a slot that has booted; blocks at both ends of a slot; FINISH that fails in the header; a path that
did not open the update; SVN_COMMIT in LOCKED and before (FINISH that passes, and its failures behind the header, rest on the open
signature functions). -/
theorem witness_SignedUpdates :
    (updOpen base = false ∧ norPresent base = true ∧ (base.boot.st = .failed ∨ 1 ≠ base.boot.slot) ∧ base.boot.inReset = false) ∧
    (updOpen (updating true) = true ∧ norPresent { base with boot := { base.boot with norMbit := 1 } } = false ∧
      base.boot.st ≠ .failed ∧ 0 = base.boot.slot) ∧
    (∀ p : Bool, (updating p).boot.inReset = false ∧ (updating p).boot.upd = .opened ∧ (updating p).boot.updPath = p) ∧
    ((List.replicate 4096 (0 : Byte)).length = 4096 ∧ 0 < slotLen (updating true) / 4096 ∧ 7935 < slotLen (updating true) / 4096 ∧
      slotLen (updating true) / 4096 ≤ 7936) ∧
    (finishOk (updating true) = false ∧ checkHeader (updating true) (updating true).boot.updSlot ≠ 0) ∧
    ((updating true).boot.updPath ≠ false ∧ base.boot.upd ≠ .opened) ∧
    (base.boot.st = .locked ∧ (updOpen base = false ∨ base.boot.updPath = true) ∧ (applied {}).boot.st ≠ .locked) := by
  refine ⟨by decide +kernel, by decide +kernel, fun p => ⟨rfl, rfl, rfl⟩, by decide +kernel, by decide +kernel, by decide +kernel,
    by decide +kernel⟩

set_option maxRecDepth 20000 in
theorem test_svn_commit_blows_the_firmware_fuses_first :
    after (exec (.svnCommit true 3) { base with boot := { base.boot with applied := { fwSvn := 2, cfgSvn := 5 } } })
      (fun t => t.boot.fwFused == 2 && t.boot.cfgFused == 1) = true := by decide +kernel

/-- A request of an SPDM message: version, code and no more. -/
def spdm (v c : Nat) : List Byte := toLe 1 v ++ toLe 1 c

set_option maxRecDepth 20000 in
/-- Requests of every code in LOCKED after a version is negotiated, in FAILED and in APPLY; the alias key valid and not. -/
theorem witness_SpdmResponses :
    (∀ c ∈ [0x84, 0xE1, 0xE3, 0x81, 0x82, 0x83, 0xE0, 0x86, 0x00, 0x80, 0x85, 0xFF], ∃ (s : State) (req : List Byte), s.boot.inReset = false ∧
      s.boot.st = .locked ∧ leAt req 1 1 = c ∧ leAt req 0 1 = 0x12 ∧ s.boot.spdmVersion = leAt req 0 1) ∧
    (∃ s : State, s.boot.inReset = false ∧ s.boot.st = .failed ∧ s.boot.aliasValid = false) ∧
    (∃ (s : State) (req : List Byte), s.boot.inReset = false ∧ s.boot.st = .apply ∧ leAt req 1 1 = 0x84) := by
  refine ⟨fun c hc => ⟨{ base with boot := { base.boot with spdmVersion := 0x12 } }, spdm 0x12 c, ?_⟩,
    ⟨{ base with boot := { base.boot with st := .failed, aliasValid := false } }, by decide +kernel⟩, ⟨applied {}, spdm 0x10 0x84, by decide +kernel⟩⟩
  revert c; decide +kernel

/-- The ledger of the tests with its images and shadow. -/
def ledger0 (f : Ledger → Ledger) : State := { base with ledger := f { base.ledger with ready := true, begun := true } }

def slot1 (n : Nat) : LSlot := { count := n, used := true, first := 1, last := 1 }

set_option maxRecDepth 20000 in
/-- A flush that begins and one that is under way; power-on with slots that fail in one image, in both and in none. -/
theorem witness_LedgerDie :
    (∃ s : State, s.ledger.begun = true ∧ s.boot.inputOk = true) ∧ (∃ s : State, s.ledger.flushing = true ∧ s.boot.inputOk = true) ∧
    (∃ s : State, s.ledger.ready = false ∧ s.ledger.image0.valid = true ∧ s.ledger.image1.valid = false) ∧
    ∃ (s : State) (slots0 slots1 : List Nat) (m n k : Nat), s.ledger.ready = false ∧ n ∈ slots0 ∧ n ∈ slots1 ∧ m ∈ slots0 ∧ m ∉ slots1 ∧
      k ∉ slots0 ∧ k ∉ slots1 :=
  ⟨⟨ledger0 id, by decide +kernel⟩, ⟨flushing 1 2, by decide +kernel⟩, ⟨base, by decide +kernel⟩,
    ⟨base, [1, 2], [2], 1, 2, 3, by decide +kernel⟩⟩

set_option maxRecDepth 20000 in
theorem test_flush_writes_the_older_image :
    after (exec (.ledgerFlush .written) (ledger0 fun l => { l with
        slots := [(0x40, slot1 5)], image0 := { valid := true, seq := 4 }, image1 := { valid := true, seq := 3 } }))
      (fun t => t.ledger.image1.seq == 5 && (SMap.get {} t.ledger.image1.slots 0x40).count == 5 && t.ledger.image0.seq == 4) = true := by
  decide +kernel

set_option maxRecDepth 20000 in
/-- READ_SLOTS at the bounds of its counts, requests of other operations, and ports with and without the platform view. -/
theorem witness_LedgerReadout :
    base.boot.inReset = false ∧ (1 ≤ 1 ∧ 1 ≤ 8 ∧ 4095 + 1 ≤ 4096) ∧ (1 ≤ 8 ∧ 8 ≤ 8 ∧ 4088 + 8 ≤ 4096) ∧ 8 < 9 ∧ 4096 < 4089 + 8 ∧
    (0x100 % 256 ≠ 1 ∧ 0x103 % 256 ≠ 2) ∧ platformView base 0 = true ∧ platformView base 1 = false := by decide +kernel

/-! Registers, doorbells and the aperture. -/

/-- The state of the tests before the lock. -/
def unlocked : State := { base with boot := { base.boot with locked := false } }

set_option maxRecDepth 20000 in
/-- Registers of each access code, before and after the lock; accesses of a wrong size and place; a port without the platform view. -/
theorem witness_RegisterWrites :
    PlainRegister (oCfg + 0x10C) ∧ PlainRegister (oWeir + 4) ∧ PlainRegister (oSlc + 4) ∧ PlainRegister (oHif 3 + 0x3FC) ∧
    (∃ f ∈ fieldsAt (oCfg + 0x10C), f.acc = .lk ∧ f.admits 0 = false ∧ f.admits 120 = true) ∧
    (∃ f ∈ fieldsAt (oWeir + 4), f.acc = .rw ∧ f.admits 0x3FF = true) ∧ (∃ f ∈ fieldsAt (oSlc + 4), f.acc = .w1c) ∧
    (∀ x ∈ [oCfg + 0x10C, oWeir + 4, oSlc + 4, oHif 3 + 0x3FC], responds base 0 x = true ∧ responds unlocked 0 x = true ∧
      responds base 1 x = false) ∧
    base.boot.inReset = false ∧ base.boot.locked = true ∧ unlocked.boot.locked = false ∧ unlocked.boot.inReset = false ∧
    wellSized 2 4 = false ∧ wellSized 4 8 = false ∧ wellSized 0 2 = false := by
  refine ⟨?_, ?_, ?_, ?_, ?_⟩
  iterate 4 (unfold PlainRegister; decide +kernel)
  decide +kernel

set_option maxRecDepth 20000 in
/-- Counters of each block at their bounds; every command of SEC_UPDATE_CTRL; the last context page. -/
theorem witness_Counters :
    (∀ x ∈ [oCfg + 0x118, oPwr + 0x168, oLdg + 0x30, oJet + 0x58, oBsn 5 + 0x60, oSpt 0 + 0x40, oSlc + 0x10, oNl + 0x830, oNl + 8],
      x < bar2 ∧ x % 8 = 0 ∧ ((blockAt x).map fun e => pairLow e.1 e.2 && decide (pairValue base e.1 e.2 x < 2 ^ 64)) = some true) ∧
    platformView base 0 = true ∧ base.boot.inReset = false ∧
    (∀ v ∈ [0, 1, 2, 3, 4, 5, 6, 7], v < 2 ^ 32 ∧ bits v 2 0 = v) ∧ bitB 1 0 = true := by decide +kernel

set_option maxRecDepth 20000 in
theorem test_read_latches_the_high_word :
    after (exec (.counterLowRead 0 (oLdg + 0x30) 4) { base with ledger := { base.ledger with flushes := 0x700000005 } })
      (fun t => t.out == [.readData 0 (oLdg + 0x30) [5, 0, 0, 0]] && SMap.get none t.host.latches (latchKey 0 (oLdg + 0x30)) == some 7) = true := by
  decide +kernel

set_option maxRecDepth 20000 in
theorem test_locked_field_keeps_its_value :
    after (exec (.registerWrite 0 (oCfg + 0x10C) 4 0x000A0001) base) (fun t => regOf t (oCfg + 0x10C) == regOf base (oCfg + 0x10C)) = true ∧
    after (exec (.registerWrite 0 (oCfg + 0x10C) 4 0x000A0001) unlocked) (fun t => regOf t (oCfg + 0x10C) == 0x000A0001) = true := by
  decide +kernel

/-- Context 0 of the tests with a message from jet 0 to the chanter of port 0 in flight. -/
def rung (data : List Byte) : State :=
  { base with jets := { base.jets with msgs := [{ src := 0, srcIdx := 4, dst := 0x5000, ch := 0, tag := 0, thread := 0, data := slice data 0 64 }] } }

/-- Context 0 with its tail ahead of its head. -/
def ahead (n : Nat) (f : Ctx → Ctx := id) : State :=
  { base with host := { base.host with ctxs := [(0, f { ctx0 with tail := BitVec.ofNat 32 n })] } }

set_option maxRecDepth 20000 in
/-- Tails at the bounds of the ring; a doorbell message of the context's own jet, and one of another context; commands that are well formed, too
long for the ring and outside every window. -/
theorem witness_Doorbells :
    (ownCtx base 0 0 = true ∧ (getCtx base 0).st ≠ .free ∧ (getCtx base 0).st ≠ .halted) ∧
    (∀ v ∈ [0, 16], (BitVec.ofNat 32 v - (getCtx base 0).head).toNat ≤ 2 ^ (getCtx base 0).ringLog2) ∧
    2 ^ (getCtx base 0).ringLog2 < (BitVec.ofNat 32 17 - (getCtx base 0).head).toNat ∧
    (BitVec.ofNat 32 1 - (getCtx (ahead 2) 0).head).toNat < ((getCtx (ahead 2) 0).tail - (getCtx (ahead 2) 0).head).toNat ∧
    (∃ s : State, ∃ m, s.jets.msgs[0]? = some m ∧ m.dst / 4096 = 5 ∧ m.dst % 4096 < 4 ∧ inTurn s 0 m = true ∧ ctxOfJet s m.src = some 0 ∧
      leAt m.data 0 2 = 0 ∧ leAt m.data 2 2 = 0 ∧ leAt m.data 8 56 = 0) ∧
    (∃ s : State, ∃ m, s.jets.msgs[0]? = some m ∧ m.dst / 4096 = 5 ∧ m.dst % 4096 < 4 ∧ inTurn s 0 m = true ∧ ctxOfJet s m.src ≠ some (leAt m.data 0 2)) := by
  refine ⟨by decide +kernel, by decide +kernel, by decide +kernel, by decide +kernel, ⟨rung [0, 0, 0, 0, 3], _, rfl, by decide +kernel⟩,
    ⟨rung [1, 0, 0, 0, 3], _, rfl, by decide +kernel⟩⟩

/-- A command ring in device memory, at this address. -/
def deviceRing (a : Nat) (cells : SMap Byte := []) : State :=
  let s := ahead 2 fun x => { x with ringHost := false, ringBase := a }
  { s with mem := { s.mem with cells := s.mem.cells ++ cells } }

/-- The command that the ring's next slot begins: its slots, and whether all of it can be read. -/
def ringCmd (s : State) : Option (Nat × Bool) :=
  (ctxRead s 0 (fetchAddr (getCtx s 0)) 8).map fun r =>
    let n := bits (leNat r.1) 13 8 + 1
    (n, (ctxRead r.2 0 (fetchAddr (getCtx s 0)) (128 * n)).isSome)

set_option maxRecDepth 20000 in
/-- Commands of a ring in device memory: one that can be read, one whose rest cannot, and a ring in no page of the context. -/
theorem witness_DeviceRing :
    (mayFetch (deviceRing pc0) 0 = true ∧ (getCtx (deviceRing pc0) 0).ringHost = false ∧ ringCmd (deviceRing pc0) = some (1, true)) ∧
    (let s := deviceRing (pc0 + 0x4000000 - 128) [(pc0 + 0x4000000 - 127, 0x3F)]
     mayFetch s 0 = true ∧ (getCtx s 0).ringHost = false ∧ ringCmd s = some (64, false)) ∧
    (mayFetch (deviceRing 0x400000) 0 = true ∧ (getCtx (deviceRing 0x400000) 0).ringHost = false ∧ ringCmd (deviceRing 0x400000) = none) := by
  decide +kernel

set_option maxRecDepth 20000 in
theorem witness_Fetching :
    (mayFetch (ahead 2) 0 = true ∧ (getCtx (ahead 2) 0).ringHost = true) ∧
    (fetchIdx (getCtx (ahead 2) 0) + 1 ≤ 2 ^ (getCtx (ahead 2) 0).ringLog2 ∧ inWindow (ahead 2) 0 (fetchAddr (getCtx (ahead 2) 0)) 128 = true ∧
      1 ≤ ((getCtx (ahead 2) 0).tail - (getCtx (ahead 2) 0).head).toNat) ∧
    ((((ahead 1 fun x => { x with head := 1 }).host.ctxs.map fun e => (e.2.tail - e.2.head).toNat) = [0]) ∧ 0 < 1) ∧
    cmdWellFormed (List.replicate 128 0) = true ∧ cmdWellFormed (slice [0x14] 0 128) = false ∧
    bits (leAt (slice [0, 0x3F] 0 128) 0 8) 13 8 + 1 = 64 ∧
    2 ^ (getCtx (ahead 2) 0).ringLog2 < fetchIdx (getCtx (ahead 2) 0) + 64 ∧
    (let s := ahead 2 fun x => { x with windows := [] }
     mayFetch s 0 = true ∧ (getCtx s 0).ringHost = true ∧ inWindow s 0 (fetchAddr (getCtx s 0)) 128 = false) := by decide +kernel

/-- The state of the tests with window 0 of port 0. -/
def windowed (lo hi : Nat) (f : State → State := id) : State := f (setReg (setReg base (oHif 0 + 0x200) lo) (oHif 0 + 0x204) hi)

set_option maxRecDepth 20000 in
/-- Windows that are disabled, read only, physical within and past the port's frames, of a context, of the diagnostic space; containment. -/
theorem witness_Aperture :
    (base.boot.inReset = false ∧ (getPort base 0).created = true) ∧
    (aperture (windowed 3 0) 0 0x200000 8 true = some (.phys 0x200000) ∧ aperture (windowed 3 0) 0 0x7FFFFF8 8 false = some (.phys 0x7FFFFF8)) ∧
    aperture (windowed 3 0) 0 0x7FFFFF9 8 false = none ∧ aperture (windowed 7 0) 0 0 8 true = none ∧ aperture (windowed 2 0) 0 0 8 true = none ∧
    (∃ t, aperture (windowed 1 0) 0 0 4 true = some (.ctx 0 0) ∧ ctxWrite (windowed 1 0) 0 0 [1, 2, 3, 4] = some t) ∧
    (∃ d t, aperture (windowed 1 0) 0 0 4 false = some (.ctx 0 0) ∧ ctxRead (windowed 1 0) 0 0 4 = some (d, t)) ∧
    (aperture (windowed 1 0) 0 0x200000 4 true = some (.ctx 0 0x200000) ∧ ctxWrite (windowed 1 0) 0 0x200000 [1, 2, 3, 4] = none ∧
      aperture (windowed 1 0) 0 0x200000 4 false = some (.ctx 0 0x200000) ∧ ctxRead (windowed 1 0) 0 0x200000 4 = none) ∧
    (aperture (windowed 1 0xC000) 0 0 4 false = some (.diag diagBase) ∧ ∀ i < 4, (diagByte (windowed 1 0xC000) (diagBase + i)).isSome = true) ∧
    (windowed 1 0 fun s => { s with recov := { s.recov with st := .contained } }).recov.st = .contained ∧
    (63 < 64 ∧ 2 ^ 30 - 1 + 1 ≤ 2 ^ 30) := by
  refine ⟨by decide +kernel, by decide +kernel, by decide +kernel, by decide +kernel, by decide +kernel, ?_, ?_, by decide +kernel, by decide +kernel,
    by decide +kernel, by decide +kernel⟩
  · have h : (ctxWrite (windowed 1 0) 0 0 [1, 2, 3, 4]).isSome = true := by decide +kernel
    obtain ⟨t, ht⟩ := Option.isSome_iff_exists.mp h
    exact ⟨t, by decide +kernel, ht⟩
  · have h : (ctxRead (windowed 1 0) 0 0 4).isSome = true := by decide +kernel
    obtain ⟨⟨d, t⟩, ht⟩ := Option.isSome_iff_exists.mp h
    exact ⟨d, t, by decide +kernel, ht⟩

/-! The admin interface and scheduling. -/

/-- Port 0 of the tests has an operation in its command registers; context 1 is HALTED. -/
def asking (m : List Byte) (f : Ctx → Ctx := id) : State :=
  (List.range 16).foldl (fun s n => setReg s (oHif 0 + 0x100 + 4 * n) (leAt (slice m 0 64) (4 * n) 4))
    { base with host := { base.host with ctxs := [(0, f ctx0), (1, { ctx0 with st := .halted, job := 8, lease := {} })] } }

theorem asks_mk {s : State} {p op c : Nat} {m : List Byte} (h : p < 4 ∧ (getPort s p).created = true ∧ (getPort s p).busy = false ∧
    adminBytes s p = m ∧ leAt m 0 1 = op ∧ leAt m 1 1 = 0 ∧ leAt m 2 2 = c ∧ portOf s c = some p ∧ heldByRecovery s c = false ∧
    ∀ d ∈ waitingDestroy s p, copyReads s d = true) : Asks s p op c m := by
  obtain ⟨h1, h2, h3, h4, h5, h6, h7, h8, h9, h10⟩ := h
  exact ⟨h1, h2, h3, h4, h5, h6, h7, h8, h9, h10⟩

/-- An operation of a port: OP, CONTEXT and what follows. -/
def opBytes (op c : Nat) (rest : List Byte := []) : List Byte := slice (toLe 2 op ++ toLe 2 c ++ rest) 0 64

set_option maxRecDepth 20000 in
/-- Every operation on a free port and on a busy one: a reserved byte that is not zero, another port's context, a FREE context, a context of a
recovery, a context that exists already, a port without the platform view. -/
theorem witness_AdminOperationsThatFail :
    (∀ op ∈ [1, 2, 3, 4, 5, 6, 7, 8, 9, 10], ∀ c ∈ [0, 2, 8], ∀ r ∈ [0, 256], ∃ s : State, (getPort s 0).created = true ∧
      leAt (adminBytes s 0) 0 1 = op ∧ leAt (adminBytes s 0) 1 1 = r / 256 ∧ leAt (adminBytes s 0) 2 2 = c ∧ (getPort s 0).busy = false ∧
      (∀ d ∈ waitingDestroy s 0, copyReads s d = true) ∧ ∀ d ∈ waitingInvalidate s 0, accessesOver s d = false) ∧
    (let s := updPort (asking (opBytes 1 0)) 0 fun q => { q with busy := true }
     (getPort s 0).busy = true ∧ (∀ d ∈ waitingDestroy s 0, copyReads s d = true) ∧
     ∀ d ∈ waitingInvalidate s 0, accessesOver s d = false) ∧
    (portOf base 8 ≠ some 0 ∧ portOf base 2 = some 0 ∧ (getCtx base 2).st = .free ∧ portOf base 0 = some 0 ∧ (getCtx base 0).st ≠ .free) ∧
    (∃ s : State, portOf s 0 = some 0 ∧ (getCtx s 0).st ≠ .free ∧ heldByRecovery s 0 = true) ∧
    (∃ s : State, ∃ p, (getPort s p).created = true ∧ platformView s p = false) ∧
    (∃ s : State, (adminRun s 0 (adminBytes s 0)).1 ≠ 0 ∧ (adminRun s 0 (adminBytes s 0)).1 ≠ 8) := by
  refine ⟨fun op ho c hc r hr => ⟨asking (opBytes (op + r) c), ?_⟩, by decide +kernel, by decide +kernel,
    ⟨{ base with recov := { base.recov with st := .repair, covered := [0] } }, by decide +kernel⟩,
    ⟨updPort base 1 fun q => { q with created := true }, 1, by decide +kernel⟩, ⟨asking (opBytes 1 0), by decide +kernel⟩⟩
  revert r; revert c; revert op; decide +kernel

/-- A CTX_CREATE of context 2 whose page table is in frame 4, which it owns. -/
def creating : State :=
  let s := asking (opBytes 1 2 ([0, 4, 4, 0] ++ toLe 2 9 ++ toLe 2 0 ++ toLe 4 5 ++ toLe 8 0x1000 ++ toLe 8 0x2000 ++ toLe 8 0x4000 ++
    toLe 8 0x800000))
  { s with host := { s.host with frames := s.host.frames ++ [(4, 3)] } }

/-- A LEASE of context 1: terrace 1, basin 1 and slice 2. -/
def leasing : State :=
  updCtx (asking (opBytes 3 1 ([2, 2, 8, 4] ++ toLe 8 4 ++ toLe 8 0 ++ toLe 2 512 ++ [0, 0] ++ toLe 2 0 ++ toLe 2 0 ++ toLe 8 0x100004000000)))
    1 fun x => { x with st := .ready }

set_option maxRecDepth 20000 in
/-- A CTX_CREATE, a LEASE, FRAMES up to the last frame of the port and HOST_WINDOW of the last window, each with fields in range. -/
theorem witness_ContextsAndTheirResources :
    (∃ s : State, ∃ p c m, Asks s p 1 c m ∧ (getCtx s c).st = .free ∧ createOk s p c m = true) ∧
    (∃ s : State, ∃ p c m, Asks s p 3 c m ∧ (getCtx s c).st = .ready ∧ (getCtx s c).saved = false ∧ (∀ e ∈ (getCtx s c).cmds, e.started = false) ∧
      leaseFieldsOk s p c m = true ∧ leaseTaken s c (leaseOf m) = false ∧ bitB (leaseOf m).slices 2 = true) ∧
    (∃ s : State, ∃ p c m, Asks s p 4 c m ∧ leAt m 12 52 = 0 ∧ (getPort s p).frameFirst ≤ leAt m 4 4 ∧ leAt m 8 4 = 2 ∧
      leAt m 4 4 + leAt m 8 4 ≤ (getPort s p).frameFirst + (getPort s p).frameCount ∧ ∀ i < leAt m 8 4, frameOwner s (leAt m 4 4 + i) = 0) ∧
    (∃ s : State, ∃ p c m, Asks s p 5 c m ∧ (getCtx s c).st ≠ .free ∧ leAt m 4 1 = 7 ∧ leAt m 5 3 = 0 ∧ leAt m 24 40 = 0 ∧
      leAt m 8 8 % 4096 = 0 ∧ leAt m 16 8 % 4096 = 0) :=
  ⟨⟨creating, 0, 2, adminBytes creating 0, asks_mk (by decide +kernel), by decide +kernel⟩,
    ⟨leasing, 0, 1, adminBytes leasing 0, asks_mk (by decide +kernel), by decide +kernel⟩,
    ⟨asking (opBytes 4 0 (toLe 4 62 ++ toLe 4 2)), 0, 0, opBytes 4 0 (toLe 4 62 ++ toLe 4 2), asks_mk (by decide +kernel), by decide +kernel⟩,
    ⟨asking (opBytes 5 0 ([7, 0, 0, 0] ++ toLe 8 0x1000 ++ toLe 8 0x3000)), 0, 0, opBytes 5 0 ([7, 0, 0, 0] ++ toLe 8 0x1000 ++ toLe 8 0x3000),
      asks_mk (by decide +kernel), by decide +kernel⟩⟩

set_option maxRecDepth 20000 in
theorem test_frames_belong_to_the_context :
    after (exec (.frames 0) (asking (opBytes 4 0 (toLe 4 62 ++ toLe 4 2)))) (fun t => frameOwner t 63 == 1 && (getPort t 0).code == 0) = true := by
  decide +kernel

/-- A buddy copy carries the blocks of context 0. -/
def copied (s : State) : State := { s with sluice := { s.sluice with buddy := some { slot := 0, step := 1, ctxs := [0], left := [(none, 0, [1])] } } }

/-- A standby with the ID parts that it may take. -/
def standby : State :=
  let s := asking (opBytes 10 0 (toLe 2 1))
  { s with links := { s.links with hasId := false, drafted := false, planLoaded := true, idParts := [toLe 2 1] } }

set_option maxRecDepth 20000 in
/-- Operations that change a context's state, from each state that they start in, with and without units and copies. -/
theorem witness_ContextStates :
    (∀ b : Bool, ∃ s : State, ∃ p c m, Asks s p 6 c m ∧ (getCtx s c).st ≠ .free ∧ leAt m 4 60 = 0 ∧ accessesOver s c = b) ∧
    (∃ s : State, ∃ p c, (waitingInvalidate s p).find? (accessesOver s) = some c) ∧
    (∃ s : State, ∃ p c m, Asks s p 7 c m ∧ leAt m 4 60 = 0 ∧ (getCtx s c).st = .ready) ∧
    (∃ s : State, ∃ p c m, Asks s p 7 c m ∧ leAt m 4 60 = 0 ∧ (getCtx s c).st = .running ∧ noUnits (getCtx s c) = true) ∧
    (∃ s : State, ∃ p c m, Asks s p 7 c m ∧ leAt m 4 60 = 0 ∧ (getCtx s c).st = .running ∧ noUnits (getCtx s c) = false) ∧
    (∃ s : State, ∃ p c m, Asks s p 8 c m ∧ leAt m 8 56 = 0 ∧ (getCtx s c).st = .suspended) ∧
    (∃ s : State, ∃ p c m, Asks s p 8 c m ∧ leAt m 8 56 = 0 ∧ (getCtx s c).st = .halted ∧
      ((getCtx s c).tail - BitVec.ofNat 32 (leAt m 4 4)).toNat ≤ 2 ^ (getCtx s c).ringLog2) ∧
    (∀ st ∈ [CtxState.ready, .running, .suspended], ∃ s : State, ∃ p c m, Asks s p 9 c m ∧ leAt m 4 60 = 0 ∧ (getCtx s c).st = st) ∧
    (∀ b : Bool, ∃ s : State, ∃ p c m, Asks s p 2 c m ∧ leAt m 4 60 = 0 ∧ (getCtx s c).st ≠ .free ∧ copyReads s c = b) ∧
    (∃ s : State, ∃ p c, (waitingDestroy s p).find? (fun d => !copyReads s d) = some c) ∧
    ∃ s : State, ∃ p m d, p < 4 ∧ (getPort s p).created = true ∧ (getPort s p).busy = false ∧ adminBytes s p = m ∧ leAt m 0 1 = 10 ∧
      leAt m 1 1 = 0 ∧ platformView s p = true ∧ leAt m 6 58 = 0 ∧ s.links.hasId = false ∧ s.links.drafted = false ∧
      s.links.idParts.find? (fun e => leAt e 0 2 == leAt m 4 2) = some d := by
  refine ⟨fun b => ?_,
    ⟨updPort (asking (opBytes 6 0) fun x => { x with invalidating := true }) 0 fun q => { q with busy := true }, 0, 0, by decide +kernel⟩,
    ⟨asking (opBytes 7 0) fun x => { x with st := .ready }, 0, 0, opBytes 7 0, asks_mk (by decide +kernel), by decide +kernel⟩,
    ⟨asking (opBytes 7 0) fun x => { x with lease := {} }, 0, 0, opBytes 7 0, asks_mk (by decide +kernel), by decide +kernel⟩,
    ⟨asking (opBytes 7 0), 0, 0, opBytes 7 0, asks_mk (by decide +kernel), by decide +kernel⟩,
    ⟨asking (opBytes 8 0) fun x => { x with st := .suspended }, 0, 0, opBytes 8 0, asks_mk (by decide +kernel), by decide +kernel⟩,
    ⟨asking (opBytes 8 1), 0, 1, opBytes 8 1, asks_mk (by decide +kernel), by decide +kernel⟩,
    fun st hs => ⟨asking (opBytes 9 0) fun x => { x with st }, 0, 0, opBytes 9 0, asks_mk ?_, rfl, rfl⟩,
    fun b => ?_,
    ⟨asking (opBytes 2 0) fun x => { x with destroying := true }, 0, 0, by decide +kernel⟩,
    ⟨standby, 0, adminBytes standby 0, toLe 2 1, by decide +kernel⟩⟩
  · cases b
    · exact ⟨updThread (asking (opBytes 6 0)) 0 0 fun x => { x with st := .waitMem, wait := .load (.cistern pc0) 8 false 1 }, 0, 0, opBytes 6 0,
        asks_mk (by decide +kernel), by decide +kernel⟩
    · exact ⟨asking (opBytes 6 0), 0, 0, opBytes 6 0, asks_mk (by decide +kernel), by decide +kernel⟩
  · revert st; decide +kernel
  · cases b
    · exact ⟨asking (opBytes 2 0), 0, 0, opBytes 2 0, asks_mk (by decide +kernel), by decide +kernel⟩
    · exact ⟨copied (asking (opBytes 2 0)), 0, 0, opBytes 2 0, asks_mk (by decide +kernel), by decide +kernel⟩

set_option maxRecDepth 20000 in
/-- A port whose link is down, at each width and speed. -/
theorem witness_HostLinks :
    (getPort base 0).created = true ∧ (getPort base 0).linkUp = false ∧ 2 ≤ (getPort base 0).lanes ∧ portOf base 0 = some 0 := by decide +kernel

/-- Contexts 0 and 2 are READY with a command each, at priorities and times. -/
def contending (p0 p2 : Nat) (since2 : Nat) (f : Ctx → Ctx := id) : State :=
  let x (n p t : Nat) : Ctx := { ctx0 with st := .ready, job := 7 + n, priority := p, readySince := t, tail := 1 }
  { base with
    host := { base.host with ctxs := [(0, f (x 0 p0 5)), (2, { x 2 p2 since2 with lease := { ctx0.lease with slices := 4, regionCount := 0 } })] }
    jets := { base.jets with msgs := [], conns := [] }, basins := [] }

set_option maxRecDepth 20000 in
/-- A context that goes first by its priority, its time and its number; one that does not; quanta; contexts that must yield. -/
theorem witness_Scheduling :
    (∀ e ∈ [(1, 0, 0), (1, 1, 6), (1, 1, 5)], ∃ s : State, unitsRun s = true ∧ couldRun s 0 = true ∧
      (∀ d ∈ created s, d ≠ 0 → couldRun s d = true → goesBefore s d 0 = false) ∧ couldRun s 2 = true ∧ (getCtx s 0).priority = e.1 ∧
      trafficClear s (claimedTerraces (getCtx s 0)) (claimedBasins (getCtx s 0)) = true) ∧
    (∃ s : State, couldRun s 0 = false) ∧ (∃ s : State, unitsRun s = false) ∧
    (∃ s : State, couldRun s 0 = true ∧ couldRun s 2 = true ∧ 2 ∈ created s ∧ (getCtx s 0).priority < (getCtx s 2).priority) ∧
    ((getCtx base 0).st = .running ∧ (getCtx base 0).quantum ≠ 0) ∧ (getCtx base 2).st ≠ .running ∧
    (∃ s : State, (getCtx s 0).st = .running ∧ heldByRecovery s 0 = false ∧ noUnits (getCtx s 0) = false ∧ 2 ∈ created s ∧
      readyNow s 2 = true ∧ sharesUnit (getCtx s 0) (getCtx s 2) = true ∧ (getCtx s 0).priority < (getCtx s 2).priority) ∧
    ∃ s : State, (getCtx s 0).st = .running ∧ heldByRecovery s 0 = false ∧ noUnits (getCtx s 0) = false ∧ 2 ∈ created s ∧
      readyNow s 2 = true ∧ sharesUnit (getCtx s 0) (getCtx s 2) = true ∧ (getCtx s 0).expired = true ∧
      (getCtx s 0).priority = (getCtx s 2).priority := by
  refine ⟨fun e he => ⟨contending e.1 e.2.1 e.2.2, ?_⟩, ⟨base, by decide +kernel⟩, ⟨unlocked, by decide +kernel⟩,
    ⟨contending 0 1 5, by decide +kernel⟩, by decide +kernel, by decide +kernel,
    ⟨contending 0 1 5 fun x => { x with st := .running }, by decide +kernel⟩,
    ⟨contending 1 1 5 fun x => { x with st := .running, expired := true }, by decide +kernel⟩⟩
  revert e; decide +kernel

set_option maxRecDepth 20000 in
theorem test_older_context_runs :
    after (exec (.contextSchedule 2) (contending 1 1 4)) (fun t => (getCtx t 2).st == .running && (getCtx t 0).st == .ready) = true ∧
    after (exec (.contextSchedule 2) (contending 1 1 5)) (fun t => (getCtx t 2).st == .ready) = true := by decide +kernel

/-! The commands of a ring. -/

/-- Bytes of a command of `n` slots: its header, then fields at their offsets. -/
def command (hdr : Nat) (n : Nat) (fields : List (Nat × List Byte)) : List Byte :=
  fields.foldl (fun d f => patch d f.1 f.2) (toLe 8 hdr ++ List.replicate (128 * n - 8) 0)

/-- Context 0 holds one command, in slot 5, that has not started. -/
def oneCmd (raw : List Byte) : Cmd := { slot := 5, raw }

/-- A state whose context 0 holds it, behind the commands `before`. -/
def ringed (raw : List Byte) (f : Ctx → Ctx := id) (before : List Cmd := []) : State :=
  { base with host := { base.host with ctxs := [(0, f { ctx0 with cmds := before ++ [oneCmd raw] })] } }

theorem starts_mk {s : State} {c op : Nat} {m : Cmd} (h : nextCmd s c = some m ∧ cmdOp m = op ∧
    ∀ e ∈ (getCtx s c).cmds, e.slot = m.slot → e = m) : Starts s c op m := by
  obtain ⟨h1, h2, h3⟩ := h
  exact ⟨h1, h2, h3⟩

/-- A COMMIT that has started, in slot 4. -/
def startedCommit : Cmd := { slot := 4, raw := command 0x0C 1 [(8, [0xFF])], started := true }

set_option maxRecDepth 20000 in
/-- Commands that complete with an event and a counter, and with neither. -/
theorem witness_CommandCompletion :
    ∀ h ∈ [0, 2 ^ 20 + 3 * 2 ^ 16, 2 ^ 21], ∃ s : State, ∃ m, (getCtx s 0).cmds.find? (fun e => e.slot == m.slot) = some m ∧ (getCtx s 0).st = .running ∧
      leAt m.raw 0 8 = h ∧ (getCtx s 0).evqTail = (getCtx s 0).evqHead ∧
      inWindow s 0 ((getCtx s 0).evqBase + 64 * ((getCtx s 0).evqTail.toNat % 2 ^ (getCtx s 0).evqLog2)) 64 = true := by
  intro h hh
  refine ⟨ringed (command h 1 []), oneCmd (command h 1 []), ?_⟩
  revert h; decide +kernel

set_option maxRecDepth 20000 in
/-- Commands to units inside and outside the lease; items at both bounds of a queue's room; threads that are FREE and not; writes to be held;
conditions that hold and do not, at the bounds of a comparison. -/
theorem witness_ComputeCommands :
    (∃ s : State, ∃ m, Starts s 0 0x00 m) ∧
    (∀ n ∈ [1, 32], ∃ s : State, ∃ m, Starts s 0 0x01 m ∧ claimsBasin s 0 (leAt m.raw 8 1) = true ∧ (getBasin s (leAt m.raw 8 1)).lease = some 0 ∧
      startedOf s 0 0x01 = [] ∧ (getSpout s (leAt m.raw 8 1)).heldWrites = [] ∧ m.moved = 0 ∧ leAt m.raw 9 1 = n ∧
      (getBasin s (leAt m.raw 8 1)).queue.length + n ≤ 32) ∧
    (∃ s : State, ∃ m, Starts s 0 0x01 m ∧ claimsBasin s 0 (leAt m.raw 8 1) = false ∧ startedOf s 0 0x01 = []) ∧
    (∃ s : State, ∃ m, Starts s 0 0x02 m ∧ onlyBits (leAt m.raw 8 1) (getCtx s 0).lease.terraces = false) ∧
    (∃ s : State, ∃ m, Starts s 0 0x02 m ∧ onlyBits (leAt m.raw 8 1) (getCtx s 0).lease.terraces = true ∧ leAt m.raw 8 1 ≠ 0 ∧
      ∀ k ∈ launchThreads m.raw, (getThread s (k / 256) (k % 256)).st = .free) ∧
    (∃ s : State, ∃ m, Starts s 0 0x02 m ∧ onlyBits (leAt m.raw 8 1) (getCtx s 0).lease.terraces = true ∧ leAt m.raw 8 1 ≠ 0 ∧
      ∃ k ∈ launchThreads m.raw, (getThread s (k / 256) (k % 256)).st ≠ .free) ∧
    (∀ op ∈ [3, 4], ∀ b ∈ [0, 1], ∃ s : State, ∃ m, Starts s 0 op m ∧ leAt m.raw 8 1 = b ∧ claimsBasin s 0 b = (b == 0)) ∧
    (∀ kind ∈ [0, 1], ∀ v ∈ [0x7FFFFFFF, 0x80000000], ∃ s : State, ∃ m, Starts s 0 0x11 m ∧ startedOf s 0 0x11 = [] ∧ leAt m.raw 8 1 = kind ∧
      claimsBasin s 0 (leAt m.raw 9 1 / 4) = true ∧ leAt m.raw 16 4 = 0 ∧ SMap.get 0 (getCtx s 0).counters (leAt m.raw 9 1) = BitVec.ofNat 32 v ∧
      SMap.get 0 (getBasin s 0).comp (leAt m.raw 9 1) = BitVec.ofNat 32 v) := by
  refine ⟨⟨ringed (command 0 1 []), oneCmd (command 0 1 []), starts_mk (by decide +kernel)⟩,
    fun n hn => ⟨ringed (command 1 1 [(8, toLe 1 0 ++ toLe 1 n)]), oneCmd (command 1 1 [(8, toLe 1 0 ++ toLe 1 n)]), starts_mk ?_, ?_⟩,
    ⟨ringed (command 1 1 [(8, [1, 1])]), oneCmd (command 1 1 [(8, [1, 1])]), starts_mk (by decide +kernel), by decide +kernel⟩,
    ⟨ringed (command 2 1 [(8, [2, 0])]), oneCmd (command 2 1 [(8, [2, 0])]), starts_mk (by decide +kernel), by decide +kernel⟩,
    ⟨ringed (command 2 1 [(8, [1, 0])]), oneCmd (command 2 1 [(8, [1, 0])]), starts_mk (by decide +kernel), by decide +kernel⟩,
    ⟨{ ringed (command 2 1 [(8, [1, 1])]) with jets := { base.jets with threads := [(1, thr [])] } }, oneCmd (command 2 1 [(8, [1, 1])]),
      starts_mk (by decide +kernel), by decide +kernel⟩,
    fun op ho b hb => ⟨ringed (command op 2 [(8, toLe 1 b)]), oneCmd (command op 2 [(8, toLe 1 b)]), starts_mk ?_, ?_⟩,
    fun k hk v hv => ⟨{ ringed (command 0x11 1 [(8, toLe 1 k ++ [2])]) fun x => { x with counters := [(2, BitVec.ofNat 32 v)] } with
        basins := [(0, { lease := some 0, comp := [(2, BitVec.ofNat 32 v)] })] }, oneCmd (command 0x11 1 [(8, toLe 1 k ++ [2])]), starts_mk ?_, ?_⟩⟩
  · revert n; decide +kernel
  · revert n; decide +kernel
  · revert b; revert op; decide +kernel
  · revert b; revert op; decide +kernel
  · revert v; revert k; decide +kernel
  · revert v; revert k; decide +kernel

set_option maxRecDepth 20000 in
theorem test_items_take_consecutive_numbers :
    after (exec (.basinItems 0) (ringed (command 1 3 [(8, [0, 2])]))) (fun t => (getBasin t 0).queue.map (·.seq) == [0, 1] &&
      (getBasin t 0).nextSeq == 2 && (getCtx t 0).cmds == []) = true := by decide +kernel

/-- Context 2 evaluates context `c`. -/
def evaluator (c : Nat) : Ctx := { ctx0 with st := .ready, eval := true, evalOf := c, lease := {}, job := 9 }

/-- The state of `ringed`, with context 2. -/
def with2 (s : State) (x : Ctx) : State := { s with host := { s.host with ctxs := s.host.ctxs ++ [(2, x)] } }

set_option maxRecDepth 20000 in
/-- SET with every bit of its mask, with tables that fit and do not; PHASE; windows that open, are refused and wait; EVAL_CLOSE; data between the
host and the device, inside windows and out; a job on a fabric that is ready, not ready, and without one. -/
theorem witness_ContextCommands :
    (∃ s : State, ∃ m, Starts s 0 0x05 m ∧ leAt m.raw 8 1 = 127 ∧ growsTables (getCtx (startCmd s 0 m.slot) 0) (applySet (getCtx (startCmd s 0 m.slot) 0) m.raw) = true ∧
      buddyFits (startCmd s 0 m.slot) (fun d => if d = 0 then applySet (getCtx (startCmd s 0 m.slot) 0) m.raw else getCtx (startCmd s 0 m.slot) d) 0 = true) ∧
    (∃ s : State, ∃ m, Starts s 0 0x05 m ∧ growsTables (getCtx (startCmd s 0 m.slot) 0) (applySet (getCtx (startCmd s 0 m.slot) 0) m.raw) = true ∧
      buddyFits (startCmd s 0 m.slot) (fun d => if d = 0 then applySet (getCtx (startCmd s 0 m.slot) 0) m.raw else getCtx (startCmd s 0 m.slot) d) 0 = false) ∧
    (∃ s : State, ∃ m, Starts s 0 0x06 m) ∧
    (∃ s : State, ∃ m, Starts s 0 0x0E m ∧ (∀ e ∈ cmdsBefore (getCtx s 0) m.slot, cmdOp e ≠ 0x0C) ∧ leAt m.raw 16 2 = 2 ∧ (getCtx s 2).st ≠ .free ∧
      (getCtx s 2).eval = true ∧ (getCtx s 2).evalOf = 0 ∧ portOf s 2 = portOf s 0) ∧
    (∃ s : State, ∃ m, Starts s 0 0x0E m ∧ (∀ e ∈ cmdsBefore (getCtx s 0) m.slot, cmdOp e ≠ 0x0C) ∧ leAt m.raw 16 2 = 2 ∧ (getCtx s 2).evalOf ≠ 0) ∧
    (∃ s : State, ∃ m, Starts s 0 0x0E m ∧ ∃ e ∈ cmdsBefore (getCtx s 0) m.slot, cmdOp e = 0x0C) ∧
    (∀ ev : Bool, ∃ s : State, ∃ m, Starts s 0 0x0F m ∧ (getCtx s 0).eval = ev) ∧
    (∀ fl ∈ [1, 3], ∃ s : State, ∃ m, Starts s 0 0x10 m ∧ leAt m.raw 8 1 = fl ∧ 0 < leAt m.raw 32 8 ∧
      inWindow (startCmd s 0 m.slot) 0 (leAt m.raw 16 8) (leAt m.raw 32 8) = true) ∧
    (∃ s : State, ∃ m, Starts s 0 0x10 m ∧ bitB (leAt m.raw 8 1) 0 = true ∧ 0 < leAt m.raw 32 8 ∧
      inWindow (startCmd s 0 m.slot) 0 (leAt m.raw 16 8) (leAt m.raw 32 8) = false) ∧
    (∀ a ∈ [0x4000, 0x40000000], ∃ s : State, ∃ m, Starts s 0 0x10 m ∧ bitB (leAt m.raw 8 1) 0 = false ∧ 0 < leAt m.raw 32 8 ∧
      (ctxRead (startCmd s 0 m.slot) 0 (leAt m.raw 16 8) (leAt m.raw 32 8)).isSome = (a == 0x4000) ∧
      (ctxWrite (startCmd s 0 m.slot) 0 0x8000 (List.replicate 64 0)).isSome = true ∧ leAt m.raw 24 8 = 0x8000) ∧
    (∀ h ∈ [0, 1], ∃ s : State, ∃ m, Starts s 0 0x12 m ∧ leAt m.raw 8 1 = h ∧ leAt m.raw 16 8 = 0x10000 ∧
      inWindow (startCmd s 0 m.slot) 0 (leAt m.raw 16 8) 8 = true ∧
      (ctxWrite (startCmd s 0 m.slot) 0 (leAt m.raw 16 8) (slice m.raw 24 8)).isSome = true) ∧
    (∀ fab ready : Bool, ∃ s : State, ∃ m, Starts s 0 0x13 m ∧ (getCtx s 0).fabric = fab ∧ fabricReady s = ready) := by
  refine ⟨⟨ringed (command 5 1 [(8, [127]), (32, [1])]), oneCmd (command 5 1 [(8, [127]), (32, [1])]), starts_mk (by decide +kernel), by decide +kernel⟩,
    ⟨setReg (ringed (command 5 1 [(8, [2]), (32, toLe 4 0xFFFFFFFF)])) (oSlc + 8) 0x00040100, oneCmd (command 5 1 [(8, [2]), (32, toLe 4 0xFFFFFFFF)]),
      starts_mk (by decide +kernel), by decide +kernel⟩,
    ⟨ringed (command 6 1 []), oneCmd (command 6 1 []), starts_mk (by decide +kernel)⟩,
    ⟨with2 (ringed (command 0x0E 1 [(16, [2])])) (evaluator 0), oneCmd (command 0x0E 1 [(16, [2])]), starts_mk (by decide +kernel), by decide +kernel⟩,
    ⟨with2 (ringed (command 0x0E 1 [(16, [2])])) (evaluator 1), oneCmd (command 0x0E 1 [(16, [2])]), starts_mk (by decide +kernel), by decide +kernel⟩,
    ⟨ringed (command 0x0E 1 [(16, [2])]) id [startedCommit], oneCmd (command 0x0E 1 [(16, [2])]), starts_mk (by decide +kernel), startedCommit, by decide +kernel⟩,
    fun ev => ⟨ringed (command 0x0F 1 []) fun x => { x with eval := ev, windowOpen := true }, oneCmd (command 0x0F 1 []), starts_mk ?_, rfl⟩,
    fun fl hf => ⟨ringed (command 0x10 1 [(8, toLe 1 fl), (16, toLe 8 0x10F000), (32, toLe 8 0x1000)]),
      oneCmd (command 0x10 1 [(8, toLe 1 fl), (16, toLe 8 0x10F000), (32, toLe 8 0x1000)]), starts_mk ?_, ?_⟩,
    ⟨ringed (command 0x10 1 [(8, [1]), (16, toLe 8 0x10FFC1), (32, toLe 8 64)]), oneCmd (command 0x10 1 [(8, [1]), (16, toLe 8 0x10FFC1), (32, toLe 8 64)]),
      starts_mk (by decide +kernel), by decide +kernel⟩,
    fun a ha => ⟨ringed (command 0x10 1 [(16, toLe 8 a), (24, toLe 8 0x8000), (32, toLe 8 64)]),
      oneCmd (command 0x10 1 [(16, toLe 8 a), (24, toLe 8 0x8000), (32, toLe 8 64)]), starts_mk ?_, ?_⟩,
    fun h hh => ⟨ringed (command 0x12 1 [(8, toLe 1 h), (16, toLe 8 0x10000)]), oneCmd (command 0x12 1 [(8, toLe 1 h), (16, toLe 8 0x10000)]), starts_mk ?_, ?_⟩,
    fun fab ready => ⟨{ ringed (command 0x13 1 []) (fun x => { x with fabric := fab }) with
      links := { base.links with hasId := ready, planLoaded := ready } }, oneCmd (command 0x13 1 []), starts_mk ?_, rfl, ?_⟩⟩
  · cases ev <;> decide +kernel
  · revert fl; decide +kernel
  · revert fl; decide +kernel
  · revert a; decide +kernel
  · revert a; decide +kernel
  · revert h; decide +kernel
  · revert h; decide +kernel
  · cases fab <;> cases ready <;> decide +kernel
  · cases fab <;> cases ready <;> decide +kernel

/-- A region that context 0 may declare: entry `e`, over the page of the tests. -/
def region (e : Nat) : List Byte := slice (declare 0 0 0 1 (e * 2 ^ 35)) 0 64

/-- A schedule record of one group whose six values are admitted. -/
def record0 : List Byte :=
  let one := [0, 0, 0x80, 0x3F]
  let half := [0, 0, 0, 0x3F]
  List.replicate 8 0 ++ [1] ++ List.replicate 55 0 ++ (one ++ half ++ half ++ one ++ one ++ half) ++ List.replicate 488 0

/-- A group table entry of two members, 0 and 3, with this device the first. -/
def groupCells : SMap Byte := [(0x410000, 1), (0x410001, 1), (0x410004, 2), (0x410009, 1), (0x41000A, 1), (0x410102, 3)]

/-- The commands of the training engines. -/
def cmdDeclare : List Byte := command 7 2 [(128, region 0)]
def cmdInit : List Byte := command 9 2 [(128, [1, 1 + 16 * 65536, 0x30000, 0x32000, 0, 0, 0x36000].flatMap (toLe 8))]
def cmdSched (d : List Byte) : List Byte := command 0x0B 6 [(128, d)]
def cmdColl (mode : Nat) : List Byte := command 0x0D 1 [(8, [2] ++ toLe 1 mode), (16, toLe 8 16), (24, toLe 8 0x30000)]

/-- A state of `ringed` with memory, sluice, links or registers changed. -/
def ringed' (raw : List Byte) (g : State → State) (f : Ctx → Ctx := id) (before : List Cmd := []) : State := g (ringed raw f before)

def addCells (m : SMap Byte) (s : State) : State := { s with mem := { s.mem with cells := s.mem.cells ++ m } }

set_option maxRecDepth 20000 in
/-- A region that is admitted, refused, of the context and of another; a block that is named rightly, twice, too large and with a master that is
not canonical; sluice commands out of turn; a schedule by R393 and not; a COMMIT that is malformed and not. -/
theorem witness_TrainingCommands :
    (∀ r : Bool, ∃ s : State, ∃ m, Starts s 0 0x07 m ∧ declRefused (startCmd s 0 m.slot) 0 (slice m.raw 128 64) = r ∧ s.links.colls = []) ∧
    (∀ d ∈ [0, 1], ∃ s : State, ∃ m g, Starts s 0 0x08 m ∧ getRegion s (leAt m.raw 16 2) = some g ∧ g.ctx = d) ∧
    (∃ s : State, ∃ m, Starts s 0 0x09 m ∧ sluiceTurn s 0 m = true ∧ blockHeld s 0 = false ∧ getBlock s 0 0 = none ∧ blockWordsOk (slice m.raw 128 128) = true ∧
      arraysOk (startCmd s 0 m.slot) 0 0 (slice m.raw 128 128) = true ∧ buddyFits (startCmd s 0 m.slot) (getCtx (startCmd s 0 m.slot)) (bkBuddyBytes (slice m.raw 128 128)) = true ∧
      allBelow (bkElems (slice m.raw 128 128)) (fun e => tCanonical (readMaster (startCmd s 0 m.slot) 0 (slice m.raw 128 128) e)) = true) ∧
    (∃ s : State, ∃ m, Starts s 0 0x09 m ∧ sluiceTurn s 0 m = true ∧ blockHeld s 0 = false ∧ getBlock s 0 0 ≠ none) ∧
    (∃ s : State, ∃ m, Starts s 0 0x09 m ∧ sluiceTurn s 0 m = true ∧ blockHeld s 0 = false ∧ getBlock s 0 0 = none ∧ blockWordsOk (slice m.raw 128 128) = true ∧
      arraysOk (startCmd s 0 m.slot) 0 0 (slice m.raw 128 128) = true ∧ buddyFits (startCmd s 0 m.slot) (getCtx (startCmd s 0 m.slot)) (bkBuddyBytes (slice m.raw 128 128)) = false) ∧
    (∃ s : State, ∃ m, Starts s 0 0x09 m ∧ sluiceTurn s 0 m = true ∧ blockHeld s 0 = false ∧ getBlock s 0 0 = none ∧ blockWordsOk (slice m.raw 128 128) = true ∧
      arraysOk (startCmd s 0 m.slot) 0 0 (slice m.raw 128 128) = true ∧ buddyFits (startCmd s 0 m.slot) (getCtx (startCmd s 0 m.slot)) (bkBuddyBytes (slice m.raw 128 128)) = true ∧
      allBelow (bkElems (slice m.raw 128 128)) (fun e => tCanonical (readMaster (startCmd s 0 m.slot) 0 (slice m.raw 128 128) e)) = false) ∧
    (∀ op ∈ [0x09, 0x0A], ∀ t : Bool, ∃ s : State, ∃ m, Starts s 0 op m ∧ sluiceTurn s 0 m = t ∧ blockHeld s 0 = false) ∧
    (∃ s : State, blockHeld s 0 = true) ∧
    (∀ v : Bool, ∃ s : State, ∃ m, Starts s 0 0x0B m ∧ schedOk (slice m.raw 128 576) = v) ∧
    (∀ v : Bool, ∃ s : State, ∃ m, Starts s 0 0x0C m ∧ commitBad (startCmd s 0 m.slot) 0 m.raw = v) := by
  refine ⟨fun r => ⟨ringed' cmdDeclare fun s => if r then { s with mem := { s.mem with regions := [(0, some { ctx := 1, raw := [] })] } } else s,
      oneCmd cmdDeclare, starts_mk ?_, ?_⟩,
    fun d hd => ⟨ringed' (command 8 1 []) fun s => { s with mem := { s.mem with regions := [(0, some { ctx := d, raw := [] })] } },
      oneCmd (command 8 1 []), { ctx := d, raw := [] }, starts_mk ?_, rfl, rfl⟩,
    ⟨ringed cmdInit, oneCmd cmdInit, starts_mk (by decide +kernel), by decide +kernel⟩,
    ⟨ringed' cmdInit fun s => { s with sluice := { s.sluice with blocks := [(0, some { raw := block 1 })] } }, oneCmd cmdInit,
      starts_mk (by decide +kernel), by decide +kernel⟩,
    ⟨ringed' cmdInit (fun s => setReg s (oSlc + 8) 0x00040100) (fun x => { x with scaleLen := 0xFFFFFFFF }), oneCmd cmdInit,
      starts_mk (by decide +kernel), by decide +kernel⟩,
    ⟨ringed' cmdInit (addCells [(0x430004, 0x80), (0x430005, 0x7F)]), oneCmd cmdInit, starts_mk (by decide +kernel), by decide +kernel⟩,
    fun op ho t => ⟨ringed (command op 2 []) id (if t then [] else [startedCommit]), oneCmd (command op 2 []), starts_mk ?_, ?_⟩,
    ⟨ringed' (command 0x0A 2 []) fun s => { s with sluice := { s.sluice with
      snaps := [{ ctx := 0, form := 0, dev := none, left := [(0, 0, [1])] }] } }, by decide +kernel⟩,
    fun v => ⟨ringed (cmdSched (if v then record0 else [])), oneCmd (cmdSched (if v then record0 else [])), starts_mk ?_, ?_⟩,
    fun v => ⟨ringed (command 0x0C 1 [(8, if v then [0] else [0xFF])]), oneCmd (command 0x0C 1 [(8, if v then [0] else [0xFF])]), starts_mk ?_, ?_⟩⟩
  · cases r <;> decide +kernel
  · cases r <;> decide +kernel
  · revert d; decide +kernel
  · revert op; cases t <;> decide +kernel
  · revert op; cases t <;> decide +kernel
  · cases v <;> decide +kernel
  · cases v <;> decide +kernel
  · cases v <;> decide +kernel
  · cases v <;> decide +kernel

set_option maxRecDepth 20000 in
/-- A COLLECTIVE before JOB_START, with its identifier in use, of a type that its mode does not take, and of a group. -/
theorem witness_Collective :
    (∃ s : State, ∃ m, Starts s 0 0x0D m ∧ (getCtx s 0).jobStarted = false) ∧
    (∃ s : State, ∃ m, Starts s 0 0x0D m ∧ (getCtx s 0).jobStarted = true ∧ ∃ y ∈ s.links.colls, y.ctx = 0 ∧ y.done = false ∧ clId y.raw = clId m.raw) ∧
    (∃ s : State, ∃ m, Starts s 0 0x0D m ∧ (getCtx s 0).jobStarted = true ∧ s.links.colls = [] ∧ collOk m.raw = false) ∧
    (∃ s : State, ∃ m, Starts s 0 0x0D m ∧ (getCtx s 0).jobStarted = true ∧ s.links.colls = [] ∧ collOk m.raw = true ∧
      groupOf (startCmd s 0 m.slot) 0 (clGroup m.raw) = none) ∧
    ∃ s : State, ∃ m, Starts s 0 0x0D m ∧ (getCtx s 0).jobStarted = true ∧ s.links.colls = [] ∧ collOk m.raw = true ∧
      groupOf (startCmd s 0 m.slot) 0 (clGroup m.raw) = some (0, [0, 3], [1]) := by
  refine ⟨⟨ringed (cmdColl 1), oneCmd (cmdColl 1), starts_mk (by decide +kernel), rfl⟩,
    ⟨ringed' (cmdColl 1) (fun s => { s with links := { s.links with colls := [coll0 2 1] } }) fun x => { x with jobStarted := true }, oneCmd (cmdColl 1),
      starts_mk (by decide +kernel), by decide +kernel⟩,
    ⟨ringed (cmdColl 2) fun x => { x with jobStarted := true }, oneCmd (cmdColl 2), starts_mk (by decide +kernel), by decide +kernel⟩,
    ⟨ringed (cmdColl 1) fun x => { x with jobStarted := true }, oneCmd (cmdColl 1), starts_mk (by decide +kernel), by decide +kernel⟩,
    ⟨ringed' (cmdColl 1) (addCells groupCells) fun x => { x with jobStarted := true, groupBase := 0x10000 }, oneCmd (cmdColl 1),
      starts_mk (by decide +kernel), by decide +kernel⟩⟩

set_option maxRecDepth 20000 in
/-- A command that may start, with each condition of a header; none; one that has waited for longer than the limit; a host read that is
outstanding. -/
theorem witness_CommandOrder :
    (∀ h ∈ [0, 2 ^ 15, 2 ^ 14, 5, 0x12], ∃ s : State, ∃ m, nextCmd s 0 = some m ∧ leAt m.raw 0 8 = h) ∧ nextCmd base 0 = none ∧
    (∀ h ∈ [2 ^ 15, 2 ^ 14, 5, 0x12], ∃ s : State, (getCtx s 0).cmds.length = 2 ∧ nextCmd s 0 = none) ∧
    (∃ s : State, ∃ m, (getCtx s 0).cmds.find? (fun m => cmdWaits s 0 m && !m.stalled &&
      decide (regOf s (oHif ((portOf s 0).getD 0) + 8) % 1024 * 50000000 < s.ticks - m.since)) = some m) ∧
    (∀ m ∈ (getCtx base 0).cmds, cmdWaits base 0 m = true → m.stalled = true) ∧
    (∃ s : State, (∀ m ∈ (getCtx s 0).cmds, cmdWaits s 0 m = true → m.stalled = true) ∧
      markStalled s 0 (bits (regOf s (oHif ((portOf s 0).getD 0) + 8)) 9 0 * 50000000) = some (0, waitItem 9)) ∧
    markStalled base 0 (bits (regOf base (oHif ((portOf base 0).getD 0) + 8)) 9 0 * 50000000) = none ∧
    (∃ s : State, hostReadOut s 0 = true) ∧ hostReadOut base 0 = false := by
  refine ⟨fun h hh => ⟨ringed (command h 1 []), oneCmd (command h 1 []), ?_⟩, by decide +kernel,
    fun h hh => ⟨ringed (command h 1 []) id [startedCommit], ?_⟩,
    ⟨{ ringed (command 0 1 []) with ticks := 600000000 }, oneCmd (command 0 1 []), by decide +kernel⟩, by decide +kernel,
    ⟨{ withBasin fun x => { x with queue := [waitItem 9] } with ticks := 600000000 }, by decide +kernel⟩, by decide +kernel,
    ⟨ahead 2, by decide +kernel⟩, by decide +kernel⟩
  · revert h; decide +kernel
  · revert h; decide +kernel

/-! Well-formed commands: for each check of `Instr.wf` a command that it refuses, and the last unit that it admits. -/

/-- Every jet row. -/
def jetRows : List (Issue → Instr) :=
  [.add, .sub, .andI, .orI, .xorI, .shl, .shr, .sra, .mul, .mulhu, .div, .divu, .rem, .remu, .min, .max, .minu, .maxu, .clz, .popc,
    .liz, .lih, .eqI, .neI, .ltI, .ltu, .geI, .geu, .feq, .flt, .fle, .funCmp, .pand, .por, .pxor, .pnot, .pset, .pget, .fadd, .fsub,
    .fmul, .ffma, .fdiv, .fsqrt, .fmin, .fmax, .fcvti, .fcvtf, .fabs, .fneg, .br, .jal] ++
  [.ld, .st, .aadd, .aswap, .acas, .amin, .amax, .aminu, .amaxu, .aand, .aor, .fence, .iflush, .bulk, .wop, .vadd, .vsub, .vmul, .vfma,
    .vaxpy, .vmax, .vmin, .vcopy, .vfill, .vsum, .vamax, .vchk, .vztest, .vcvt, .chopen, .chclose, .conn, .disc, .send, .sendNb, .feed,
    .feedNb, .recv, .recvNb, .recvs, .recvsNb, .msgfree, .barinit, .bararr, .barwait, .spawnNormal, .spawnFeed, .exitThread, .getst,
    .clrflg, .rdtime, .poison]

theorem test_wf_of_jet_rows : ∀ f ∈ jetRows,
    (f { jet := 4096, thread := 0, word := 0 }).wf = false ∧ (f { jet := 0, thread := 256, word := 0 }).wf = false ∧
    (f { jet := 0, thread := 0, word := 0, parts := 0 }).wf = false ∧ (f { jet := 4095, thread := 255, word := 0 }).wf = true := by
  decide +kernel

/-- Commands whose unit does not exist. -/
theorem test_wf_refuses_0 : ∀ i ∈ ([.memAccessComplete 4096 0 0 [], .memAccessComplete 0 256 0 [], .fenceComplete 4096 0, .fenceComplete 0 256, .messageArrival 0 2,
    .waitStall 4096 0, .waitStall 0 256, .jetSubstitution 4096 true, .launchStart 1024, .terracePreempt 1024, .contextResume 1024,
    .basinItemCheck 6, .passItem 6 [], .loadItem 6, .loadComplete 6 true [], .signalMark 6, .waitMark 6, .exchange 6, .rootWindow 6 [],
    .rowAccept 6 [], .zeroRowMarker 6 [], .outputRowAtSpout 6 [], .rowChecked 6 .bus [], .rowReplay 6 [], .segmentReplay 6 [] true,
    .tokenExit 6, .drain 6, .drainComplete 6, .bankReload 6 [], .basinSubstitution 6 true, .basinPreempt 6, .basinResume 6, .feedStall 6,
    .passComplete 6 [], .sideRowRead 6 0 [], .rowStoreAcquire 6, .rowKernelPhase2 6 0 [], .spoutDelivery 6 0, .profileApplied 6 0,
    .routeApplied 6 0, .pcRetirementComplete 8 [], .hbmParityRetry 8 0 true true, .hbmTempRead 8 0 true, .rfmRequest 8,
    .commitBarrierRelease 1024 0 [], .linkTrainingComplete 32 0, .downRetry 32, .discoverySend 32, .discoveryRec 32,
    .discoveryTimeout 32, .signalLoss 32, .linkBlockReceive 32 .bad, .replayTimeout 32, .linkRetrain 32 0, .creditStall 32 0 0,
    .creditStall 0 16 0] : List Instr), i.wf = false := by
  decide +kernel

/-- Commands whose unit does not exist. -/
theorem test_wf_refuses_1 : ∀ i ∈ ([.collectiveComplete 1024, .pwrCap 5 0, .droopEnter 14, .droopRelease 14, .currentTrip 7, .perst 4, .updBegin true 2,
    .ldgReadIndex 5 0, .counterLowRead 5 0 0, .registerWrite 5 0 0 0, .bar4Access 4 0 true [] [], .ctxTail 4 0 0, .ctxTail 0 1024 0,
    .ctxEvqHead 4 0 0, .ctxEvqHead 0 1024 0, .commandFetched 1024 [] true [], .ctxCreate 4, .ctxDestroy 4, .lease 4, .frames 4,
    .hostWindow 4, .invalidate 4, .suspend 4, .restart 4, .ctxAbort 4, .draft 4, .contextSchedule 1024, .quantumExpiry 1024,
    .hostAccessTimeout 1024, .commandStall 1024, .nopCmd 1024, .basinItems 1024, .launchCmd 1024, .profileWrite 1024, .routeWrite 1024,
    .setCmd 1024, .phaseCmd 1024, .regionDeclare 1024, .regionRelease 1024, .blockInit 1024, .blockRelease 1024, .schedule 1024,
    .commit 1024 [], .collective 1024 [], .evalOpen 1024, .evalClose 1024, .copyCmd 1024 [] true [], .waitCmd 1024, .signalCommand 1024,
    .jobStart 1024, .ovlSelChange 16, .droopEnd 14 0, .linkUp 4 0 0 true, .hbmTrain 8, .pcLineCopy 8 []] : List Instr), i.wf = false := by
  decide +kernel

/-- Commands of the last unit of each kind. -/
theorem test_wf_admits_0 : ∀ i ∈ ([.memAccessComplete 4095 255 0 [], .fenceComplete 4095 255, .messageArrival 0 1, .waitStall 4095 255, .jetSubstitution 4095 true,
    .launchStart 1023, .terracePreempt 1023, .contextResume 1023, .basinItemCheck 5, .passItem 5 [], .loadItem 5,
    .loadComplete 5 true [], .signalMark 5, .waitMark 5, .exchange 5, .rootWindow 5 [], .rowAccept 5 [], .zeroRowMarker 5 [],
    .outputRowAtSpout 5 [], .rowChecked 5 .bus [], .rowReplay 5 [], .segmentReplay 5 [] true, .tokenExit 5, .drain 5, .drainComplete 5,
    .bankReload 5 [], .basinSubstitution 5 true, .basinPreempt 5, .basinResume 5, .feedStall 5, .passComplete 5 [], .sideRowRead 5 0 [],
    .rowStoreAcquire 5, .rowKernelPhase2 5 0 [], .spoutDelivery 5 0, .profileApplied 5 0, .routeApplied 5 0, .pcRetirementComplete 7 [],
    .hbmParityRetry 7 0 true true, .hbmTempRead 7 0 true, .rfmRequest 7, .commitBarrierRelease 1023 0 [], .linkTrainingComplete 31 0,
    .downRetry 31, .discoverySend 31, .discoveryRec 31, .discoveryTimeout 31, .signalLoss 31, .linkBlockReceive 31 .bad,
    .replayTimeout 31, .linkRetrain 31 0, .creditStall 31 15 0, .collectiveComplete 1023, .pwrCap 4 0, .droopEnter 13, .droopRelease 13] : List Instr), i.wf = true := by
  decide +kernel

/-- Commands of the last unit of each kind. -/
theorem test_wf_admits_1 : ∀ i ∈ ([.currentTrip 6, .perst 3, .updBegin true 1, .ldgReadIndex 4 0, .counterLowRead 4 0 0, .registerWrite 4 0 0 0,
    .bar4Access 3 0 true [] [], .ctxTail 3 1023 0, .ctxEvqHead 3 1023 0, .commandFetched 1023 [] true [], .ctxCreate 3, .ctxDestroy 3,
    .lease 3, .frames 3, .hostWindow 3, .invalidate 3, .suspend 3, .restart 3, .ctxAbort 3, .draft 3, .contextSchedule 1023,
    .quantumExpiry 1023, .hostAccessTimeout 1023, .commandStall 1023, .nopCmd 1023, .basinItems 1023, .launchCmd 1023,
    .profileWrite 1023, .routeWrite 1023, .setCmd 1023, .phaseCmd 1023, .regionDeclare 1023, .regionRelease 1023, .blockInit 1023,
    .blockRelease 1023, .schedule 1023, .commit 1023 [], .collective 1023 [], .evalOpen 1023, .evalClose 1023, .copyCmd 1023 [] true [],
    .waitCmd 1023, .signalCommand 1023, .jobStart 1023, .ovlSelChange 15, .droopEnd 13 0, .linkUp 3 0 0 true, .hbmTrain 7,
    .pcLineCopy 7 []] : List Instr), i.wf = true := by
  decide +kernel


end Sys2Proof.Tests
end

section
/-! Every command answers a next state (O3), and what reset leaves (O29). -/

namespace Sys2Proof.Proofs
open Sys2Proof.Machine Sys2Proof.Safety

/-- Each arm of the dispatch is a meaning that answers a next state, whatever its precondition. -/
theorem exec_answers_next (i : Instr) (s : State) : ∃ t, exec i s = .next t := by
  cases i <;> exact ⟨_, rfl⟩

/-- Settles O3: the front command's meaning answers a next state, and so does a tick. -/
theorem everyStepAnswersANextState : Obligations.EveryStepAnswersANextState := by
  intro s
  unfold Completes step
  split
  · exact ⟨tick s, rfl⟩
  · exact exec_answers_next _ _

/-! The blocks of the control space (R539). -/

/-- The offset in the control space at which a block begins. -/
def blockBase : RegBlock → Nat
  | .cfg => oCfg
  | .sec => oSec
  | .pwr => oPwr
  | .ldg => oLdg
  | .hif p => oHif p
  | .jet => oJet
  | .run => oRun
  | .bsn b => oBsn b
  | .spt b => oSpt b
  | .cis => oCis
  | .hbm => oHbm
  | .weir => oWeir
  | .slc => oSlc
  | .nl => oNl

theorem blockAt_base {x o : Nat} {u : RegBlock} (h : blockAt x = some (u, o)) : x = blockBase u + o := by
  unfold blockAt at h
  dsimp only at h
  split at h
  case h_11 | h_12 =>
    split at h
    · simp only [Option.some.injEq, Prod.mk.injEq] at h
      obtain ⟨rfl, rfl⟩ := h
      simp only [blockBase, oBsn, oSpt]
      omega
    · cases h
  case h_18 => cases h
  all_goals
    simp only [Option.some.injEq, Prod.mk.injEq] at h
    obtain ⟨rfl, rfl⟩ := h
    simp only [blockBase, oCfg, oSec, oPwr, oLdg, oHif, oJet, oRun, oCis, oHbm, oWeir, oSlc, oNl]
    omega

/-- There are six basins. -/
theorem blockAt_bsn_lt {x b o : Nat} (h : blockAt x = some (.bsn b, o)) : b < 6 := by
  unfold blockAt at h
  dsimp only at h
  split at h
  case h_11 =>
    split at h
    · simp only [Option.some.injEq, Prod.mk.injEq, RegBlock.bsn.injEq] at h
      omega
    · cases h
  case h_12 =>
    split at h <;> cases h
  all_goals cases h

/-! The registers at reset. -/


/-- Every counter is zero at reset, as are the step numbers, the cursors and the serial numbers that pairs read. -/
theorem pairValue_reset (u : RegBlock) (o x : Nat) : pairValue State.reset u o x = 0 := by
  have hc : counterOf State.reset x = 0 := rfl
  unfold pairValue
  split
  · rfl
  · split
    · rfl
    · exact hc
  · split
    · rfl
    · split
      · rfl
      · exact hc
  · split
    · rfl
    · exact hc
  · exact hc

/-- Bytes that are absent read as zero. -/
theorem leAt_nil (o n : Nat) : leAt [] o n = 0 := by
  have h : ∀ k, leNat (List.replicate k 0#8) = 0 := by
    intro k
    induction k with
    | zero => rfl
    | succ k ih => simp [List.replicate_succ, leNat, ih]
  simp [leAt, slice, h]

/-- The offsets at which the reset state reads non-zero though no register is stored there: what units hold (R9). -/
def resetStatusOffsets : List Nat := [0x004, 0x008, 0x010, 0x20000, 0x30024, 0x300040, 0x301040, 0x302040, 0x303040,
  0x304040, 0x305040, 0x4000E8, 0x4000EC, 0x4000F0, 0x4000F4, 0x4000F8, 0x4000FC]

section
variable {o : Nat}

theorem cfgStatus_reset (hx : oCfg + o ∉ resetStatusOffsets) : cfgStatus State.reset o = 0 := by
  have h4 : o ≠ 0x004 := by rintro rfl; exact hx (by decide)
  have h8 : o ≠ 0x008 := by rintro rfl; exact hx (by decide)
  have h10 : o ≠ 0x010 := by rintro rfl; exact hx (by decide)
  unfold cfgStatus
  dsimp only
  rw [if_neg h4, if_neg h8, if_neg h10]
  repeat' split
  all_goals rfl

theorem secStatus_reset : secStatus State.reset o = 0 := by
  unfold secStatus
  repeat' split
  all_goals rfl

theorem pwrStatus_reset (hx : oPwr + o ∉ resetStatusOffsets) (h : regOf State.reset (oPwr + o) = 0) :
    pwrStatus State.reset o = 0 := by
  have h0 : o ≠ 0 := by rintro rfl; exact hx (by decide)
  unfold pwrStatus
  dsimp only
  rw [if_neg h0]
  split
  · rfl
  split
  · subst o; exact h
  split
  · rw [h]; rfl
  split
  · subst o; exact absurd h (by decide)
  split
  · rfl
  · exact h

theorem ldgStatus_reset (hx : oLdg + o ∉ resetStatusOffsets) (h : regOf State.reset (oLdg + o) = 0) :
    ldgStatus State.reset o = 0 := by
  have h24 : o ≠ 0x024 := by rintro rfl; exact hx (by decide)
  unfold ldgStatus
  dsimp only
  rw [if_neg h24]
  split
  · rfl
  split
  · rfl
  split
  · rfl
  split
  · exact leAt_nil _ _
  · exact h

theorem hifStatus_reset {p : Nat} (h : regOf State.reset (oHif p + o) = 0) : hifStatus State.reset p o = 0 := by
  unfold hifStatus
  repeat' split
  case isFalse => exact h
  all_goals rfl

theorem jetStatus_reset (h : regOf State.reset (oJet + o) = 0) : jetStatus State.reset o = 0 := by
  unfold jetStatus
  repeat' split
  case isFalse => exact h
  all_goals rfl

theorem bsnStatus_reset {b : Nat} (hb : b < 6) (hx : oBsn b + o ∉ resetStatusOffsets)
    (h : regOf State.reset (oBsn b + o) = 0) : bsnStatus State.reset b o = 0 := by
  have h40 : o ≠ 0x040 := by
    rintro rfl
    have hcases : b = 0 ∨ b = 1 ∨ b = 2 ∨ b = 3 ∨ b = 4 ∨ b = 5 := by omega
    rcases hcases with rfl | rfl | rfl | rfl | rfl | rfl <;> exact hx (by decide)
  unfold bsnStatus
  dsimp only
  rw [if_neg h40]
  repeat' split
  case isFalse => exact h
  all_goals rfl

theorem sptStatus_reset {b : Nat} (h : regOf State.reset (oSpt b + o) = 0) : sptStatus State.reset b o = 0 := by
  unfold sptStatus
  dsimp only
  split
  · rfl
  split
  · exact h
  · rfl

/-- Slices 58 to 63, the journals, are the only ones whose status is non-zero at reset. -/
theorem cisStatus_reset (h4 : o % 4 = 0) (hx : oCis + o ∉ resetStatusOffsets) (h : regOf State.reset (oCis + o) = 0) :
    cisStatus State.reset o = 0 := by
  simp only [resetStatusOffsets, oCis, List.mem_cons, List.not_mem_nil, or_false, not_or] at hx
  unfold cisStatus
  dsimp only
  split
  · rw [if_neg (by omega)]
    rfl
  · exact h

theorem hbmStatus_reset (h : regOf State.reset (oHbm + o) = 0) : hbmStatus State.reset o = 0 := by
  unfold hbmStatus
  repeat' split
  case isFalse => exact h
  all_goals rfl

theorem weirStatus_reset (h : regOf State.reset (oWeir + o) = 0) : weirStatus State.reset o = 0 := by
  unfold weirStatus
  dsimp only
  split
  · rfl
  split
  · rfl
  · exact h

theorem slcStatus_reset (h : regOf State.reset (oSlc + o) = 0) : slcStatus State.reset o = 0 := by
  unfold slcStatus
  repeat' split
  case isFalse => exact h
  all_goals rfl

theorem nlStatus_reset (h : regOf State.reset (oNl + o) = 0) : nlStatus State.reset o = 0 := by
  unfold nlStatus
  dsimp only
  split
  · split
    · rfl
    split
    · rfl
    · exact h
  split
  · rfl
  split
  · decide
  split
  · exact leAt_nil _ _
  · exact h

end

/-- A register that is stored as zero and is no status of a unit reads as zero at reset. -/
theorem statusAt_reset {x : Nat} (h4 : x % 4 = 0) (hr : regOf State.reset x = 0) (hx : x ∉ resetStatusOffsets) :
    statusAt State.reset x = 0 := by
  unfold statusAt
  cases hb : blockAt x with
  | none => rfl
  | some e =>
    obtain ⟨u, o⟩ := e
    obtain rfl := blockAt_base hb
    cases u with
    | cfg =>
      dsimp only
      split
      · exact hr
      · exact cfgStatus_reset hx
    | sec =>
      dsimp only
      split
      · exact hr
      · exact secStatus_reset
    | pwr => exact pwrStatus_reset hx hr
    | ldg => exact ldgStatus_reset hx hr
    | hif p => exact hifStatus_reset hr
    | jet => exact jetStatus_reset hr
    | run => exact hr
    | bsn b => exact bsnStatus_reset (blockAt_bsn_lt hb) hx hr
    | spt b => exact sptStatus_reset hr
    | cis => exact cisStatus_reset (by simp only [blockBase, oCis] at h4; omega) hx hr
    | hbm => exact hbmStatus_reset hr
    | weir => exact weirStatus_reset hr
    | slc => exact slcStatus_reset hr
    | nl => exact nlStatus_reset hr

/-- With a pair's value zero and nothing latched, either word of the pair reads as zero. -/
theorem readCtl_reset {x : Nat} (req : Nat) (h4 : x % 4 = 0) (hr : regOf State.reset x = 0) (hx : x ∉ resetStatusOffsets) :
    (readCtl State.reset req x).1 = 0 := by
  unfold readCtl
  split
  · rfl
  · split
    · rw [pairValue_reset]
      rfl
    split
    · rw [pairValue_reset]
      rfl
    · exact congrArg (· % 2 ^ 32) (statusAt_reset h4 hr hx)

theorem resetRegisterValues : Claim.ResetRegisterValues := by
  refine ⟨by decide, fun x h4 hr hx => readCtl_reset 4 h4 ?_ hx⟩
  exact congrArg BitVec.toNat hr

/-- Nothing is listed in the maps of the reset state, so every unit reads as its structure's default. -/
theorem resetUnits : Claim.ResetUnits :=
  ⟨fun _ _ => rfl, fun _ _ => rfl, fun _ => ⟨rfl, rfl, rfl, rfl⟩, fun _ => rfl, fun _ => rfl, fun _ => rfl, fun _ => rfl,
    rfl, rfl, rfl, rfl, rfl, rfl, rfl, rfl, rfl⟩

/-- Settles O29: the registers block by block, the units and the empty memory by their defaults. -/
theorem resetState : Obligations.ResetState := ⟨resetRegisterValues, resetUnits, rfl⟩

end Sys2Proof.Proofs
end

section
/-! Reads and writes of registers by access code, of counters and of the command registers (O55). -/

namespace Sys2Proof.Proofs
open Sys2Proof.Machine Sys2Proof.Safety

/-! A stored register, and the bits of a field. -/

theorem regOf_lt (s : State) (x : Nat) : regOf s x < 2 ^ 32 := (SMap.get (0 : Reg) s.csr x).isLt

theorem bitB_regOf_high (s : State) (x : Nat) {i : Nat} (hi : 32 ≤ i) : bitB (regOf s x) i = false :=
  Nat.testBit_lt_two_pow (Nat.lt_of_lt_of_le (regOf_lt s x) (Nat.pow_le_pow_right (by decide) hi))

/-- Bit `i` of a mask is set where the field holds it. -/
theorem testBit_mask (f : Field) (i : Nat) : f.mask.testBit i = decide (f.lo ≤ i ∧ i ≤ f.hi) := by
  simp only [Field.mask, Nat.testBit_mul_two_pow, Nat.testBit_two_pow_sub_one]
  by_cases h : f.lo ≤ i
  · simp [h]; omega
  · simp [h]

/-- A field of a register after a write that stores it: the value's bits; the other bits stay. -/
theorem bitB_setReg_putMask (s : State) (x v : Nat) {f : Field} (i : Nat) (hf : f.hi < 32) :
    bitB (regOf (setReg s x (putMask (regOf s x) v f.mask)) x) i =
      if f.lo ≤ i ∧ i ≤ f.hi then bitB v i else bitB (regOf s x) i := by
  have hr : regOf (setReg s x (putMask (regOf s x) v f.mask)) x = putMask (regOf s x) v f.mask % 2 ^ 32 := by
    simp [regOf, setReg]
  have hones : Nat.testBit 0xFFFFFFFF i = decide (i < 32) := Nat.testBit_two_pow_sub_one 32 i
  have hhigh := bitB_regOf_high s x (i := i)
  unfold bitB at *
  rw [hr, Nat.testBit_mod_two_pow, putMask]
  simp only [Nat.testBit_or, Nat.testBit_and, Nat.testBit_xor, hones, testBit_mask]
  by_cases hi : i < 32
  · by_cases h : f.lo ≤ i ∧ i ≤ f.hi <;> simp [hi, h]
  · simp [hi, hhigh (by omega), show ¬ (f.lo ≤ i ∧ i ≤ f.hi) by omega]

/-- A W1C field after a write: cleared where the value holds a 1; the other bits stay (R9). -/
theorem bitB_clearBits_mask (s : State) (x v : Nat) (f : Field) (i : Nat) :
    bitB (regOf (clearBits s x (v &&& f.mask)) x) i =
      if f.lo ≤ i ∧ i ≤ f.hi then bitB (regOf s x) i && !bitB v i else bitB (regOf s x) i := by
  have hr : (clearBits s x (v &&& f.mask)).csr = SMap.put 0 s.csr x (SMap.get 0 s.csr x &&& ~~~ BitVec.ofNat 32 (v &&& f.mask)) :=
    rfl
  unfold regOf bitB
  rw [hr, SMap.get_put_self]
  generalize SMap.get (0 : Reg) s.csr x = r
  simp only [BitVec.testBit_toNat, BitVec.getLsbD_and, BitVec.getLsbD_not, BitVec.getLsbD_ofNat, Nat.testBit_and, testBit_mask]
  by_cases hi : i < 32
  · by_cases h : f.lo ≤ i ∧ i ≤ f.hi <;> simp [hi, h]
  · simp [BitVec.getLsbD_of_ge r i (by omega)]

/-- What a write leaves in bit `i` of a field by the field's access code, where the bit was `old` (R9). -/
def writtenBit (locked : Bool) (v : Nat) (f : Field) (i : Nat) (old : Bool) : Bool :=
  match f.acc with
  | .rw => if f.admits v then bitB v i else old
  | .lk => if f.admits v && !locked then bitB v i else old
  | .w1c => old && !bitB v i
  | .wo => old

theorem bitB_writeField (s : State) (x v : Nat) {f : Field} (i : Nat) (hf : f.hi < 32) :
    bitB (regOf (writeField s x v f) x) i =
      if f.lo ≤ i ∧ i ≤ f.hi then writtenBit s.boot.locked v f i (bitB (regOf s x) i) else bitB (regOf s x) i := by
  have hset := bitB_setReg_putMask s x v i hf
  have hclr := bitB_clearBits_mask s x v f i
  unfold writeField takesField writtenBit
  cases f.acc with
  | rw => cases f.admits v <;> simp [hset]
  | lk => cases f.admits v <;> cases s.boot.locked <;> simp [hset]
  | w1c => simp [hclr]
  | wo => simp

/-! A write of one register leaves the rest of the state alone. -/

/-- `t` is `s` but for the register stored at `x`. -/
def OnlyRegister (x : Nat) (s t : State) : Prop := t = { s with csr := t.csr } ∧ ∀ y, y ≠ x → regOf t y = regOf s y

theorem OnlyRegister.refl (x : Nat) (s : State) : OnlyRegister x s s := ⟨rfl, fun _ _ => rfl⟩

theorem OnlyRegister.trans {x : Nat} {s t u : State} (h : OnlyRegister x s t) (k : OnlyRegister x t u) :
    OnlyRegister x s u := by
  obtain ⟨ht, hy⟩ := h
  obtain ⟨hu, hz⟩ := k
  exact ⟨by rw [hu, ht], fun y hne => (hz y hne).trans (hy y hne)⟩

theorem setReg_onlyRegister (s : State) (x v : Nat) : OnlyRegister x s (setReg s x v) :=
  ⟨rfl, fun _ h => congrArg BitVec.toNat (SMap.get_put_ne _ _ h)⟩

theorem clearBits_onlyRegister (s : State) (x v : Nat) : OnlyRegister x s (clearBits s x v) :=
  ⟨rfl, fun _ h => congrArg BitVec.toNat (SMap.get_put_ne _ _ h)⟩

theorem writeField_onlyRegister (s : State) (x v : Nat) (f : Field) : OnlyRegister x s (writeField s x v f) := by
  unfold writeField
  split
  · exact .refl x s
  split
  · exact clearBits_onlyRegister s x _
  · exact setReg_onlyRegister s x _

theorem OnlyRegister.boot {x : Nat} {s t : State} (h : OnlyRegister x s t) : t.boot = s.boot := by rw [h.1]

/-! The fields of a register in turn. -/

/-- The stored effect of a write on some fields. -/
def writeFields (s : State) (x v : Nat) (l : List Field) : State := l.foldl (fun s f => writeField s x v f) s

theorem plainWrite_eq (s : State) (x v : Nat) : plainWrite s x v = writeFields s x v (fieldsAt x) := rfl

theorem writeFields_onlyRegister (x v : Nat) (l : List Field) : ∀ s, OnlyRegister x s (writeFields s x v l) := by
  induction l with
  | nil => exact fun s => .refl x s
  | cons g l ih => exact fun s => (writeField_onlyRegister s x v g).trans (ih _)

/-- Fields within a register's 32 bits, none of which shares a bit with another. -/
def FieldsFit (l : List Field) : Prop := (∀ f ∈ l, f.hi < 32) ∧ l.Pairwise fun f g => f.hi < g.lo

theorem FieldsFit.tail {g : Field} {l : List Field} (h : FieldsFit (g :: l)) : FieldsFit l :=
  ⟨fun f hf => h.1 f (List.mem_cons_of_mem g hf), h.2.tail⟩

/-- A bit outside every field keeps its value. -/
theorem bitB_writeFields_outside (x v i : Nat) (l : List Field) : ∀ s, FieldsFit l → (∀ f ∈ l, i < f.lo ∨ f.hi < i) →
    bitB (regOf (writeFields s x v l) x) i = bitB (regOf s x) i := by
  induction l with
  | nil => exact fun _ _ _ => rfl
  | cons g l ih =>
    intro s hl hout
    have hg := hout g List.mem_cons_self
    calc bitB (regOf (writeFields (writeField s x v g) x v l) x) i
      _ = bitB (regOf (writeField s x v g) x) i := ih _ hl.tail fun f hf => hout f (List.mem_cons_of_mem g hf)
      _ = bitB (regOf s x) i := by
        rw [bitB_writeField s x v i (hl.1 g List.mem_cons_self), if_neg (by omega)]

/-- A bit of a field is what its access code makes of the old bit and the value. -/
theorem bitB_writeFields_inside (x v i : Nat) {f : Field} (hlo : f.lo ≤ i) (hhi : i ≤ f.hi) (l : List Field) :
    ∀ s, FieldsFit l → f ∈ l →
      bitB (regOf (writeFields s x v l) x) i = writtenBit s.boot.locked v f i (bitB (regOf s x) i) := by
  induction l with
  | nil => exact fun _ _ h => absurd h List.not_mem_nil
  | cons g l ih =>
    intro s hl hmem
    have hlt : ∀ {e}, e ∈ l → g.hi < e.lo := List.rel_of_pairwise_cons hl.2
    have hone := bitB_writeField s x v i (hl.1 g List.mem_cons_self)
    rcases List.mem_cons.mp hmem with rfl | hf
    · calc bitB (regOf (writeFields (writeField s x v f) x v l) x) i
        _ = bitB (regOf (writeField s x v f) x) i :=
          bitB_writeFields_outside x v i l _ hl.tail fun e he => .inl (Nat.lt_of_le_of_lt hhi (hlt he))
        _ = writtenBit s.boot.locked v f i (bitB (regOf s x) i) := by rw [hone, if_pos ⟨hlo, hhi⟩]
    · have hgf := hlt hf
      rw [if_neg (by omega)] at hone
      calc bitB (regOf (writeFields (writeField s x v g) x v l) x) i
        _ = writtenBit (writeField s x v g).boot.locked v f i (bitB (regOf (writeField s x v g) x) i) := ih _ hl.tail hf
        _ = writtenBit s.boot.locked v f i (bitB (regOf s x) i) := by
          rw [hone, (writeField_onlyRegister s x v g).boot]

/-- The tables' fields lie within their registers, in ascending order. -/
theorem fieldsAt_fit (x : Nat) : FieldsFit (fieldsAt x) := by
  unfold fieldsAt cfgFields secFields pwrFields ldgFields hifFields jetFields runFields bsnFields sptFields cisFields hbmFields
    weirFields slcFields nlFields
  repeat' split
  all_goals simp [FieldsFit]

/-! Register accesses. -/

theorem exec_registerWrite (port x size v : Nat) (s : State) :
    exec (.registerWrite port x size v) s = execRegisterWrite port x size v s := rfl

theorem exec_counterLowRead (port x size : Nat) (s : State) :
    exec (.counterLowRead port x size) s = execCounterLowRead port x size s := rfl

/-- A 32-bit write, once it is aligned and out of reset. -/
theorem exec_registerWrite_word {s : State} {port x v : Nat} (hr : s.boot.inReset = false) (h4 : x % 4 = 0) (hv : v < 2 ^ 32) :
    exec (.registerWrite port x 4 v) s = .next (writeWord s port x v) := by
  have hw : wellSized x 4 = true := by simp [wellSized, h4]
  have hm : v % 4294967296 = v := Nat.mod_eq_of_lt hv
  simp [exec_registerWrite, execRegisterWrite, hr, hw, hm]

/-- A write that reaches the control space. -/
theorem exec_registerWrite_ctl {s : State} {port x v : Nat} (hr : s.boot.inReset = false) (h4 : x % 4 = 0) (hx : x < bar2)
    (hp : responds s port x = true) (hv : v < 2 ^ 32) : exec (.registerWrite port x 4 v) s = .next (writeCtl s x v) := by
  rw [exec_registerWrite_word hr h4 hv]
  unfold writeWord
  rw [if_pos hx, if_pos hp]

theorem responds_of_platformView {s : State} {port : Nat} (x : Nat) (h : platformView s port = true) :
    responds s port x = true := by
  simp [responds, h]

/-- A register with no effect but its fields' takes a write field by field. -/
theorem writeCtl_plain {s : State} {x : Nat} (v : Nat) (h : PlainRegister x) : writeCtl s x v = plainWrite s x v := by
  obtain ⟨-, -, hsec, hpwr, hgo, hidx, hlim⟩ := h
  have hsec4 : x ≠ oSec + 4 := by rintro rfl; exact hsec (by decide)
  have hcap : x ≠ oPwr + 0x0C := by rintro rfl; exact hpwr (by decide)
  unfold writeCtl ctlWrite
  dsimp only
  rw [if_neg (by simpa using hgo), if_neg hsec4, if_neg (by simp [hsec]), if_neg hpwr, if_neg hcap, if_neg hidx, if_neg hlim]

theorem registerWritesByAccessCode : Claim.RegisterWritesByAccessCode := by
  refine ⟨?_, ?_, ?_, ?_⟩
  · intro s port x v hr hx hp hv
    have ⟨hlt, h4, _⟩ := hx
    have ⟨hs, hne⟩ := writeFields_onlyRegister x v (fieldsAt x) s
    refine ⟨writeFields s x v (fieldsAt x), ?_, ?_, ?_, ?_, ?_, hne, ?_, ?_⟩
    · rw [exec_registerWrite_ctl hr h4 hlt hp hv, writeCtl_plain v hx, plainWrite_eq]
    iterate 4 rw [hs]
    · intro f hf i hlo hhi
      exact bitB_writeFields_inside x v i hlo hhi _ s (fieldsAt_fit x) hf
    · intro i hout
      exact bitB_writeFields_outside x v i _ s (fieldsAt_fit x) hout
  · intro s port x size v hw
    simp [exec_registerWrite, execRegisterWrite, hw]
  · intro s port x v hx hp
    have hword : ∀ w, writeWord s port x w = s := by
      intro w
      simp [writeWord, hx, hp]
    simp [exec_registerWrite, execRegisterWrite, hword]
  · intro s port x size hr h
    simp only [exec_counterLowRead, execCounterLowRead, hr, Bool.false_eq_true, if_false, readAccess]
    rcases h with hw | ⟨rfl, hx, hp⟩
    · simp [hw, emit]
    · cases wellSized x 4
      · simp [emit]
      · simp [readWord, hx, hp, emit, toLe, List.replicate]

/-! Counters of 64 bits (R13). -/

/-- Low words lie at multiples of 8. -/
theorem pairLow_aligned {u : RegBlock} {o : Nat} (h : pairLow u o = true) : o % 8 = 0 := by
  unfold pairLow at h
  split at h <;> simp at h <;> omega

theorem pairLow_high {u : RegBlock} {o : Nat} (h : pairLow u o = true) : pairLow u (o + 4) = false := by
  have hlow := pairLow_aligned h
  refine Bool.eq_false_iff.mpr fun hne => ?_
  have hhigh := pairLow_aligned hne
  omega

/-- The high word lies in the block of the low word. -/
theorem blockAt_high {x o : Nat} {u : RegBlock} (h8 : x % 8 = 0) (h : blockAt x = some (u, o)) :
    blockAt (x + 4) = some (u, o + 4) := by
  have hd : (x + 4) / 0x10000 = x / 0x10000 := by omega
  have hm : (x + 4) % 0x10000 = x % 0x10000 + 4 := by omega
  have hq : (x % 0x10000 + 4) / 0x1000 = x % 0x10000 / 0x1000 := by omega
  have hr : (x % 0x10000 + 4) % 0x1000 = x % 0x10000 % 0x1000 + 4 := by omega
  unfold blockAt at *
  dsimp only at *
  rw [hd, hm]
  split at h <;> simp_all

/-! Bytes of a value. -/

theorem toLe_mod (n v : Nat) : toLe n (v % 256 ^ n) = toLe n v := by
  induction n generalizing v with
  | zero => rfl
  | succ n ih =>
    have hlow : BitVec.ofNat 8 (v % 256 ^ (n + 1)) = BitVec.ofNat 8 v :=
      BitVec.eq_of_toNat_eq (Nat.mod_mod_of_dvd v ⟨256 ^ n, Nat.pow_succ'⟩)
    have hhigh : v % 256 ^ (n + 1) / 256 = v / 256 % 256 ^ n := by
      rw [Nat.pow_succ', Nat.mod_mul_right_div_self]
    rw [toLe, toLe, hlow, hhigh, ih]

theorem toLe_add (m n v : Nat) : toLe (m + n) v = toLe m v ++ toLe n (v / 256 ^ m) := by
  induction m generalizing v with
  | zero => simp [toLe]
  | succ m ih =>
    have hdiv : v / 256 ^ (m + 1) = v / 256 / 256 ^ m := by rw [Nat.pow_succ', Nat.div_div_eq_div_mul]
    rw [Nat.succ_add, toLe, toLe, hdiv, ih, List.cons_append]

/-! Reads of a pair's words. -/

/-- The state once a requester has latched the high word of a pair at `x` that holds `v`. -/
def latched (s : State) (req x v : Nat) : State :=
  { s with host := { s.host with
    latches := SMap.put none s.host.latches (latchKey req x) (some (BitVec.ofNat 32 (v / 2 ^ 32))) } }

theorem latched_get (s : State) (req x v : Nat) :
    SMap.get none (latched s req x v).host.latches (latchKey req x) = some (BitVec.ofNat 32 (v / 2 ^ 32)) :=
  SMap.get_put_self (d := (none : Option Reg)) s.host.latches (latchKey req x) (some (BitVec.ofNat 32 (v / 2 ^ 32)))

theorem latched_get_ne (s : State) {req x r y : Nat} (v : Nat) (h : latchKey r y ≠ latchKey req x) :
    SMap.get none (latched s req x v).host.latches (latchKey r y) = SMap.get none s.host.latches (latchKey r y) :=
  SMap.get_put_ne (d := (none : Option Reg)) s.host.latches (some (BitVec.ofNat 32 (v / 2 ^ 32))) h

section
variable {s : State} {port x o : Nat} {u : RegBlock}

/-- A read of the low word returns it and latches the high one. -/
theorem readWord_low (hp : platformView s port = true) (hx : x < bar2) (hb : blockAt x = some (u, o))
    (hl : pairLow u o = true) :
    readWord s port x = (pairValue s u o x % 2 ^ 32, latched s port x (pairValue s u o x)) := by
  unfold readWord readCtl
  rw [if_pos hx, if_pos (responds_of_platformView x hp), hb]
  exact if_pos hl

/-- A read of the high word returns the word that the requester has latched. -/
theorem readWord_high {h : Reg} (hp : platformView s port = true) (hx : x < bar2) (h8 : x % 8 = 0)
    (hb : blockAt x = some (u, o)) (hl : pairLow u o = true)
    (hlatch : SMap.get none s.host.latches (latchKey port x) = some h) :
    ∃ t, readWord s port (x + 4) = (h.toNat, t) ∧ t.out = s.out := by
  have hx4 : x + 4 < bar2 := by unfold bar2 at *; omega
  unfold readWord readCtl
  rw [if_pos hx4, if_pos (responds_of_platformView _ hp), blockAt_high h8 hb]
  simp [pairLow_high hl, hl, readHigh, hlatch]

/-- An aligned read of 4 bytes. -/
theorem exec_counterLowRead_word (hr : s.boot.inReset = false) (h4 : x % 4 = 0) :
    exec (.counterLowRead port x 4) s =
      .next (emit (readWord s port x).2 (.readData port x (toLe 4 (readWord s port x).1))) := by
  have hw : wellSized x 4 = true := by simp [wellSized, h4]
  simp [exec_counterLowRead, execCounterLowRead, hr, readAccess, hw]

/-- An aligned read of 8 bytes reads the low word and then the high one. -/
theorem exec_counterLowRead_pair {a b : Nat} {t z : State} (hr : s.boot.inReset = false) (h8 : x % 8 = 0)
    (hlow : readWord s port x = (a, t)) (hhigh : readWord t port (x + 4) = (b, z)) :
    exec (.counterLowRead port x 8) s = .next (emit z (.readData port x (toLe 4 a ++ toLe 4 b))) := by
  have hw : wellSized x 8 = true := by simp [wellSized, h8]
  simp [exec_counterLowRead, execCounterLowRead, hr, readAccess, hw, hlow, hhigh]

/-- The latched word of a 64-bit value is its high word. -/
theorem toNat_highWord {v : Nat} (hv : v < 2 ^ 64) : (BitVec.ofNat 32 (v / 2 ^ 32)).toNat = v / 2 ^ 32 :=
  Nat.mod_eq_of_lt (Nat.div_lt_of_lt_mul hv)

theorem exec_counterLowRead_low (hr : s.boot.inReset = false) (hp : platformView s port = true) (hx : x < bar2)
    (h8 : x % 8 = 0) (hb : blockAt x = some (u, o)) (hl : pairLow u o = true) :
    exec (.counterLowRead port x 4) s =
      .next (emit (latched s port x (pairValue s u o x)) (.readData port x (toLe 4 (pairValue s u o x)))) := by
  rw [exec_counterLowRead_word hr (by omega), readWord_low hp hx hb hl]
  exact congrArg (fun d => Host.Outcome.next (emit _ (.readData port x d))) (toLe_mod 4 _)

theorem exec_counterLowRead_high {v : Nat} (hr : s.boot.inReset = false) (hp : platformView s port = true) (hx : x < bar2)
    (h8 : x % 8 = 0) (hb : blockAt x = some (u, o)) (hl : pairLow u o = true) (hv : v < 2 ^ 64)
    (hlatch : SMap.get none s.host.latches (latchKey port x) = some (BitVec.ofNat 32 (v / 2 ^ 32))) :
    ∃ z, exec (.counterLowRead port (x + 4) 4) s = .next z ∧
      z.out = s.out ++ [.readData port (x + 4) (toLe 4 (v / 2 ^ 32))] := by
  obtain ⟨t, ht, hout⟩ := readWord_high hp hx h8 hb hl hlatch
  refine ⟨_, exec_counterLowRead_word hr (by omega), ?_⟩
  rw [ht, toNat_highWord hv]
  exact congrArg (· ++ _) hout

theorem exec_counterLowRead_both (hr : s.boot.inReset = false) (hp : platformView s port = true) (hx : x < bar2)
    (h8 : x % 8 = 0) (hb : blockAt x = some (u, o)) (hl : pairLow u o = true) (hv : pairValue s u o x < 2 ^ 64) :
    ∃ t, exec (.counterLowRead port x 8) s = .next t ∧
      t.out = s.out ++ [.readData port x (toLe 8 (pairValue s u o x))] := by
  have hlow := readWord_low hp hx hb hl
  generalize pairValue s u o x = v at *
  obtain ⟨z, hz, hout⟩ := readWord_high (s := latched s port x v) hp hx h8 hb hl (latched_get s port x v)
  refine ⟨_, exec_counterLowRead_pair hr h8 hlow hz, ?_⟩
  have hbytes : toLe 4 (v % 2 ^ 32) ++ toLe 4 (v / 2 ^ 32) = toLe 8 v :=
    (congrArg (· ++ _) (toLe_mod 4 v)).trans (toLe_add 4 4 v).symm
  rw [toNat_highWord hv, hbytes]
  exact congrArg (· ++ _) hout

end

/-! Command registers (R527, R542) and the registers of context pages (R554, R566). -/

/-- A write of SEC_UPDATE_CTRL is the command that its CMD field names. -/
theorem writeCtl_secUpdateCtrl (s : State) (v : Nat) : writeCtl s (oSec + 4) v = secCommand s v := rfl

/-- A reserved CMD is refused. -/
theorem secCommand_reserved {s : State} {v : Nat} (hr : s.boot.inReset = false) (h : 6 ≤ bits v 2 0 ∨ bits v 2 0 = 0) :
    secCommand s v = updRefuse s := by
  unfold secCommand
  split
  case h_6 => simp [hr]
  all_goals omega

/-- A write of HIF_ADMIN_GO with GO set is the port's operation. -/
theorem writeCtl_adminGo (s : State) {p v : Nat} (hp : p < 4) (hv : bitB v 0 = true) :
    writeCtl s (oHif p + 0x140) v = adminGo s p := by
  have ho : (oHif p + 0x140) % 0x10000 = 0x140 := by unfold oHif; omega
  have hb : (oHif p + 0x140) / 0x10000 = 0x10 + p := by unfold oHif; omega
  unfold writeCtl
  dsimp only
  rw [ho, hb, if_pos (by simp; omega), if_pos hv]
  congr 1
  omega

/-- The register at offset `o` of context `c`'s page, as `writeWord` finds it. -/
theorem exec_registerWrite_page {s : State} {port c v o : Nat} (hr : s.boot.inReset = false) (hv : v < 2 ^ 32)
    (ho : o < 0x10000) (h4 : o % 4 = 0) :
    exec (.registerWrite port (bar2 + c * 0x10000 + o) 4 v) s = .next (
      if c < 1024 && ownCtx s port c then
        (if o = 0x004 then ringDoorbell s c v else if o = 0x00C && (getCtx s c).st != .free then evqAdvance s c v else s)
      else s) := by
  have ha : bar2 + c * 0x10000 + o - bar2 = c * 0x10000 + o := by omega
  have hc : (c * 0x10000 + o) / 0x10000 = c := by omega
  have hq : (c * 0x10000 + o) % 0x10000 = o := by omega
  rw [exec_registerWrite_word hr (by unfold bar2; omega) hv]
  unfold writeWord
  dsimp only
  rw [if_neg (by omega), ha, hc, hq]

theorem countersAndCommandRegisters : Claim.CountersAndCommandRegisters := by
  refine ⟨?_, ?_, ?_⟩
  · intro s port x u o hr hp hx h8 hb hl hv
    refine ⟨⟨_, exec_counterLowRead_low hr hp hx h8 hb hl, rfl, latched_get s port x _, fun r y h => latched_get_ne s _ h,
      fun q hq hpq hlatch => ?_⟩, exec_counterLowRead_both hr hp hx h8 hb hl hv⟩
    refine exec_counterLowRead_high hq hpq hx h8 hb hl hv ?_
    rw [hlatch]
    exact latched_get s port x _
  · intro s port v hr hp hv
    have hsec : exec (.registerWrite port (oSec + 4) 4 v) s = .next (secCommand s v) :=
      exec_registerWrite_ctl hr (by decide) (by decide) (responds_of_platformView _ hp) hv
    refine ⟨fun h => ?_, fun h => ?_, fun h => ?_, fun h => ?_, fun h => ?_, fun h => ?_, fun p hlt hgo => ?_⟩
    case refine_6 => rw [hsec, secCommand_reserved hr h]
    case refine_7 =>
      have hx : oHif p + 0x140 < bar2 := by unfold oHif bar2; omega
      rw [exec_registerWrite_ctl hr (by unfold oHif; omega) hx (responds_of_platformView _ hp) hv, writeCtl_adminGo s hlt hgo]
    all_goals
      rw [hsec, secCommand, h]
      rfl
  · intro s port c v hr hc hv
    constructor
    · exact exec_registerWrite_page hr hv (by decide) (by decide)
    · rw [exec_registerWrite_page hr hv (by decide) (by decide)]
      change _ = execCtxEvqHead port c v s
      unfold execCtxEvqHead
      cases decide (c < 1024) && ownCtx s port c <;> simp

/-- Settles O55: a plain write acts field by field, a pair is read through its latch, and the command registers' writes are
the commands' meanings. -/
theorem registerAccess : Obligations.RegisterAccess := ⟨registerWritesByAccessCode, countersAndCommandRegisters⟩

end Sys2Proof.Proofs
end

section
/-! One tick of the timebase (O2), the watchdogs and the timebase's loss and return (O20). -/

namespace Sys2Proof.Proofs
open Sys2Proof.Machine Sys2Proof.Safety

/-! The watchdogs and the timebase. -/

theorem exec_mgmtWatchdog (core : Nat) (s : State) : exec (.mgmtWatchdog core) s = execMgmtWatchdog core s := rfl

theorem exec_timebaseLost (s : State) : exec .timebaseLost s = execTimebaseLost s := rfl

theorem exec_timebaseRestored (s : State) : exec .timebaseRestored s = execTimebaseRestored s := rfl

/-- An error of severity 4 contains the device, whatever units it touches. -/
theorem raise_s4 (s : State) (code unit inst : Nat) (w : Touch) (h : codeSev code = 4) :
    raise s code unit inst w = raiseS4 s code unit inst := by
  simp [raise, h]

/-- The first expiry within a recovery, or one outside any, is S3 and is counted. -/
theorem exec_mgmtWatchdog_first {s : State} (core : Nat) (h : s.recov.st = .normal ∨ s.recov.wdogs = 0) :
    exec (.mgmtWatchdog core) s = .next
      { raise s 0x06C 9 core .all with recov := { (raise s 0x06C 9 core .all).recov with wdogs := 1 } } := by
  rw [exec_mgmtWatchdog]
  unfold execMgmtWatchdog
  by_cases hn : s.recov.st = .normal
  · simp [hn]
  · have hw : s.recov.wdogs = 0 := h.resolve_left hn
    simp [hw]

/-- A second expiry within a recovery is S4. -/
theorem exec_mgmtWatchdog_again {s : State} (core : Nat) (hn : s.recov.st ≠ .normal) (hw : 0 < s.recov.wdogs) :
    exec (.mgmtWatchdog core) s = .next (raise s 0x083 9 core .all) := by
  have hw1 : 1 ≤ s.recov.wdogs := hw
  rw [exec_mgmtWatchdog, raise_s4 s 0x083 9 core .all rfl]
  simp [execMgmtWatchdog, hn, hw1]

/-- Without the timebase the controllers are guarded at OP0. -/
theorem guardOp0_of_tbLost {s : State} (h : s.recov.tbLost = true) : guardOp0 s = true := by
  simp [guardOp0, h]

theorem targetOp_of_guardOp0 {s : State} (h : guardOp0 s = true) : targetOp s = 0 := if_pos h

/-- Settles O20: the watchdogs by the two cases of an expiry, the timebase by the lock and by the second since its loss. -/
theorem watchdogsAndTimebase : Obligations.WatchdogsAndTimebase := by
  refine ⟨fun s core h => ⟨_, exec_mgmtWatchdog_first core h, rfl⟩, fun s core => exec_mgmtWatchdog_again core, fun s => ?_,
    fun s h => ?_, fun s => ⟨fun hlost hsec => ?_, fun hsec => ?_⟩⟩
  · simp only [exec_timebaseLost, execTimebaseLost]
    exact ⟨fun hl => by rw [if_pos hl], fun hl => by rw [if_neg (by simp [hl])]⟩
  · have hg := guardOp0_of_tbLost h
    exact ⟨hg, targetOp_of_guardOp0 hg⟩
  · simp [exec_timebaseRestored, execTimebaseRestored, hlost, hsec]
  · have hshort : ¬ 50000000 ≤ s.ticks - s.recov.tbAt := by omega
    simp [exec_timebaseRestored, execTimebaseRestored, hshort]

/-! What noting the throttle reasons leaves unchanged (R497). -/

/-- `t` is `s` but for the record of the reasons: their active bits, the bits of PWR_REASON, the ledger's shadow and the
events sent. -/
def OnlyReasons (s t : State) : Prop :=
  OnlyRegister (oPwr + 0x08)
    { s with
      power := { s.power with active := t.power.active, activeAt := t.power.activeAt, activeSrc := t.power.activeSrc }
      ledger := { s.ledger with slots := t.ledger.slots, updates := t.ledger.updates }
      out := t.out } t

theorem OnlyReasons.refl (s : State) : OnlyReasons s s := OnlyRegister.refl _ s

theorem OnlyReasons.trans {s t u : State} (h : OnlyReasons s t) (k : OnlyReasons t u) : OnlyReasons s u := by
  obtain ⟨ht, hreg⟩ := h
  obtain ⟨hu, kreg⟩ := k
  refine ⟨?_, fun y hy => (kreg y hy).trans (hreg y hy)⟩
  rw [hu, ht]

theorem noteReason_onlyReasons (s : State) (n : Nat) : OnlyReasons s (noteReason s n) := by
  unfold noteReason
  dsimp only
  split
  · split
    · exact .refl s
    · exact setReg_onlyRegister _ _ _
  · split
    · exact .refl s
    · split <;> exact OnlyRegister.refl _ _

theorem foldl_noteReason_onlyReasons (l : List Nat) (s : State) : OnlyReasons s (l.foldl noteReason s) := by
  induction l generalizing s with
  | nil => exact .refl s
  | cons n l ih => exact (noteReason_onlyReasons s n).trans (ih _)

theorem settle_onlyReasons (s : State) : OnlyReasons s (settle s) := by
  unfold settle
  split
  · exact .refl s
  · exact foldl_noteReason_onlyReasons _ s

section
variable {s t : State} (h : OnlyReasons s t)
include h

theorem OnlyReasons.regOf {y : Nat} (hy : y ≠ oPwr + 0x08) : regOf t y = regOf s y := h.2 y hy

theorem OnlyReasons.opMax : opMax t = opMax s := by
  unfold Machine.opMax
  rw [h.regOf (by decide)]

/-- A hint is the context's own or the default of PWR_OP. -/
theorem OnlyReasons.ctxHint (c : Nat) : ctxHint t c = ctxHint s c := by
  have hd : defaultOp t = defaultOp s := by
    unfold defaultOp
    rw [h.regOf (by decide)]
  unfold Machine.ctxHint
  rw [hd, h.1]
  rfl

theorem OnlyReasons.deviceHint : deviceHint t = deviceHint s := by
  have hi : idleOp t = idleOp s := by
    unfold idleOp
    rw [h.regOf (by decide)]
  have hc : Machine.ctxHint t = Machine.ctxHint s := funext h.ctxHint
  unfold Machine.deviceHint
  rw [hi, hc, h.1]
  rfl

/-- Whether a reason is active does not depend on what was noted of the reasons before. -/
theorem OnlyReasons.reasonNow (n : Nat) : reasonNow t n = reasonNow s n := by
  unfold Machine.reasonNow
  rw [h.deviceHint, h.opMax, h.1]
  rfl

end

/-! The active bits. -/

/-- Clearing a set bit by subtraction. -/
theorem testBit_sub_two_pow {a n : Nat} (m : Nat) (h : a.testBit n = true) :
    (a - 2 ^ n).testBit m = (decide (m ≠ n) && a.testBit m) := by
  obtain ⟨b, rfl⟩ := Nat.exists_eq_add_of_le (Nat.ge_two_pow_of_testBit h)
  have hb : b.testBit n = false := by simpa [Nat.testBit_two_pow_add_eq] using h
  rw [Nat.add_sub_cancel_left]
  rcases Nat.lt_trichotomy m n with hlt | rfl | hgt
  · simp [Nat.testBit_two_pow_add_gt hlt, Nat.ne_of_lt hlt]
  · simp [hb]
  · obtain ⟨k, rfl⟩ := Nat.exists_eq_add_of_lt hgt
    have heven : b / 2 ^ n % 2 = 0 := by
      rw [Nat.testBit_eq_decide_div_mod_eq] at hb
      have := of_decide_eq_false hb
      omega
    have hhalf : (2 ^ n + b) / 2 ^ (n + 1) = b / 2 ^ (n + 1) := by
      rw [Nat.pow_succ, ← Nat.div_div_eq_div_mul, ← Nat.div_div_eq_div_mul, Nat.add_div_left _ (Nat.two_pow_pos n)]
      omega
    have hshift : ∀ x : Nat, x.testBit (n + k + 1) = (x / 2 ^ (n + 1)).testBit k := by
      intro x
      rw [Nat.testBit_div_two_pow]
      congr 1
      omega
    rw [hshift, hshift, hhalf]
    simp [show n + k + 1 ≠ n by omega]

/-- An activation sets the reason's bit, its end subtracts it, and a reason that has not changed leaves the bits. -/
theorem noteReason_active (s : State) (n : Nat) :
    (noteReason s n).power.active =
      if (reasonNow s n).isSome = bitB s.power.active n then s.power.active
      else if bitB s.power.active n then s.power.active - 2 ^ n else s.power.active ||| 2 ^ n := by
  unfold noteReason
  dsimp only
  cases bitB s.power.active n <;> cases reasonNow s n
  case true.none =>
    rw [if_neg (by simp), apply_ite State.power]
    exact congrArg Power.active (ite_self _)
  all_goals rfl

/-- Noting a reason makes its bit what the reason is now, and leaves the other bits. -/
theorem bitB_active_noteReason (s : State) (n m : Nat) :
    bitB (noteReason s n).power.active m = if m = n then (reasonNow s n).isSome else bitB s.power.active m := by
  rw [noteReason_active]
  cases hwas : bitB s.power.active n <;> cases (reasonNow s n).isSome
  case false.false | true.true => by_cases hm : m = n <;> simp [hm, hwas]
  case false.true =>
    have hset : bitB (s.power.active ||| 2 ^ n) m = (bitB s.power.active m || decide (n = m)) := by
      simp [bitB, Nat.testBit_or, Nat.testBit_two_pow]
    by_cases hm : m = n
    · subst hm
      simp [hset]
    · simp [hset, hm, Ne.symm hm]
  case true.false =>
    have hclr : bitB (s.power.active - 2 ^ n) m = (decide (m ≠ n) && bitB s.power.active m) := testBit_sub_two_pow m hwas
    by_cases hm : m = n
    · subst hm
      simp [hclr]
    · simp [hclr, hm]

theorem bitB_active_foldl_noteReason (l : List Nat) (s : State) (m : Nat) :
    bitB (l.foldl noteReason s).power.active m = if m ∈ l then (reasonNow s m).isSome else bitB s.power.active m := by
  induction l generalizing s with
  | nil => rfl
  | cons n l ih =>
    rw [List.foldl_cons, ih, (noteReason_onlyReasons s n).reasonNow, bitB_active_noteReason]
    by_cases hl : m ∈ l
    · simp [hl]
    · by_cases hm : m = n <;> simp [hl, hm]

/-- Out of reset every reason follows the state. -/
theorem bitB_active_settle {s : State} (hr : s.boot.inReset = false) {m : Nat} (hm : m < 14) :
    bitB (settle s).power.active m = (reasonNow s m).isSome := by
  unfold settle
  rw [if_neg (by simp [hr]), bitB_active_foldl_noteReason, if_pos (List.mem_range.mpr hm)]

/-! The reasons' counters. -/

@[simp] theorem counterOf_mod (s : State) (x : Nat) : counterOf s x % 0x10000000000000000 = counterOf s x :=
  Nat.mod_eq_of_lt (BitVec.isLt _)

theorem counterOf_bump (s : State) (x k y : Nat) :
    counterOf (bump s x k) y = if y = x then (counterOf s y + k) % 2 ^ 64 else counterOf s y := by
  unfold counterOf bump
  dsimp only
  rw [SMap.get_put]
  by_cases h : y = x
  · simp [h, BitVec.toNat_add]
  · simp [h]

/-- One more microsecond of reason `n`, if it is active. -/
def countReason (s : State) (n : Nat) : State :=
  if bitB s.power.active n then bump s (oPwr + 0x100 + 8 * n) 1 else s

theorem reasonTimes_eq (s : State) : reasonTimes s = (List.range 14).foldl countReason s := rfl

theorem countReason_ctr (s : State) (n : Nat) : countReason s n = { s with ctr := (countReason s n).ctr } := by
  unfold countReason
  split <;> rfl

theorem counterOf_countReason (s : State) (n m : Nat) :
    counterOf (countReason s n) (oPwr + 0x100 + 8 * m) =
      (counterOf s (oPwr + 0x100 + 8 * m) + if m = n ∧ bitB s.power.active m = true then 1 else 0) % 2 ^ 64 := by
  unfold countReason
  by_cases hm : m = n
  · subst hm
    cases bitB s.power.active m
    · simp
    · simp [counterOf_bump]
  · have hx : oPwr + 0x100 + 8 * m ≠ oPwr + 0x100 + 8 * n := by omega
    have hsame : counterOf (if bitB s.power.active n then bump s (oPwr + 0x100 + 8 * n) 1 else s) (oPwr + 0x100 + 8 * m) =
        counterOf s (oPwr + 0x100 + 8 * m) := by
      split
      · rw [counterOf_bump, if_neg hx]
      · rfl
    rw [hsame, if_neg (fun h => hm h.1)]
    exact (counterOf_mod s _).symm

theorem foldl_countReason_ctr (l : List Nat) (s : State) :
    l.foldl countReason s = { s with ctr := (l.foldl countReason s).ctr } := by
  induction l generalizing s with
  | nil => rfl
  | cons n l ih =>
    rw [List.foldl_cons, ih, countReason_ctr]

/-- Each listed reason gains one if it is active: no reason is listed twice. -/
theorem counterOf_foldl_countReason {l : List Nat} (hl : l.Nodup) (s : State) (m : Nat) :
    counterOf (l.foldl countReason s) (oPwr + 0x100 + 8 * m) =
      (counterOf s (oPwr + 0x100 + 8 * m) + if m ∈ l ∧ bitB s.power.active m = true then 1 else 0) % 2 ^ 64 := by
  induction l generalizing s with
  | nil => simp
  | cons n l ih =>
    obtain ⟨hn, hl⟩ := List.nodup_cons.mp hl
    have hp : (countReason s n).power = s.power := by rw [countReason_ctr]
    rw [List.foldl_cons, ih hl, hp, counterOf_countReason, Nat.mod_add_mod, Nat.add_assoc]
    congr 2
    by_cases hm : m = n
    · subst hm
      simp [hn]
    · simp [hm]

theorem reasonTimes_ctr (s : State) : reasonTimes s = { s with ctr := (reasonTimes s).ctr } := foldl_countReason_ctr _ s

theorem counterOf_reasonTimes (s : State) {m : Nat} (hm : m < 14) :
    counterOf (reasonTimes s) (oPwr + 0x100 + 8 * m) =
      (counterOf s (oPwr + 0x100 + 8 * m) + if bitB s.power.active m = true then 1 else 0) % 2 ^ 64 := by
  rw [reasonTimes_eq, counterOf_foldl_countReason List.nodup_range]
  simp [hm]

/-! One tick, as the passing of its microsecond and its second. -/

/-- A microsecond passes for the reasons when the ticks reach a multiple of 50. -/
def microsecond (s : State) : State := if s.ticks % 50 = 0 then reasonTimes s else s

/-- An operating second passes when the ticks reach a multiple of 50,000,000. -/
def second (s : State) : State := if s.ticks % 50000000 = 0 then operatingSecond s else s

theorem tick_of_inReset {s : State} (h : s.boot.inReset = true) : tick s = { s with ticks := s.ticks + 1 } := if_pos h

theorem tick_of_not_inReset {s : State} (h : s.boot.inReset = false) :
    tick s = second (microsecond (settle { s with ticks := s.ticks + 1 })) := if_neg (by simp [h])

theorem microsecond_ctr (s : State) : microsecond s = { s with ctr := (microsecond s).ctr } := by
  unfold microsecond
  split
  · exact reasonTimes_ctr s
  · rfl

theorem second_ledger (s : State) : second s = { s with ledger := (second s).ledger } := by
  unfold second
  split <;> rfl

theorem second_opsec (s : State) :
    (second s).ledger.opsec =
      if s.ticks % 50000000 = 0 then Nat.min (s.ledger.opsec + 1) 0xFFFFFFFF else s.ledger.opsec := by
  unfold second
  split <;> rfl

theorem counterOf_microsecond (s : State) {m : Nat} (hm : m < 14) :
    counterOf (microsecond s) (oPwr + 0x100 + 8 * m) =
      (counterOf s (oPwr + 0x100 + 8 * m) + if s.ticks % 50 = 0 ∧ bitB s.power.active m = true then 1 else 0) % 2 ^ 64 := by
  unfold microsecond
  by_cases h : s.ticks % 50 = 0
  · simp [h, counterOf_reasonTimes s hm]
  · simp [h]

/-- A tick counts itself; what else it changes are the reasons' record, counters and the ledger. -/
theorem tick_frame (s : State) :
    tick s = { s with
      ticks := s.ticks + 1, power := (tick s).power, csr := (tick s).csr, ctr := (tick s).ctr, ledger := (tick s).ledger
      out := (tick s).out } := by
  cases hr : s.boot.inReset
  · rw [tick_of_not_inReset hr, second_ledger, microsecond_ctr, (settle_onlyReasons _).1]
  · rw [tick_of_inReset hr]

/-- Out of reset, a tick's second, microsecond and reasons. -/
theorem tick_counts {s : State} (hr : s.boot.inReset = false) :
    (tick s).ledger.opsec =
      (if (s.ticks + 1) % 50000000 = 0 then Nat.min (s.ledger.opsec + 1) 0xFFFFFFFF else s.ledger.opsec) ∧
    (∀ n < 14, counterOf (tick s) (oPwr + 0x100 + 8 * n) = (counterOf s (oPwr + 0x100 + 8 * n) +
      if (s.ticks + 1) % 50 = 0 ∧ bitB (tick s).power.active n = true then 1 else 0) % 2 ^ 64) ∧
    (∀ n < 14, (bitB (tick s).power.active n = true ↔ (reasonNow s n).isSome = true)) := by
  have hbits : ∀ n < 14, bitB (settle { s with ticks := s.ticks + 1 }).power.active n = (reasonNow s n).isSome :=
    fun n hn => bitB_active_settle (s := { s with ticks := s.ticks + 1 }) hr hn
  obtain ⟨hsettle, -⟩ := settle_onlyReasons { s with ticks := s.ticks + 1 }
  rw [tick_of_not_inReset hr]
  generalize settle { s with ticks := s.ticks + 1 } = u at hbits hsettle
  have hticks : u.ticks = s.ticks + 1 := by rw [hsettle]
  have hopsec : u.ledger.opsec = s.ledger.opsec := by rw [hsettle]
  have hctr : ∀ x, counterOf u x = counterOf s x := fun x => by rw [hsettle]; rfl
  have hpower : (second (microsecond u)).power = u.power := by rw [second_ledger, microsecond_ctr]
  refine ⟨?_, fun n hn => ?_, fun n hn => ?_⟩
  · rw [second_opsec, microsecond_ctr, ← hticks, ← hopsec]
  · calc counterOf (second (microsecond u)) (oPwr + 0x100 + 8 * n)
      _ = counterOf (microsecond u) (oPwr + 0x100 + 8 * n) := by rw [second_ledger]; rfl
      _ = _ := by rw [counterOf_microsecond u hn, hctr, hticks, hpower]
  · rw [hpower, hbits n hn]

theorem step_idle {s : State} (h : s.pending = []) : step s = .next (tick s) := by
  unfold step
  rw [h]

/-- Settles O2: a tick's frame, its form in reset, and out of reset what it counts. -/
theorem idleStepIsOneTick : Obligations.IdleStepIsOneTick := by
  intro s hidle
  have hf := tick_frame s
  have hpending : (tick s).pending = [] := by rw [hf, hidle]
  refine ⟨tick s, step_idle hidle, ?_, hpending, ?_, ?_, ?_, ?_, ?_, ?_, ?_, ?_, ?_, tick_of_inReset, tick_counts⟩
  iterate 10 rw [hf]

end Sys2Proof.Proofs
end

section
/-! Side rows, row stores, phase 2, the delivery of units, and the held profile and route writes of a spout (O10). -/

namespace Sys2Proof.Proofs
open Sys2Proof.Machine Sys2Proof.Safety

/-! The reads of a step, by what they find. -/

section
variable {fs : List MemFault} {s q : State}

theorem memFaults_of_reads (k : State → State) (h : Claim.Reads fs s q) : memFaults fs s k = k q := by
  obtain ⟨hpassed, hundisturbed⟩ := h
  exact Laws.memFaults_passed hpassed hundisturbed

theorem memFaults_of_readFails (k : State → State) (h : Claim.ReadFails fs s q) : memFaults fs s k = q := by
  unfold Claim.ReadFails at h
  unfold memFaults
  rw [h]

end

/-! The least number with a property. -/

/-- The first number from `i` on is `i + j` when that one has the property and none between has it. -/
theorem firstFrom_eq_some {p : Nat → Bool} {j n i : Nat} (hj : j < n) (hp : p (i + j) = true)
    (hbelow : ∀ m < j, p (i + m) = false) : firstFrom p n i = some (i + j) := by
  induction j generalizing n i with
  | zero =>
    obtain ⟨n, rfl⟩ := Nat.exists_eq_succ_of_ne_zero (by omega : n ≠ 0)
    exact if_pos hp
  | succ j ih =>
    obtain ⟨n, rfl⟩ := Nat.exists_eq_succ_of_ne_zero (by omega : n ≠ 0)
    have hfirst : p i = false := hbelow 0 (by omega)
    have hrest : firstFrom p n (i + 1) = some (i + 1 + j) :=
      ih (by omega) (by rwa [Nat.add_right_comm]) fun m hm => by
        rw [Nat.add_right_comm]
        exact hbelow (m + 1) (by omega)
    simp [firstFrom, hfirst, hrest, Nat.add_comm, Nat.add_left_comm]

theorem leastBelow_eq_some {p : Nat → Bool} {j n : Nat} (hj : j < n) (hp : p j = true) (hbelow : ∀ m < j, p m = false) :
    leastBelow n p = some j := by
  simpa [leastBelow] using firstFrom_eq_some (i := 0) hj (by simpa using hp) (by simpa using hbelow)

/-! Side rows (R292). -/

/-- The side row stands in its pass's drain, and the rows that waited for it go on. -/
def sideRowIn (b row : Nat) (d : PassDrain) (p : PassRun) (q : State) : State :=
  let n := runElems q b p
  let r := rdCtx q d.ctx (fSide d.prof + row * fSideStride d.prof)
    (sideBytes (fSideFmt d.prof) (if isGatedBwd (fFunc d.prof) then 2 * n else n))
  pumpRows b d.seq d.waiting.length (updDrain r.2 b d.seq fun d => { d with side := SMap.put [] d.side row r.1 })

theorem exec_sideRowRead {s : State} {b row : Nat} {d : PassDrain} {p : PassRun} (fs : List MemFault)
    (hlive : basinLive s b = true) (hwants : (getSpout s b).passes.find? (wantsSide s b row) = some d)
    (hrun : findRun (getBasin s b) d.seq = some p) :
    exec (.sideRowRead b row fs) s = .next (memFaults fs s (sideRowIn b row d p)) := by
  change execSideRowRead b row s fs = _
  simp only [execSideRowRead, hwants, hrun, hlive]
  rfl

/-! Row stores and phase 2 (R295, R296). -/

/-- The row stores that the column groups of a spout hold. -/
def usedStores (y : Spout) : List Nat := (y.groups.filter (holdsStore y)).map (·.store)

/-- The COLSEG 0 member of a column group takes the first free row store. -/
theorem exec_rowStoreAcquire {s : State} {b n : Nat} {p : PassRun} {d : PassDrain} (hruns : basinRuns s b = true)
    (hcur : currentRun (getBasin s b) = some p) (hdrain : findDrain s b p.seq = some d)
    (hmember : groupMember p.raw d.prof = true) (hfirst : fColseg d.prof = 0) (hnew : groupIdx s b p.seq = none)
    (hn : n < 2) (hfree : n ∉ usedStores (getSpout s b)) (hbelow : ∀ m < n, m ∈ usedStores (getSpout s b)) :
    exec (.rowStoreAcquire b) s = .next (updSpout s b fun x => { x with groups := x.groups ++
      [{ store := n, func := fFunc d.prof, count := fColCount d.prof, rows := pRows p.raw, next := 1, prof := d.prof
         members := [p.seq] }] }) := by
  have hstore : leastBelow 2 (fun n => !(usedStores (getSpout s b)).contains n) = some n :=
    leastBelow_eq_some hn (by simpa using hfree) fun m hm => by simpa using hbelow m hm
  unfold usedStores at hstore
  change execRowStoreAcquire b s = _
  simp only [execRowStoreAcquire, hcur, hdrain, hstore, hruns, hmember, hfirst, hnew]
  rfl

theorem exec_rowKernelPhase2 {s : State} {b g : Nat} {x : ColGroup} {m : BitVec 32} {d : PassDrain} (fs : List MemFault)
    (hruns : basinRuns s b = true) (hheld : spoutHeld s b = false) (hgroup : (getSpout s b).groups[g]? = some x)
    (hhead : x.members.head? = some m) (hdrain : findDrain s b m = some d) (hall : x.next = x.count)
    (hrows : x.phase2 < x.rows) (hsegs : SMap.get 0 x.segsIn x.phase2 = x.count) :
    exec (.rowKernelPhase2 b g fs) s = .next (memFaults fs s fun q => phase2 q b g x d x.phase2) := by
  change execRowKernelPhase2 b g s fs = _
  simp [execRowKernelPhase2, hgroup, hhead, hdrain, hruns, hheld, hall, hrows, hsegs]

/-! Delivery (R193, R195). -/

/-- What the delivery of a unit does, by its destination. -/
def deliverUnit (s : State) (b k : Nat) (u : DUnit) (d : PassDrain) : State :=
  match u.dest with
  | .jet _ n => sendPiece s b k u n
  | .mem a => unitGone (wrCtx s d.ctx a u.data) b k u
  | .weir a fmt => unitGone { s with mem := { s.mem with weirReqs := s.mem.weirReqs ++ unitLines s b d u a fmt } } b k u

/-- The first unit of its pass is delivered. -/
theorem exec_spoutDelivery {s : State} {b k : Nat} {u : DUnit} {d : PassDrain} (hlive : basinLive s b = true)
    (hunit : (getSpout s b).units[k]? = some u) (hdrain : findDrain s b u.seq = some d)
    (hfirst : (((getSpout s b).units.take k).any fun v => v.seq == u.seq) = false) :
    exec (.spoutDelivery b k) s = .next (deliverUnit s b k u d) := by
  change execSpoutDelivery b k s = _
  simp only [execSpoutDelivery, hlive, hunit, hdrain, hfirst]
  rfl

theorem sendPiece_not_ready {s : State} {b i : Nat} {u : DUnit} (k n : Nat) (hconn : unitConn s b u = some i)
    (hready : connReady s (spoutEp b) i = false) : sendPiece s b k u n = s := by
  simp [sendPiece, hconn, hready]

/-- With a credit, the next piece is sent, and the unit leaves with its last one. -/
theorem sendPiece_ready {s : State} {b i : Nat} {u : DUnit} (k n : Nat) (hconn : unitConn s b u = some i)
    (hready : connReady s (spoutEp b) i = true) :
    sendPiece s b k u n =
      let t := connSend s (spoutEp b) i (2048 * u.sent + n % 2048) (padTo 64 ((u.data.drop (1024 * u.sent)).take 1024))
      if u.data.length ≤ 1024 * (u.sent + 1) then unitGone t b k u
      else updSpout t b fun x => { x with units := x.units.modify k fun u => { u with sent := u.sent + 1 } } := by
  simp [sendPiece, hconn, hready]

section
variable (s : State) (ep i tag : Nat) (data : List Byte)

/-- A message uses one credit of its connection. -/
@[simp] theorem getConn_connSend : getConn (connSend s ep i tag data) ep i =
    { getConn s ep i with credits := (getConn s ep i).credits - 1 } :=
  updConn_getConn s ep i fun x => { x with credits := x.credits - 1 }

@[simp] theorem connSend_msgs : (connSend s ep i tag data).jets.msgs = s.jets.msgs ++
    [{ src := ep, srcIdx := i, dst := (getConn s ep i).dst, ch := (getConn s ep i).ch, tag, thread := 0, data }] := rfl

@[simp] theorem getSpout_connSend (b : Nat) : getSpout (connSend s ep i tag data) b = getSpout s b := rfl

end

@[simp] theorem getSpout_bump (s : State) (off n b : Nat) : getSpout (bump s off n) b = getSpout s b := rfl

theorem getConn_of_jets {s t : State} (h : t.jets = s.jets) (ep i : Nat) : getConn t ep i = getConn s ep i := by
  unfold getConn
  rw [h]

section
variable (s : State) (b k : Nat) (u : DUnit)

@[simp] theorem unitGone_jets : (unitGone s b k u).jets = s.jets := by
  unfold unitGone
  cases u.topk <;> rfl

@[simp] theorem unitGone_units : (getSpout (unitGone s b k u) b).units = (getSpout s b).units.eraseIdx k := by
  unfold unitGone
  cases u.topk <;> simp

end

/-- The piece takes a credit and stands among the messages; the unit leaves with its last piece, and else counts it. -/
theorem sendPiece_sends {s : State} {b i : Nat} {u : DUnit} (k n : Nat) (hconn : unitConn s b u = some i)
    (hready : connReady s (spoutEp b) i = true) :
    getConn (sendPiece s b k u n) (spoutEp b) i =
        { getConn s (spoutEp b) i with credits := (getConn s (spoutEp b) i).credits - 1 } ∧
      (sendPiece s b k u n).jets.msgs = s.jets.msgs ++
        [{ src := spoutEp b, srcIdx := i, dst := (getConn s (spoutEp b) i).dst, ch := (getConn s (spoutEp b) i).ch
           tag := 2048 * u.sent + n % 2048, thread := 0
           data := padTo 64 ((u.data.drop (1024 * u.sent)).take 1024) }] ∧
      (getSpout (sendPiece s b k u n) b).units =
        if u.data.length ≤ 1024 * (u.sent + 1) then (getSpout s b).units.eraseIdx k
        else (getSpout s b).units.modify k fun u => { u with sent := u.sent + 1 } := by
  rw [sendPiece_ready k n hconn hready]
  by_cases hlast : u.data.length ≤ 1024 * (u.sent + 1)
  · simp only [if_pos hlast]
    exact ⟨by rw [getConn_of_jets (unitGone_jets _ b k u), getConn_connSend], by simp, by simp⟩
  · simp only [if_neg hlast]
    exact ⟨by rw [getConn_of_jets (updSpout_jets _ b _), getConn_connSend], by simp, by simp⟩

/-! Held writes (R262, R326). -/

/-- The held write `k` has reached the profile or the routing block `p`. -/
def heldApplied (s : State) (b k : Nat) (route : Bool) (p : Nat) (data : List Byte) : State :=
  updSpout s b fun x => { x with
    heldWrites := x.heldWrites.eraseIdx k
    profiles := if route then x.profiles else SMap.put [] x.profiles p data
    routes := if route then SMap.put [] x.routes p data else x.routes }

section
variable {s : State} {b k p slot : Nat} {data : List Byte} {route : Bool}

theorem applyHeld_other_kind (hw : (getSpout s b).heldWrites[k]? = some (!route, p, data, slot)) :
    applyHeld route b k s = s := by
  cases route <;> simp [applyHeld, hw]

/-- A held write that nothing holds back applies, and completes its command. -/
theorem applyHeld_applies (hw : (getSpout s b).heldWrites[k]? = some (route, p, data, slot))
    (hfirst : (((getSpout s b).heldWrites.take k).any fun h => h.1 == route && h.2.1 == p) = false)
    (hfree : profileFree (getBasin s b) p = true) (hlease : (getBasin s b).lease.isSome = true) (hruns : unitsRun s = true)
    (hmoved : ((getCtx s (basinCtx s b)).cmds.any fun m => slotBefore m.slot slot && unmovedNames m b p) = false) :
    applyHeld route b k s = completeCmd (heldApplied s b k route p data) (basinCtx s b) slot := by
  have hsome : (getBasin s b).lease.isNone = false := by simpa using hlease
  simp only [applyHeld, hw, hfirst, hfree, hsome, hruns, hmoved, bne_self_eq_false]
  rfl

end

theorem exec_profileApplied (b k : Nat) (s : State) : exec (.profileApplied b k) s = .next (applyHeld false b k s) := rfl

theorem exec_routeApplied (b k : Nat) (s : State) : exec (.routeApplied b k) s = .next (applyHeld true b k s) := rfl

/-- Settles O10: each event by its equation, a unit by its destination, and a held write by its kind. -/
theorem spoutEvents : Obligations.SpoutEvents := by
  refine ⟨?sideRow, ?rowStore, ?phase2, ?delivery, ?held⟩
  case sideRow =>
    intro s b row d p fs hlive hwants hrun
    rw [exec_sideRowRead fs hlive hwants hrun]
    exact ⟨fun q h => by rw [memFaults_of_readFails _ h], fun q h => by rw [memFaults_of_reads _ h]; rfl⟩
  case rowStore =>
    intro s b p d n hn hruns hcur hdrain hmember hfirst hnew used hfree hbelow
    exact exec_rowStoreAcquire hruns hcur hdrain hmember hfirst hnew hn hfree hbelow
  case phase2 =>
    intro s b g x m d fs hruns hheld hgroup hhead hdrain hall hrows hsegs
    rw [exec_rowKernelPhase2 fs hruns hheld hgroup hhead hdrain hall hrows hsegs]
    exact ⟨fun q h => by rw [memFaults_of_readFails _ h], fun q h => by rw [memFaults_of_reads _ h]⟩
  case delivery =>
    intro s b k u d hlive hunit hdrain hfirst gone
    rw [exec_spoutDelivery hlive hunit hdrain hfirst]
    unfold deliverUnit
    refine ⟨fun a hd => ?_, fun a fmt hd => ?_, fun j n i hd hconn hready => ?_, fun j n i hd hconn hready => ?_⟩ <;> rw [hd]
    · rfl
    · rfl
    · exact congrArg _ (sendPiece_not_ready k n hconn hready)
    · exact ⟨_, rfl, sendPiece_sends k n hconn hready⟩
  case held =>
    intro s b k p data slot route hw hfirst hfree hlease hruns hmoved
    rw [exec_profileApplied, exec_routeApplied]
    have happlies := applyHeld_applies hw hfirst hfree hlease hruns hmoved
    cases route with
    | false => exact ⟨congrArg _ happlies, congrArg _ (applyHeld_other_kind hw)⟩
    | true => exact ⟨congrArg _ (applyHeld_other_kind hw), congrArg _ happlies⟩

end Sys2Proof.Proofs
end

section
/-! The W40 and INT40 additions, and the canonical pairwise sum as a balanced tree (O41). -/

namespace Sys2Proof.Proofs
open Sys2Proof.Machine Sys2Proof.Safety

/-! Rounding depends on the exact value alone: (m · 2^k) · 2^(e − k) rounds as m · 2^e does (R243, R250). -/

theorem roundUp_zero (rm : Rnd) (q s : Nat) : roundUp rm q 0 s = false := by
  cases rm <;> simp [roundUp, Nat.ne_of_lt (Nat.two_pow_pos s)]

theorem roundUp_scale (rm : Rnd) (q rem s k : Nat) : roundUp rm q (rem * 2 ^ k) (s + k) = roundUp rm q rem s := by
  have hpos := Nat.two_pow_pos k
  cases rm with
  | rne =>
    have hdouble : 2 * (rem * 2 ^ k) = 2 * rem * 2 ^ k := (Nat.mul_assoc ..).symm
    simp only [roundUp, hdouble, Nat.pow_add, Nat.mul_lt_mul_right hpos, Nat.mul_right_cancel_iff hpos]
  | sr r =>
    have hshift : rem * 2 ^ k * 2 ^ 32 = rem * 2 ^ 32 * 2 ^ k := Nat.mul_right_comm ..
    simp only [roundUp, hshift, Nat.pow_add, Nat.mul_div_mul_right _ _ hpos]

/-- A magnitude of whole units is exact. -/
theorem roundUnits_whole (rm : Rnd) (m d : Nat) (u : Int) : roundUnits rm m (u + d) u = (m * 2 ^ d, false) := by
  have hd : (u + d - u).toNat = d := by omega
  unfold roundUnits
  rw [if_pos (by omega), hd, Nat.shiftLeft_eq]

/-- The quotient and the remainder of a magnitude by the unit, which may be the magnitude's own. -/
theorem roundUnits_below (rm : Rnd) (m s : Nat) (e : Int) : roundUnits rm m e (e + s) =
    (if roundUp rm (m / 2 ^ s) (m % 2 ^ s) s then m / 2 ^ s + 1 else m / 2 ^ s, decide (m % 2 ^ s ≠ 0)) := by
  by_cases h : s = 0
  · simp [h, roundUnits, roundUp_zero, Nat.mod_one]
  · have hs : (e + s - e).toNat = s := by omega
    unfold roundUnits
    rw [if_neg (by omega)]
    simp only [hs, Nat.shiftRight_eq_div_pow]

theorem roundUnits_scale (rm : Rnd) (m k : Nat) (e u : Int) : roundUnits rm (m * 2 ^ k) (e - k) u = roundUnits rm m e u := by
  rcases Int.le_total u e with hle | hle
  · obtain ⟨d, rfl⟩ := Int.le.dest hle
    rw [roundUnits_whole]
    rcases Nat.le_total k d with hk | hk
    · obtain ⟨j, rfl⟩ := Nat.exists_eq_add_of_le hk
      rw [show u + ((k + j : Nat) : Int) - k = u + j by omega, roundUnits_whole, Nat.mul_assoc, Nat.pow_add]
    · obtain ⟨j, rfl⟩ := Nat.exists_eq_add_of_le hk
      obtain ⟨v, rfl⟩ : ∃ v : Int, u = v + j := ⟨u - j, by omega⟩
      rw [show v + j + (d : Int) - ((d + j : Nat) : Int) = v by omega, roundUnits_below, Nat.pow_add, ← Nat.mul_assoc,
        Nat.mul_div_cancel _ (Nat.two_pow_pos j), Nat.mul_mod_left, roundUp_zero]
      simp
  · obtain ⟨s, rfl⟩ := Int.le.dest hle
    have hpos := Nat.two_pow_pos k
    have hzero : m % 2 ^ s * 2 ^ k = 0 ↔ m % 2 ^ s = 0 := by rw [Nat.mul_eq_zero, or_iff_left (Nat.ne_of_gt hpos)]
    have hu : e + (s : Int) = e - k + ((s + k : Nat) : Int) := by omega
    rw [roundUnits_below, hu, roundUnits_below, Nat.pow_add, Nat.mul_div_mul_right _ _ hpos, Nat.mul_mod_mul_right, roundUp_scale]
    simp only [ne_eq, hzero]

theorem log2_mul_two_pow {m : Nat} (hm : m ≠ 0) (k : Nat) : Nat.log2 (m * 2 ^ k) = Nat.log2 m + k := by
  have hpos := Nat.two_pow_pos k
  rw [Nat.log2_eq_iff (Nat.mul_ne_zero hm (Nat.ne_of_gt hpos)), Nat.add_right_comm, Nat.pow_add, Nat.pow_add _ _ k,
    Nat.mul_lt_mul_right hpos]
  exact ⟨Nat.mul_le_mul_right _ (Nat.log2_self_le hm), Nat.lt_log2_self⟩

theorem encMag_scale (f : Fmt) (rm : Rnd) (m k : Nat) (e : Int) : f.encMag rm (m * 2 ^ k) (e - k) = f.encMag rm m e := by
  by_cases hm : m = 0
  · simp [hm, Fmt.encMag]
  · have hlead : lead (m * 2 ^ k) (e - k) = lead m e := by
      rw [lead, lead, log2_mul_two_pow hm]
      omega
    simp only [Fmt.encMag, hlead, roundUnits_scale, hm, Nat.mul_eq_zero, Nat.ne_of_gt (Nat.two_pow_pos k), or_self]

theorem ieeeRound_scale (f : Fmt) (neg : Bool) (m k : Nat) (e : Int) :
    f.ieeeRound (.fin neg (m * 2 ^ k) (e - k)) = f.ieeeRound (.fin neg m e) := by
  simp only [Fmt.ieeeRound, encMag_scale]

/-! Exact sums. -/

theorem fval_add_comm (v w : FVal) : v.add w = w.add v := by
  cases v <;> cases w
  case fin.fin na ma ea nb mb eb =>
    simp only [FVal.add, Int.min_comm eb ea, Bool.and_comm nb na, Int.add_comm (_ * _) (_ * _)]
  case inf.inf a b => cases a <;> cases b <;> rfl
  all_goals rfl

/-- A zero adds nothing but its exponent, to which the sum may be scaled. -/
theorem fin_add_zero (neg : Bool) {m : Nat} (hm : m ≠ 0) (e e0 : Int) :
    ∃ k : Nat, (FVal.fin neg m e).add (.fin false 0 e0) = .fin neg (m * 2 ^ k) (e - k) := by
  refine ⟨(e - min e e0).toNat, ?_⟩
  have hexp : e - (e - min e e0).toNat = min e e0 := by omega
  have hne : m * 2 ^ (e - min e e0).toNat ≠ 0 := Nat.mul_ne_zero hm (Nat.ne_of_gt (Nat.two_pow_pos _))
  simp only [hexp, FVal.add, Nat.shiftLeft_eq, Nat.zero_mul, Int.natCast_zero, Int.mul_zero, Int.add_zero]
  generalize m * 2 ^ (e - min e e0).toNat = n at hne ⊢
  cases neg with
  | false =>
    simp only [Bool.false_eq_true, if_false, Int.one_mul]
    rw [if_neg (by omega), decide_eq_false (by omega), Int.natAbs_natCast]
  | true =>
    simp only [if_true, Int.neg_mul, Int.one_mul]
    rw [if_neg (by omega), decide_eq_true (by omega), Int.natAbs_neg, Int.natAbs_natCast]

/-! Rounding to W40 (R219, R220). -/

theorem toW40_zero (neg : Bool) (e : Int) : toW40 (.fin neg 0 e) = 0 := rfl

theorem toW40_fin {m : Nat} (neg : Bool) (e : Int) (hm : m ≠ 0) : toW40 (.fin neg m e) =
    if w40.ieeeRound (.fin neg m e) = w40.signBit true then 0 else BitVec.ofNat 40 (w40.ieeeRound (.fin neg m e)) := by
  rw [toW40]
  rintro _ _ ⟨⟩
  exact hm rfl

theorem toW40_add_zero (v : FVal) (e0 : Int) : toW40 (v.add (.fin false 0 e0)) = toW40 v := by
  cases v with
  | nan => rfl
  | inf neg => rfl
  | fin neg m e =>
    by_cases hm : m = 0
    · subst hm
      simp [FVal.add, toW40_zero]
    · obtain ⟨k, hk⟩ := fin_add_zero neg hm e e0
      rw [hk, toW40_fin _ _ (Nat.mul_ne_zero hm (Nat.ne_of_gt (Nat.two_pow_pos k))), toW40_fin _ _ hm, ieeeRound_scale]

theorem ieeeRound_fin_le (f : Fmt) (neg : Bool) (m : Nat) (e : Int) :
    f.ieeeRound (.fin neg m e) ≤ f.signBit neg + (f.maxMag + 1) := by
  simp only [Fmt.ieeeRound]
  split <;> omega

theorem ieeeRound_w40_lt (v : FVal) : w40.ieeeRound v < 2 ^ 40 := by
  cases v with
  | nan => decide
  | inf neg => cases neg <;> decide
  | fin neg m e =>
    refine Nat.lt_of_le_of_lt (ieeeRound_fin_le w40 neg m e) ?_
    cases neg <;> decide

theorem toW40_ne_negZero (v : FVal) : toW40 v ≠ BitVec.ofNat 40 0x8000000000 := by
  have hlt := ieeeRound_w40_lt v
  have hsign : w40.signBit true = 0x8000000000 := by decide
  unfold toW40
  split
  · decide
  · dsimp only
    rw [hsign]
    split
    case isTrue => decide
    case isFalse hne =>
      intro heq
      have hnat := congrArg BitVec.toNat heq
      simp only [BitVec.toNat_ofNat] at hnat
      omega

theorem w40Val_zero : w40Val 0 = .fin false 0 (-539) := by decide

theorem w40Add_comm (a b : W40) : w40Add a b = w40Add b a := congrArg toW40 (fval_add_comm ..)

theorem w40Add_zero (a : W40) : w40Add a 0 = w40Canon a := by rw [w40Add, w40Val_zero, toW40_add_zero, w40Canon]

theorem w40Add_nan {a : W40} (b : W40) (ha : w40Val a = .nan) : w40Add a b = BitVec.ofNat 40 0x7FF0000000 := by
  rw [w40Add, ha]
  rfl

/-! INT40 (R221). -/

theorem int40Sat_iff (a : W40) : int40Sat a = true ↔ a.toInt = 2 ^ 39 - 1 ∨ a.toInt = -2 ^ 39 := by
  simp [int40Sat, int40Max, int40Min]

theorem clampI_eq {lo hi : Int} (h : lo ≤ hi) (z : Int) : clampI lo hi z = max lo (min hi z) := by
  unfold clampI
  split
  · omega
  · split <;> omega

theorem toInt_toInt40 (z : Int) : (toInt40 z).toInt = max (-2 ^ 39) (min (2 ^ 39 - 1) z) := by
  rw [toInt40, clampI_eq (by decide), BitVec.toInt_ofInt_eq_self (by decide)]
  · rfl
  all_goals simp only [int40Min, int40Max]; omega

theorem accumulatorAddition : Claim.AccumulatorAddition := by
  refine ⟨fun a ha => ?_, fun a b => ⟨w40Add_comm a b, toW40_ne_negZero _⟩, fun a b => w40Add_nan b, fun a b => ?_⟩
  · rw [w40Add_comm 0 a, w40Add_zero, ha]
    exact ⟨rfl, rfl⟩
  · simp only [← int40Sat_iff, int40Add]
    refine ⟨fun ha => if_pos ha, fun ha hb => ?_, fun ha hb => ?_⟩
    · rw [if_neg ha, if_pos hb]
    · rw [if_neg ha, if_neg hb, toInt_toInt40]

/-! The balanced tree (R230, R231). -/

/-- The leaves' list by their index. -/
def leaves {α : Type} (leaf : Nat → α) (n : Nat) : List α := (List.range n).map leaf

/-- One level up: each node over a pair of leaves. -/
def pairNode {α : Type} (add : α → α → α) (leaf : Nat → α) (k : Nat) : α := add (leaf (2 * k)) (leaf (2 * k + 1))

section
variable {α : Type} (add : α → α → α)

theorem pairUp_leaves (leaf : Nat → α) (n : Nat) : pairUp add (leaves leaf (2 * n)) = leaves (pairNode add leaf) n := by
  induction n generalizing leaf with
  | zero => rfl
  | succ n ih =>
    have hcons : leaves leaf (2 * (n + 1)) = leaf 0 :: leaf 1 :: leaves (fun k => leaf (k + 2)) (2 * n) := by
      simp [leaves, Nat.mul_succ, List.range_succ_eq_map, Function.comp_def]
    rw [hcons, pairUp, ih]
    simp [leaves, pairNode, List.range_succ_eq_map, Function.comp_def, Nat.mul_succ, Nat.add_right_comm]

/-- The lowest level of a tree taken first. -/
theorem sumTree_pairNode (leaf : Nat → α) (d k : Nat) :
    sumTree add leaf (d + 1) k = sumTree add (pairNode add leaf) d k := by
  induction d generalizing k with
  | zero => rfl
  | succ d ih =>
    change add (sumTree add leaf (d + 1) (2 * k)) (sumTree add leaf (d + 1) (2 * k + 1)) = _
    rw [ih, ih]
    rfl

theorem treeLevels_leaves (leaf : Nat → α) (d : Nat) : treeLevels add d (leaves leaf (2 ^ d)) = [sumTree add leaf d 0] := by
  induction d generalizing leaf with
  | zero => rfl
  | succ d ih => rw [treeLevels, Nat.pow_succ', pairUp_leaves, ih, sumTree_pairNode]

end

theorem clog2_bounds {n : Nat} (hn : 0 < n) : n ≤ 2 ^ clog2 n ∧ 2 ^ clog2 n < 2 * n := by
  unfold clog2
  split
  · omega
  · have hlo : 2 ^ Nat.log2 (n - 1) ≤ n - 1 := Nat.log2_self_le (by omega)
    have hhi : n - 1 < 2 ^ (Nat.log2 (n - 1) + 1) := Nat.lt_log2_self
    omega

theorem padLeaves_eq {α : Type} (z : α) {l : List α} (hl : l ≠ []) :
    padLeaves z l = leaves (fun k => l.getD k z) (2 ^ clog2 l.length) := by
  have hlen := (clog2_bounds (List.length_pos_iff.mpr hl)).1
  apply List.ext_getElem
  · rw [padLeaves, List.length_append, List.length_replicate, Nat.add_sub_cancel' hlen]
    simp [leaves]
  · intro k _ _
    by_cases hk : k < l.length
    · simp [padLeaves, leaves, hk]
    · simp [padLeaves, leaves, hk, List.getElem_append]

theorem pairwiseIsTheBalancedTree : Claim.PairwiseIsTheBalancedTree := by
  refine ⟨fun α add z l hl => ?_, fun n => clog2_bounds⟩
  rw [pairwise, padLeaves_eq z hl, treeLevels_leaves]
  rfl

/-- Settles O41: W40 sums from the exact sum and one rounding, INT40 sums by their saturated operands, and the pairwise sum
level by level. -/
theorem canonicalAddition : Obligations.CanonicalAddition := ⟨accumulatorAddition, pairwiseIsTheBalancedTree⟩

end Sys2Proof.Proofs
end

section
/-! Every step keeps the canonical form of the memory (O4). -/

namespace Sys2Proof.Proofs
open Sys2Proof.Machine Sys2Proof.Safety

/-- A meaning that leaves the memory's bytes alone keeps their canonical form. -/
theorem canon_of_cells {s : State} {x : Res} (h : ∀ r, x = .next r → r.mem.cells = s.mem.cells) (hs : Canon s) :
    ∀ r, x = .next r → Canon r := fun r hr => canon_of (h r hr) hs

/-- Each command by the law of its meaning: what it keeps of the bytes, or that what it writes keeps their canonical form. -/
theorem exec_canon {i : Instr} {s : State} (hw : Canon s) : ∀ r, exec i s = .next r → Canon r := by
  cases i with
  | add => exact execAdd_canon _ _ hw
  | sub => exact execSub_canon _ _ hw
  | andI => exact execAndI_canon _ _ hw
  | orI => exact execOrI_canon _ _ hw
  | xorI => exact execXorI_canon _ _ hw
  | shl => exact execShl_canon _ _ hw
  | shr => exact execShr_canon _ _ hw
  | sra => exact execSra_canon _ _ hw
  | mul => exact execMul_canon _ _ hw
  | mulhu => exact execMulhu_canon _ _ hw
  | div => exact execDiv_canon _ _ hw
  | divu => exact execDivu_canon _ _ hw
  | rem => exact execRem_canon _ _ hw
  | remu => exact execRemu_canon _ _ hw
  | min => exact execMin_canon _ _ hw
  | max => exact execMax_canon _ _ hw
  | minu => exact execMinu_canon _ _ hw
  | maxu => exact execMaxu_canon _ _ hw
  | clz => exact execClz_canon _ _ hw
  | popc => exact execPopc_canon _ _ hw
  | liz => exact execLiz_canon _ _ hw
  | lih => exact execLih_canon _ _ hw
  | eqI => exact execEqI_canon _ _ hw
  | neI => exact execNeI_canon _ _ hw
  | ltI => exact execLtI_canon _ _ hw
  | ltu => exact execLtu_canon _ _ hw
  | geI => exact execGeI_canon _ _ hw
  | geu => exact execGeu_canon _ _ hw
  | feq => exact execFeq_canon _ _ hw
  | flt => exact execFlt_canon _ _ hw
  | fle => exact execFle_canon _ _ hw
  | funCmp => exact execFunCmp_canon _ _ hw
  | pand => exact execPand_canon _ _ hw
  | por => exact execPor_canon _ _ hw
  | pxor => exact execPxor_canon _ _ hw
  | pnot => exact execPnot_canon _ _ hw
  | pset => exact execPset_canon _ _ hw
  | pget => exact execPget_canon _ _ hw
  | fadd => exact execFadd_canon _ _ hw
  | fsub => exact execFsub_canon _ _ hw
  | fmul => exact execFmul_canon _ _ hw
  | ffma => exact execFfma_canon _ _ hw
  | fdiv => exact execFdiv_canon _ _ hw
  | fsqrt => exact execFsqrt_canon _ _ hw
  | fmin => exact execFmin_canon _ _ hw
  | fmax => exact execFmax_canon _ _ hw
  | fcvti => exact execFcvti_canon _ _ hw
  | fcvtf => exact execFcvtf_canon _ _ hw
  | fabs => exact execFabs_canon _ _ hw
  | fneg => exact execFneg_canon _ _ hw
  | br => exact execBr_canon _ _ hw
  | jal => exact execJal_canon _ _ hw
  | ld => exact execLd_canon _ _ hw
  | st => exact execSt_canon _ _ hw
  | aadd => exact execAadd_canon _ _ hw
  | aswap => exact execAswap_canon _ _ hw
  | acas => exact execAcas_canon _ _ hw
  | amin => exact execAmin_canon _ _ hw
  | amax => exact execAmax_canon _ _ hw
  | aminu => exact execAminu_canon _ _ hw
  | amaxu => exact execAmaxu_canon _ _ hw
  | aand => exact execAand_canon _ _ hw
  | aor => exact execAor_canon _ _ hw
  | fence => exact execFence_canon _ _ hw
  | iflush => exact execIflush_canon _ _ hw
  | bulk => exact execBulk_canon _ _ hw
  | wop => exact execWop_canon _ _ hw
  | vadd => exact execVadd_canon _ _ hw
  | vsub => exact execVsub_canon _ _ hw
  | vmul => exact execVmul_canon _ _ hw
  | vfma => exact execVfma_canon _ _ hw
  | vaxpy => exact execVaxpy_canon _ _ hw
  | vmax => exact execVmax_canon _ _ hw
  | vmin => exact execVmin_canon _ _ hw
  | vcopy => exact execVcopy_canon _ _ hw
  | vfill => exact execVfill_canon _ _ hw
  | vsum => exact execVsum_canon _ _ hw
  | vamax => exact execVamax_canon _ _ hw
  | vchk => exact execVchk_canon _ _ hw
  | vztest => exact execVztest_canon _ _ hw
  | vcvt => exact execVcvt_canon _ _ hw
  | chopen => exact execChopen_canon _ _ hw
  | chclose => exact execChclose_canon _ _ hw
  | conn => exact execConn_canon _ _ hw
  | disc => exact execDisc_canon _ _ hw
  | send => exact execSend_canon _ _ hw
  | sendNb => exact execSendNb_canon _ _ hw
  | feed => exact execFeed_canon _ _ hw
  | feedNb => exact execFeedNb_canon _ _ hw
  | recv => exact execRecv_canon _ _ hw
  | recvNb => exact execRecvNb_canon _ _ hw
  | recvs => exact execRecvs_canon _ _ hw
  | recvsNb => exact execRecvsNb_canon _ _ hw
  | msgfree => exact execMsgfree_canon _ _ hw
  | barinit => exact execBarinit_canon _ _ hw
  | bararr => exact execBararr_canon _ _ hw
  | barwait => exact execBarwait_canon _ _ hw
  | spawnNormal => exact execSpawnNormal_canon _ _ hw
  | spawnFeed => exact execSpawnFeed_canon _ _ hw
  | exitThread => exact execExitThread_canon _ _ hw
  | getst => exact execGetst_canon _ _ hw
  | clrflg => exact execClrflg_canon _ _ hw
  | rdtime => exact execRdtime_canon _ _ hw
  | poison => exact execPoison_canon _ _ hw
  | memAccessComplete => exact execMemAccessComplete_canon _ _ _ _ _ hw
  | fenceComplete => exact canon_of_cells (execFenceComplete_cells _ _ _) hw
  | hopRetransmit => exact execHopRetransmit_canon _ _ _ hw
  | messageArrival => exact execMessageArrival_canon _ _ _ hw
  | connectionRequest => exact execConnectionRequest_canon _ _ _ hw
  | connectionGrant => exact canon_of_cells (execConnectionGrant_cells _ _) hw
  | creditReturn => exact canon_of_cells (execCreditReturn_cells _ _) hw
  | waitStall => exact canon_of_cells (execWaitStall_cells _ _ _) hw
  | jetSubstitution => exact execJetSubstitution_canon _ _ _ hw
  | launchStart => exact canon_of_cells (execLaunchStart_cells _ _) hw
  | terracePreempt => exact execTerracePreempt_canon _ _ hw
  | contextResume => exact execContextResume_canon _ _ hw
  | basinItemCheck => exact canon_of_cells (execBasinItemCheck_cells _ _) hw
  | passItem => exact execPassItem_canon _ _ _ hw
  | loadItem => exact canon_of_cells (execLoadItem_cells _ _) hw
  | loadComplete => exact execLoadComplete_canon _ _ _ _ hw
  | signalMark => exact canon_of_cells (execSignalMark_cells _ _) hw
  | waitMark => exact canon_of_cells (execWaitMark_cells _ _) hw
  | exchange => exact canon_of_cells (execExchange_cells _ _) hw
  | rootWindow => exact execRootWindow_canon _ _ _ hw
  | rowSegmentArrival => exact canon_of_cells (execRowSegmentArrival_cells _ _) hw
  | rowAccept => exact execRowAccept_canon _ _ _ hw
  | zeroRowMarker => exact execZeroRowMarker_canon _ _ _ hw
  | outputRowAtSpout => exact execOutputRowAtSpout_canon _ _ _ hw
  | rowChecked => exact execRowChecked_canon _ _ _ _ hw
  | rowReplay => exact execRowReplay_canon _ _ _ hw
  | segmentReplay => exact execSegmentReplay_canon _ _ _ _ hw
  | tokenExit => exact canon_of_cells (execTokenExit_cells _ _) hw
  | drain => exact canon_of_cells (execDrain_cells _ _) hw
  | drainComplete => exact canon_of_cells (execDrainComplete_cells _ _) hw
  | bankReload => exact execBankReload_canon _ _ _ hw
  | basinSubstitution => exact execBasinSubstitution_canon _ _ _ hw
  | basinPreempt => exact canon_of_cells (execBasinPreempt_cells _ _) hw
  | basinResume => exact canon_of_cells (execBasinResume_cells _ _) hw
  | feedStall => exact canon_of_cells (execFeedStall_cells _ _) hw
  | passComplete => exact execPassComplete_canon _ _ _ hw
  | sideRowRead => exact execSideRowRead_canon _ _ _ _ hw
  | rowStoreAcquire => exact canon_of_cells (execRowStoreAcquire_cells _ _) hw
  | rowKernelPhase2 => exact execRowKernelPhase2_canon _ _ _ _ hw
  | spoutDelivery => exact execSpoutDelivery_canon _ _ _ hw
  | profileApplied => exact canon_of_cells (execProfileApplied_cells _ _ _) hw
  | routeApplied => exact canon_of_cells (execRouteApplied_cells _ _ _) hw
  | weirPlainRequest => exact execWeirPlainRequest_canon _ _ _ _ hw
  | weirOrderedRequest => exact execWeirOrderedRequest_canon _ _ _ _ hw
  | weirExactPartial => exact execWeirExactPartial_canon _ _ _ _ hw
  | notifyDelivery => exact canon_of_cells (execNotifyDelivery_cells _ _) hw
  | jlmScrub => exact execJlmScrub_canon _ _ _ hw
  | cisternScrub => exact execCisternScrub_canon _ _ _ hw
  | hbmScrub => exact execHbmScrub_canon _ _ _ _ hw
  | pcRetirementComplete => exact execPcRetirementComplete_canon _ _ _ hw
  | hbmParityRetry => exact execHbmParityRetry_canon _ _ _ _ _ hw
  | ecsRead => exact execEcsRead_canon _ _ hw
  | hbmTempRead => exact canon_of_cells (execHbmTempRead_cells _ _ _ _) hw
  | rfmRequest => exact canon_of_cells (execRfmRequest_cells _ _) hw
  | commitBarrierRelease => exact execCommitBarrierRelease_canon _ _ _ _ hw
  | operandReady => exact execOperandReady_canon _ _ _ hw
  | snapshot => exact execSnapshot_canon _ _ _ hw
  | checkpointRequest => exact canon_of_cells (execCheckpointRequest_cells _) hw
  | buddyCopy => exact execBuddyCopy_canon _ _ hw
  | linkTrainingComplete => exact canon_of_cells (execLinkTrainingComplete_cells _ _ _) hw
  | downRetry => exact canon_of_cells (execDownRetry_cells _ _) hw
  | discoverySend => exact canon_of_cells (execDiscoverySend_cells _ _) hw
  | discoveryRec => exact canon_of_cells (execDiscoveryRec_cells _ _) hw
  | discoveryTimeout => exact canon_of_cells (execDiscoveryTimeout_cells _ _) hw
  | signalLoss => exact execSignalLoss_canon _ _ hw
  | linkBlockReceive => exact execLinkBlockReceive_canon _ _ _ hw
  | replayTimeout => exact execReplayTimeout_canon _ _ hw
  | linkRetrain => exact execLinkRetrain_canon _ _ _ hw
  | creditStall => exact canon_of_cells (execCreditStall_cells _ _ _ _) hw
  | packetRoute => exact execPacketRoute_canon _ _ hw
  | messagePkt => exact execMessagePkt_canon _ _ hw
  | connReq => exact canon_of_cells (execConnReq_cells _ _) hw
  | connGrant => exact canon_of_cells (execConnGrant_cells _ _) hw
  | msgCredit => exact canon_of_cells (execMsgCredit_cells _ _) hw
  | writePkt => exact execWritePkt_canon _ _ _ hw
  | weirStream => exact canon_of_cells (execWeirStream_cells _ _) hw
  | collReady => exact canon_of_cells (execCollReady_cells _ _) hw
  | barrierPkt => exact execBarrierPkt_canon _ _ hw
  | fabricBarrierTimeout => exact canon_of_cells (execFabricBarrierTimeout_cells _ _) hw
  | collectiveComplete => exact canon_of_cells (execCollectiveComplete_cells _ _) hw
  | recoveryNotice => exact execRecoveryNotice_canon _ _ hw
  | s2Record => exact canon_of_cells (execS2Record_cells _ _) hw
  | quiesceComplete => exact canon_of_cells (execQuiesceComplete_cells _) hw
  | repairComplete => exact canon_of_cells (execRepairComplete_cells _ _) hw
  | rejoinReady => exact canon_of_cells (execRejoinReady_cells _ _ _) hw
  | draftWaitExpiry => exact canon_of_cells (execDraftWaitExpiry_cells _) hw
  | recoveryBarrierRelease => exact execRecoveryBarrierRelease_canon _ _ hw
  | restoreComplete => exact execRestoreComplete_canon _ _ hw
  | rollbackReported => exact canon_of_cells (execRollbackReported_cells _) hw
  | mgmtWatchdog => exact execMgmtWatchdog_canon _ _ hw
  | timebaseLost => exact execTimebaseLost_canon _ hw
  | timebaseRestored => exact canon_of_cells (execTimebaseRestored_cells _) hw
  | bellowsUpdate => exact canon_of_cells (execBellowsUpdate_cells _ _) hw
  | currentSample => exact canon_of_cells (execCurrentSample_cells _ _ _) hw
  | calibration => exact canon_of_cells (execCalibration_cells _ _) hw
  | calCompare => exact canon_of_cells (execCalCompare_cells _ _ _) hw
  | opChange => exact canon_of_cells (execOpChange_cells _) hw
  | rampComplete => exact canon_of_cells (execRampComplete_cells _) hw
  | capGovernorLower => exact canon_of_cells (execCapGovernorLower_cells _) hw
  | capGovernorRaise => exact canon_of_cells (execCapGovernorRaise_cells _) hw
  | pwrCap => exact canon_of_cells (execPwrCap_cells _ _ _) hw
  | droopEnter => exact canon_of_cells (execDroopEnter_cells _ _) hw
  | droopRelease => exact canon_of_cells (execDroopRelease_cells _ _) hw
  | thermalUpdate => exact canon_of_cells (execThermalUpdate_cells _ _) hw
  | thermalOpLimit => exact canon_of_cells (execThermalOpLimit_cells _) hw
  | thermalTrip => exact canon_of_cells (execThermalTrip_cells _ _ _ _) hw
  | currentTrip => exact canon_of_cells (execCurrentTrip_cells _ _) hw
  | brakeFall => exact canon_of_cells (execBrakeFall_cells _) hw
  | brakeQualified => exact canon_of_cells (execBrakeQualified_cells _) hw
  | brakeRelease => exact canon_of_cells (execBrakeRelease_cells _) hw
  | brakeHeld => exact canon_of_cells (execBrakeHeld_cells _) hw
  | energyAttribution => exact canon_of_cells (execEnergyAttribution_cells _ _) hw
  | pldmEffecterWrite => exact canon_of_cells (execPldmEffecterWrite_cells _ _) hw
  | inputUndervoltage => exact execInputUndervoltage_canon _ hw
  | inputOvervoltage => exact execInputOvervoltage_canon _ hw
  | inputInRange => exact canon_of_cells (execInputInRange_cells _) hw
  | modRst => exact execModRst_canon _ hw
  | internalResetRelease => exact canon_of_cells (execInternalResetRelease_cells _) hw
  | configurationLock => exact execConfigurationLock_canon _ hw
  | perst => exact execPerst_canon _ _ hw
  | updBegin => exact canon_of_cells (execUpdBegin_cells _ _ _) hw
  | updateWrite => exact canon_of_cells (execUpdateWrite_cells _ _ _ _) hw
  | updFinish => exact canon_of_cells (execUpdFinish_cells _ _) hw
  | updateAbort => exact canon_of_cells (execUpdateAbort_cells _ _) hw
  | svnCommit => exact canon_of_cells (execSvnCommit_cells _ _ _) hw
  | getVersion => exact canon_of_cells (execGetVersion_cells _ _) hw
  | getCapabilities => exact canon_of_cells (execGetCapabilities_cells _ _) hw
  | negotiateAlgorithms => exact canon_of_cells (execNegotiateAlgorithms_cells _ _) hw
  | getDigests => exact canon_of_cells (execGetDigests_cells _ _) hw
  | getCertificate => exact canon_of_cells (execGetCertificate_cells _ _) hw
  | chunkGet => exact canon_of_cells (execChunkGet_cells _ _) hw
  | challenge => exact canon_of_cells (execChallenge_cells _ _) hw
  | getMeasurements => exact canon_of_cells (execGetMeasurements_cells _ _) hw
  | spdmUnsupported => exact canon_of_cells (execSpdmUnsupported_cells _ _) hw
  | readHeader => exact canon_of_cells (execReadHeader_cells _) hw
  | readSlots => exact canon_of_cells (execReadSlots_cells _ _ _) hw
  | ledgerUnsupported => exact canon_of_cells (execLedgerUnsupported_cells _ _) hw
  | ledgerFlush => exact execLedgerFlush_canon _ _ hw
  | ledgerLoad => exact canon_of_cells (execLedgerLoad_cells _ _ _ _ _) hw
  | ldgReadIndex => exact canon_of_cells (execLdgReadIndex_cells _ _ _) hw
  | counterLowRead => exact canon_of_cells (execCounterLowRead_cells _ _ _ _) hw
  | registerWrite => exact execRegisterWrite_canon _ _ _ _ _ hw
  | bar4Access => exact execBar4Access_canon _ _ _ _ _ _ hw
  | ctxTail => exact canon_of_cells (execCtxTail_cells _ _ _ _) hw
  | chanterDoorbell => exact canon_of_cells (execChanterDoorbell_cells _ _) hw
  | ctxEvqHead => exact canon_of_cells (execCtxEvqHead_cells _ _ _ _) hw
  | commandFetched => exact execCommandFetched_canon _ _ _ _ _ hw
  | ctxCreate => exact execCtxCreate_canon _ _ hw
  | ctxDestroy => exact execCtxDestroy_canon _ _ hw
  | lease => exact execLease_canon _ _ hw
  | frames => exact execFrames_canon _ _ hw
  | hostWindow => exact execHostWindow_canon _ _ hw
  | invalidate => exact execInvalidate_canon _ _ hw
  | suspend => exact execSuspend_canon _ _ hw
  | restart => exact execRestart_canon _ _ hw
  | ctxAbort => exact execCtxAbort_canon _ _ hw
  | draft => exact execDraft_canon _ _ hw
  | contextSchedule => exact execContextSchedule_canon _ _ hw
  | quantumExpiry => exact canon_of_cells (execQuantumExpiry_cells _ _) hw
  | hostAccessTimeout => exact canon_of_cells (execHostAccessTimeout_cells _ _) hw
  | commandStall => exact canon_of_cells (execCommandStall_cells _ _) hw
  | nopCmd => exact canon_of_cells (execNopCmd_cells _ _) hw
  | basinItems => exact canon_of_cells (execBasinItems_cells _ _) hw
  | launchCmd => exact canon_of_cells (execLaunchCmd_cells _ _) hw
  | profileWrite => exact canon_of_cells (execProfileWrite_cells _ _) hw
  | routeWrite => exact canon_of_cells (execRouteWrite_cells _ _) hw
  | setCmd => exact canon_of_cells (execSetCmd_cells _ _) hw
  | phaseCmd => exact canon_of_cells (execPhaseCmd_cells _ _) hw
  | regionDeclare => exact canon_of_cells (execRegionDeclare_cells _ _) hw
  | regionRelease => exact canon_of_cells (execRegionRelease_cells _ _) hw
  | blockInit => exact execBlockInit_canon _ _ hw
  | blockRelease => exact canon_of_cells (execBlockRelease_cells _ _) hw
  | schedule => exact canon_of_cells (execSchedule_cells _ _) hw
  | commit => exact execCommit_canon _ _ _ hw
  | collective => exact execCollective_canon _ _ _ hw
  | evalOpen => exact canon_of_cells (execEvalOpen_cells _ _) hw
  | evalClose => exact canon_of_cells (execEvalClose_cells _ _) hw
  | copyCmd => exact execCopyCmd_canon _ _ _ _ _ hw
  | waitCmd => exact canon_of_cells (execWaitCmd_cells _ _) hw
  | signalCommand => exact execSignalCommand_canon _ _ hw
  | jobStart => exact canon_of_cells (execJobStart_cells _ _) hw
  | ovlSelChange => exact canon_of_cells (execOvlSelChange_cells _ _) hw
  | brakeRise => exact canon_of_cells (execBrakeRise_cells _ _) hw
  | droopEnd => exact canon_of_cells (execDroopEnd_cells _ _ _) hw
  | linkUp => exact canon_of_cells (execLinkUp_cells _ _ _ _ _) hw
  | hbmTrain => exact canon_of_cells (execHbmTrain_cells _ _) hw
  | pcLineCopy => exact execPcLineCopy_canon _ _ _ hw

/-- Settles O4: a tick writes no byte, and the front command runs on the same memory. -/
theorem stepKeepsMemoryCanonical : Obligations.StepKeepsMemoryCanonical := by
  intro s t hs h
  unfold step at h
  split at h
  · injection h with h
    exact h ▸ canon_of (tick_cells s) hs
  · exact exec_canon (canon_mem hs) t h

end Sys2Proof.Proofs
end

section
/-! Accesses through the windows of BAR4 (O28). -/

namespace Sys2Proof.Proofs
open Sys2Proof.Machine Sys2Proof.Safety

/-! Bytes after a write (R339). -/

theorem get_putBytes (bs : List Byte) (m : SMap Byte) (a b : Nat) :
    SMap.get 0 (putBytes m a bs) b = if a ≤ b ∧ b < a + bs.length then bs.getD (b - a) 0 else SMap.get 0 m b := by
  induction bs generalizing m a with
  | nil =>
    rw [if_neg (by rw [List.length_nil]; omega)]
    rfl
  | cons x bs ih =>
    rw [putBytes, ih, SMap.get_put]
    by_cases hb : b = a
    · subst hb
      rw [if_neg (by omega), if_pos rfl, if_pos (by rw [List.length_cons]; omega), Nat.sub_self]
      rfl
    · by_cases hin : a + 1 ≤ b ∧ b < a + 1 + bs.length
      · obtain ⟨k, rfl⟩ := Nat.exists_eq_add_of_le hin.1
        rw [if_pos hin, if_pos (by rw [List.length_cons]; omega), show a + 1 + k - a = k + 1 by omega, Nat.add_sub_cancel_left]
        rfl
      · rw [if_neg hin, if_neg hb, if_neg (by rw [List.length_cons]; omega)]

theorem byteAt_writePhys (s : State) (a b : Nat) (bs : List Byte) :
    byteAt (writePhys s a bs) b = if a ≤ b ∧ b < a + bs.length then bs.getD (b - a) 0 else byteAt s b :=
  get_putBytes bs s.mem.cells a b

/-! An access by its target (R341, R348, R553). -/

/-- What a port's access does once its reads are checked. -/
def apertureEffect (port off : Nat) (write : Bool) (data : List Byte) (s : State) : State :=
  match aperture s port off data.length write with
  | none => aperFault s port off write
  | some (.phys a) => if write then writePhys s a data else emit s (.readData port off (readPhys s a data.length))
  | some (.diag a) =>
    let d := (List.range data.length).filterMap fun i => diagByte s (a + i)
    if d.length = data.length then emit s (.readData port off d) else aperFault s port off write
  | some (.ctx c a) =>
    if write then
      match ctxWrite s c a data with
      | some s => s
      | none => aperFault (cisRefused s) port off write
    else
      match ctxRead s c a data.length with
      | some (d, s) => emit s (.readData port off d)
      | none => aperFault (cisRefused s) port off write

section
variable {s q : State} {port off : Nat} {write : Bool} {data : List Byte} {fs : List MemFault}

theorem exec_bar4Access_checked (hr : s.boot.inReset = false) (hp : port < 4) (hc : (getPort s port).created = true) :
    exec (.bar4Access port off write data fs) s = .next (memFaults fs s (apertureEffect port off write data)) := by
  change execBar4Access port off write data s fs = _
  rw [execBar4Access, if_neg (by simp [hr, hp, hc])]
  rfl

theorem exec_bar4Access (hr : s.boot.inReset = false) (hp : port < 4) (hc : (getPort s port).created = true) :
    exec (.bar4Access port off write data) s = .next (apertureEffect port off write data s) := by
  rw [exec_bar4Access_checked hr hp hc, memFaults_nil]

theorem apertureEffect_none (h : aperture s port off data.length write = none) :
    apertureEffect port off write data s = aperFault s port off write := by
  rw [apertureEffect, h]

theorem apertureEffect_phys {a : Nat} (h : aperture s port off data.length write = some (.phys a)) :
    apertureEffect port off write data s =
      if write then writePhys s a data else emit s (.readData port off (readPhys s a data.length)) := by
  rw [apertureEffect, h]

/-- Where every byte is backed, none is left out of what is read. -/
theorem filterMap_eq_map_getD {α β : Type} {f : α → Option β} (d : β) (l : List α) (h : ∀ x ∈ l, (f x).isSome = true) :
    l.filterMap f = l.map fun x => (f x).getD d := by
  induction l with
  | nil => rfl
  | cons x l ih =>
    obtain ⟨v, hv⟩ := Option.isSome_iff_exists.mp (h x List.mem_cons_self)
    rw [List.filterMap_cons_some hv, List.map_cons, hv, Option.getD_some, ih fun y hy => h y (List.mem_cons_of_mem x hy)]

theorem apertureEffect_diag {a : Nat} (h : aperture s port off data.length write = some (.diag a))
    (hb : ∀ i < data.length, (diagByte s (a + i)).isSome = true) :
    apertureEffect port off write data s =
      emit s (.readData port off ((List.range data.length).map fun i => (diagByte s (a + i)).getD 0)) := by
  have hd := filterMap_eq_map_getD (f := fun i => diagByte s (a + i)) 0 (List.range data.length)
    fun i hi => hb i (List.mem_range.mp hi)
  rw [apertureEffect, h]
  dsimp only
  rw [hd, if_pos (by rw [List.length_map, List.length_range])]

theorem apertureEffect_ctxWrite {c a : Nat} (h : aperture s port off data.length true = some (.ctx c a)) :
    apertureEffect port off true data s = (ctxWrite s c a data).getD (aperFault (cisRefused s) port off true) := by
  rw [apertureEffect, h]
  dsimp only
  rw [if_pos rfl]
  cases ctxWrite s c a data <;> rfl

theorem apertureEffect_ctxRead {c a : Nat} (h : aperture s port off data.length false = some (.ctx c a)) :
    apertureEffect port off false data s = ((ctxRead s c a data.length).map fun r => emit r.2 (.readData port off r.1)).getD
      (aperFault (cisRefused s) port off false) := by
  rw [apertureEffect, h]
  dsimp only
  rw [if_neg (by decide)]
  cases ctxRead s c a data.length <;> rfl

end

/-! Where a window leads (R553). -/

section
variable {s : State} {port w x n : Nat} {write : Bool}

theorem aperture_contained (off : Nat) (h : s.recov.st = .contained) : aperture s port off n write = none := by
  simp [aperture, h]

theorem window_of_offset (hn : 1 ≤ n) (hx : x + n ≤ 2 ^ 30) : (w * 2 ^ 30 + x) / 2 ^ 30 = w ∧ (w * 2 ^ 30 + x) % 2 ^ 30 = x := by
  omega

theorem aperture_window_refused (hn : 1 ≤ n) (hx : x + n ≤ 2 ^ 30)
    (h : bitB (regOf s (oHif port + 0x200 + 8 * w)) 0 = false ∨
      write = true ∧ bitB (regOf s (oHif port + 0x200 + 8 * w)) 2 = true) :
    aperture s port (w * 2 ^ 30 + x) n write = none := by
  obtain ⟨hdiv, hmod⟩ := window_of_offset (w := w) hn hx
  unfold aperture
  rw [hdiv, hmod]
  refine if_pos ?_
  rcases h with hoff | ⟨hwrite, hro⟩
  · simp [hoff]
  · simp [hwrite, hro]

theorem aperture_window_physical (hs : s.recov.st ≠ .contained) (hw : w < 64) (hn : 1 ≤ n) (hx : x + n ≤ 2 ^ 30)
    (hon : bitB (regOf s (oHif port + 0x200 + 8 * w)) 0 = true)
    (hphys : bitB (regOf s (oHif port + 0x200 + 8 * w)) 1 = true)
    (hro : write = true → bitB (regOf s (oHif port + 0x200 + 8 * w)) 2 = false) :
    let a := bits (regOf s (oHif port + 0x204 + 8 * w)) 17 0 * 2 ^ 30 + x
    let q := getPort s port
    aperture s port (w * 2 ^ 30 + x) n write =
      if q.frameFirst * 2 ^ 21 ≤ a ∧ a + n ≤ (q.frameFirst + q.frameCount) * 2 ^ 21 then some (.phys a) else none := by
  obtain ⟨hdiv, hmod⟩ := window_of_offset (w := w) hn hx
  unfold aperture
  rw [hdiv, hmod]
  dsimp only
  rw [if_neg, if_pos hphys]
  · simp only [Bool.and_eq_true, decide_eq_true_eq]
  · cases write <;> simp_all

end

/-- Settles O28: an access by its target, after what its reads find; a window by its enable, read-only and physical bits. -/
theorem apertureAccesses : Obligations.ApertureAccesses := by
  refine ⟨fun s port off data hr hp hc => ?_, fun s port off write data fs q hr hp hc => ⟨fun hf => ?_, fun hf hrq hcq => ?_⟩,
    fun s port w x n write hs hw hn hx => ⟨fun hoff => ?_, fun hro => ?_, fun hon hphys hro => ?_⟩,
    fun s port off n write hs => aperture_contained off hs⟩
  · simp only [exec_bar4Access hr hp hc, Host.Outcome.next.injEq]
    refine ⟨fun a h => ⟨_, rfl, ?_⟩, fun a h => apertureEffect_phys h, fun c a t h ht => ?_, fun c a d t h ht => ?_,
      fun a h hb => apertureEffect_diag h hb, apertureEffect_none, fun h => ?_, fun c a h ht => ?_, fun c a h ht => ?_⟩
    · rw [apertureEffect_phys h, if_pos rfl]
      refine ⟨fun i hi => ?_, fun b hb => ?_, rfl, rfl, rfl⟩
      · rw [byteAt_writePhys, if_pos (by omega), Nat.add_sub_cancel_left]
      · rw [byteAt_writePhys, if_neg (by omega)]
    · rw [apertureEffect_ctxWrite h, ht]
      rfl
    · rw [apertureEffect_ctxRead h, ht]
      rfl
    · refine ⟨_, rfl, ?_⟩
      rw [apertureEffect_none h]
      exact ⟨List.append_assoc .., rfl⟩
    · rw [apertureEffect_ctxWrite h, ht]
      rfl
    · rw [apertureEffect_ctxRead h, ht]
      rfl
  · rw [exec_bar4Access_checked hr hp hc, memFaults_of_readFails _ hf]
  · rw [exec_bar4Access_checked hr hp hc, memFaults_of_reads _ hf, exec_bar4Access hrq hp hcq]
  · exact aperture_window_refused hn hx (.inl hoff)
  · exact aperture_window_refused hn hx (.inr ⟨rfl, hro⟩)
  · exact aperture_window_physical hs hw hn hx hon hphys hro

end Sys2Proof.Proofs
end

section
/-! The copy of a line of a retiring pseudo-channel (O46). -/

namespace Sys2Proof.Proofs
open Sys2Proof.Machine Sys2Proof.Safety

/-- The progress register's stack and lines (HBM_MIGRATE_PROGRESS). -/
def copyProgress (s : State) (stack n : Nat) : State := { s with mem := { s.mem with migrateStack := stack, migrateLines := n } }

@[simp] theorem copyProgress_getStack (s : State) (stack n k : Nat) : getStack (copyProgress s stack n) k = getStack s k := rfl

/-- A copied line moves the copy pointer on from where the check of the line leaves it. -/
theorem exec_pcLineCopy {s q : State} {stack : Nat} {wrong : List Nat} (hstack : stack < 8) (hrun : unitsRun s = true)
    (hmig : (getStack s stack).migrating = true) (hlast : (getStack s stack).copied + 1 < pcLines)
    (hread : hbmFault s (hbmLine stack ((getStack s stack).retiredPc.getD 0) (getStack s stack).copied) wrong = (true, q)) :
    exec (.pcLineCopy stack wrong) s =
      .next (copyProgress (updStack q stack fun x => { x with copied := x.copied + 1 }) stack ((getStack s stack).copied + 1)) := by
  change execPcLineCopy stack s wrong = _
  simp only [execPcLineCopy, copyLine, hread, hstack, hrun, hmig, hlast]
  rfl

/-- A running device whose stack 0 migrates although none of its pseudo-channels is retired: one line is copied, and lane 0 is one
correction short of the limit. -/
def migratesUnretired : State :=
  { State.reset with
    boot := { locked := true }
    mem := { hbm := [(0, { migrating := true, copied := 1, corr := [(0, 15)] })] } }

/-- The check of the next line corrects lane 0, which reaches the limit: its pseudo-channel is retired, from line 0 on. -/
theorem migratesUnretired_check : (hbmFault migratesUnretired 0x4000 [0]).1 = true ∧
    (getStack (hbmFault migratesUnretired 0x4000 [0]).2 0).copied = 0 := by decide

/-- Refutes O46: PC_LINE_COPY is said to set the copy pointer to one more than it was before the check of the line. A correction of
that check starts a retirement, which sets the pointer to 0, where the stack migrates with no pseudo-channel retired; the
statement does not exclude such a state. -/
theorem not_hbmStacks : ¬ Obligations.HbmStacks := by
  rintro ⟨_, ⟨_, _, hcopies, _⟩, _⟩
  obtain ⟨hcopy, _⟩ := hcopies migratesUnretired 0 [0] (by decide) rfl rfl
  have hread : hbmFault migratesUnretired 0x4000 [0] = (true, (hbmFault migratesUnretired 0x4000 [0]).2) :=
    Prod.ext migratesUnretired_check.1 rfl
  have hexec := exec_pcLineCopy (s := migratesUnretired) (stack := 0) (by decide) rfl rfl (by decide) hread
  have hstate : copyProgress (updStack _ 0 fun x => { x with copied := x.copied + 1 }) 0 2 =
      copyProgress (updStack _ 0 fun x => { x with copied := 2 }) 0 2 :=
    Host.Outcome.next.inj (hexec.symm.trans (hcopy _ hread (by decide)))
  have hcopied := congrArg (fun t => (getStack t 0).copied) hstate
  simp [migratesUnretired_check.2] at hcopied

end Sys2Proof.Proofs
end
